-- ==== Sys2Proof/Word.lean ====
section
/-! DEFINITION. The word types of the ZV9640: bytes, 32-bit and 64-bit records, the 18-bit Thicket word, the
fixed-length tables of numbered instances, and sparse memories. -/

namespace Sys2Proof

/-- A byte of a descriptor, a frame or a memory (R7). -/
abbrev Byte := BitVec 8

/-- A 16-bit status, fault or command code (R91, R93, R685). -/
abbrev W16 := BitVec 16

/-- A 32-bit register or record. -/
abbrev W32 := BitVec 32

/-- A 64-bit record. -/
abbrev W64 := BitVec 64

/-- The native word of Thicket, Q1.17, and the 18-bit angle (00, Numbers, units and notation). -/
abbrev W18 := BitVec 18

/-- A fixed number of like things, numbered from 0 (00, Names of instances). -/
abbrev Tab (n : Nat) (α : Type) := Vector α n

/-- A memory of `n`-bit words: sorted by address, no repeats, and no entry equal to 0, which is what an unlisted
address reads as. -/
abbrev Mem (n : Nat) := List (Nat × BitVec n)

end Sys2Proof

/-- Entry `i` of a table; the default where there is none. -/
def Vector.at {n : Nat} {α : Type} [Inhabited α] (t : Vector α n) (i : Nat) : α :=
  match t[i]? with
  | some x => x
  | none => default

/-- The table with entry `i` replaced; unchanged where there is none. -/
def Vector.put {n : Nat} {α : Type} (t : Vector α n) (i : Nat) (x : α) : Vector α n :=
  t.setIfInBounds i x

/-- The table with `f` applied to entry `i`. -/
def Vector.upd {n : Nat} {α : Type} [Inhabited α] (t : Vector α n) (i : Nat) (f : α → α) : Vector α n :=
  t.put i (f (t.at i))
end

