-- ==== Sys2Proof/Syntax.lean ====
section
/-! DEFINITION. The commands of the block: one constructor per row of spec/opcode_table.json. An Icsis command carries
the descriptor it was given in (R54); an event carries the instance it happens to and what was measured there. -/

namespace Sys2Proof

/-- A job as its descriptor gives it (R54): the submission ring it came from, SEQ, CLASS, FLAGS, LEN and the payload
bytes from offset 8 on, over the whole chain (R56). -/
structure Req where
  ring : Nat
  seq : BitVec 16
  cls : Nat
  flags : Byte
  len : Nat
  pay : List Byte
  deriving DecidableEq, Repr, Inhabited

/-- The kinds of control law an image places (R162, R187, R224). -/
inductive LawKind where
  | piSch | pid | notch3 | foc3 | foc6 | fcs6 | harm | dmd
  deriving DecidableEq, Repr, Inhabited

/-- One PI controller's or filter's word addresses in region memory (R163). -/
structure SrcPair where
  refSrc : Nat
  measSrc : Nat
  deriving DecidableEq, Repr, Inhabited

/-- The image constants of one law instance (R163, R188, R226): selectors and exponents by name, words as signed
integers, tables as lists. -/
structure LawInst where
  kind : LawKind
  shkp : Nat := 0
  nki : Nat := 0
  shkd : Nat := 0
  awm : Nat := 0
  nsets : Nat := 1
  schedSrc : Nat := 0
  srcs : List SrcPair := []
  ulimSrc : List Nat := []
  mtype : Nat := 0
  psi : Int := 0
  shpsi : Nat := 0
  ld : Int := 0
  lq : Int := 0
  shl : Nat := 0
  rs : Int := 0
  kt : Int := 0
  shkt : Nat := 0
  lm : Int := 0
  tr : Int := 0
  shm : Nat := 0
  mtpaId : List Int := []
  mtpaIq : List Int := []
  fluxTab : List Int := []
  vfw : Int := 0
  nfw : Nat := 0
  ovm : Nat := 0
  ovmTab : List Int := []
  vdcMin : Int := 0
  kpXy : Int := 0
  kiXy : Int := 0
  xyLim : Int := 0
  lAb : Int := 0
  lXy : Int := 0
  shlx : Nat := 0
  kCc : Int := 0
  ccMax : Int := 0
  hord : List Nat := []
  hscale : Nat := 0
  hrate : Int := 0
  nrmp : Nat := 0
  spdSrc : Nat := 0
  angSrc : Option Nat := none
  vphSrc : List Nat := []
  catchWin : Nat := 500
  alignT : Nat := 10
  /-- Current entries, V_dc entry, T_ref word of step 1 of R190, and the harmonic set's context (R213). -/
  curSrc : List Nat := []
  vdcSrc : Nat := 0
  trefSrc : Nat := 0
  harmCtx : Option Nat := none
  /-- The machine the law serves (0 or 1) and the legs whose compares it writes (R190 step 11). -/
  machine : Nat := 0
  legs : List Nat := []
  /-- The first word the law publishes its signals at (R192, R224), and that of its state words. -/
  sigBase : Nat := 0
  /-- The first word of the law's state in its context's state area (R113, R138). -/
  stBase : Nat := 0
  /-- Word addresses of ADV, THR and the P words that Icsis writes (R195, R345, R532). -/
  advAddr : Option Nat := none
  thrAddr : Option Nat := none
  pAddr : List (Nat × Nat) := []
  deriving DecidableEq, Repr, Inhabited

/-- A context's run of slot words on a logical cell (R118, R119): the block of its region, the cell, the slot of the
bank at which the run begins, the words, and the LD slots of the run that read another region, with that region (R140). -/
structure CellRun where
  block : Nat
  cell : Nat
  first : Nat
  words : List W64
  cross : List (Nat × Nat) := []
  deriving DecidableEq, Repr, Inhabited

/-- One context of an image (R143, R151, R156), as the body gives it. -/
structure CtxImg where
  num : Nat
  ctrl : W32
  period : W32
  minper : W32
  bound : W32
  bases : List W32
  area : W32
  params : List Int
  plim : List (Int × Int)
  /-- Stream entries named as inputs (R137): entry number and its source, by kind and number. -/
  inputs : List Nat
  /-- Its slot words, by the logical cells that it uses (R119, R127). -/
  runs : List CellRun
  /-- The first of the sixteen words of its parameters in region memory (R135). -/
  parBase : Nat
  laws : List LawInst
  deriving DecidableEq, Repr, Inhabited

/-- The body of a Drulis image, as Drulis laid it out (R156 leaves the layout to Drulis). -/
structure ImageBody where
  arrange : Nat
  contexts : List CtxImg
  /-- In-service map the placement was made against, per block (R151). -/
  insvc : List (BitVec 16)
  coef : List (Nat × W18)
  /-- Initial values of the region memories (R156): region × 32768 + word. -/
  rmem : List (Nat × W18)
  /-- Observers marked as required (R98, R227). -/
  required : List Nat
  /-- The torque monitor's constants as bytes (R466; R473 takes their CRC-32). -/
  monitor : List Byte
  deriving DecidableEq, Repr, Inhabited

/-- How the link of a frame ended, for a CAN transmit attempt (R565, R572). -/
inductive TxEnd where
  | sent | arbitrationLost | bitError | otherError
  deriving DecidableEq, Repr, Inhabited

/-- A CAN data frame as received (R563, R568). -/
structure CanFrame where
  ide : Bool
  fdf : Bool
  brs : Bool
  esi : Bool
  id : BitVec 29
  dlc : Fin 16
  remote : Bool
  data : List Byte
  /-- NANOS at the start-of-frame sample point (R568). -/
  tstamp : BitVec 30
  deriving DecidableEq, Repr, Inhabited

/-- The redundancy control trailer of a PRP frame (R580). -/
structure Rct where
  seq : Nat
  lan : Nat
  deriving DecidableEq, Repr, Inhabited

/-- An Ethernet frame as a port receives it (R581, R585). -/
structure EthFrame where
  dstMac : BitVec 48
  srcMac : BitVec 48
  etype : BitVec 16
  /-- The Ethernet payload: the Adexia header and payload of R585, without the trailer. -/
  body : List Byte
  rct : Option Rct
  fcsOk : Bool
  deriving DecidableEq, Repr, Inhabited

/-- What a cell slot runs on: the context, and the logical cell of its region (R127). -/
structure CellSel where
  ctx : Fin 160
  block : Fin 4
  lcell : Fin 15
  deriving DecidableEq, Repr, Inhabited

/-- What the start-up finds where the spec leaves it to the silicon: the failing start self-test, if any (R509), and
the cells that fail test 0x41 (R510). -/
structure BootFinds where
  failing : Option Byte
  badCells : List (Fin 16 × Fin 16)
  deriving DecidableEq, Repr, Inhabited

/-- Causes a Blackthorn latch holds for a machine (R448, R449). -/
inductive BlkCause where
  | smax | sls | sdi | slp
  | comp (n : Fin 8)
  deriving DecidableEq, Repr, Inhabited

/-- Causes of a chopper fault (R429). -/
inductive ChopCause where
  | desat | noCurrent | shorted | lockout | link
  deriving DecidableEq, Repr, Inhabited

/-- The two readers of a CAN receive object (R569). -/
inductive CanReader where
  | icsis | msgWord
  deriving DecidableEq, Repr, Inhabited

/-- Error steps that ISO 11898-1 counts (R573), by the counter they raise. -/
inductive CanErr where
  | transmit | receive | receiveDominant
  deriving DecidableEq, Repr, Inhabited

/-- The commands of the block: one constructor per row of spec/opcode_table.json, in the table's order. -/
inductive Instr where
  /-- HOST_WRITE_FRAME (R42). -/
  | hostWriteFrame (instr : Byte) (addr : BitVec 24) (words : List W32) (crc : Option (BitVec 16)) (clocks : Nat)
  /-- HOST_READ_FRAME (R42). -/
  | hostReadFrame (instr : Byte) (addr : BitVec 24) (clocks : Nat)
  /-- DIRECT_REGISTER_WRITE (R45). -/
  | directRegisterWrite (addr : BitVec 24) (w : W32)
  /-- PORT_RST (R45). -/
  | portRst
  /-- DOORBELL_WRITE (R53). -/
  | doorbellWrite (q : Fin 64) (w : W32)
  /-- HP_TIME_NS_READ (R48). -/
  | hpTimeNsRead
  /-- DESCRIPTOR_TAKE (R61). -/
  | descriptorTake
  /-- IRQ_TIME_EXPIRY (R73). -/
  | irqTimeExpiry (ring : Fin 64)
  /-- FAULT_LOG_COPY (R82). -/
  | faultLogCopy
  /-- HOST_SILENCE_TIMEOUT (R47). -/
  | hostSilenceTimeout
  /-- STATE_EVENT_EVALUATION (R96). -/
  | stateEventEvaluation
  /-- CFG_QUEUE (R51). -/
  | cfgQueue (r : Req)
  /-- CFG_EVENTS (R81). -/
  | cfgEvents (r : Req)
  /-- CFG_DRIVE (R18). -/
  | cfgDrive (r : Req) (intact : Bool)
  /-- CFG_IMAGE_BEGIN (R157). -/
  | cfgImageBegin (r : Req)
  /-- CFG_IMAGE_DATA (R157). -/
  | cfgImageData (r : Req)
  /-- CFG_IMAGE_FROM_FLASH (R157). -/
  | cfgImageFromFlash (r : Req)
  /-- CFG_IMAGE_TO_FLASH (R157). -/
  | cfgImageToFlash (r : Req)
  /-- CFG_COMMIT (R158). -/
  | cfgCommit (r : Req) (b : ImageBody)
  /-- CFG_RELEASE (R80). -/
  | cfgRelease (r : Req)
  /-- CFG_CONTEXT_CTRL (R159). -/
  | cfgContextCtrl (r : Req)
  /-- CFG_CONTEXT_PERIOD (R159). -/
  | cfgContextPeriod (r : Req)
  /-- CFG_CONTEXT_PARAM (R160). -/
  | cfgContextParam (r : Req)
  /-- CFG_CONTEXT_STATUS_CLR (R159). -/
  | cfgContextStatusClr (r : Req)
  /-- CFG_ACQ_GROUP (R282). -/
  | cfgAcqGroup (r : Req)
  /-- CFG_ACQ_SEQ (R282). -/
  | cfgAcqSeq (r : Req)
  /-- CFG_ACQ_SCALE (R274). -/
  | cfgAcqScale (r : Req)
  /-- CFG_ACQ_CAL (R276). -/
  | cfgAcqCal (r : Req)
  /-- CFG_ACQ_STATUS_CLR (R281). -/
  | cfgAcqStatusClr (r : Req)
  /-- CFG_ACQ_SWTRIG (R282). -/
  | cfgAcqSwtrig (r : Req)
  /-- CFG_DSM_CLOCKS (R291). -/
  | cfgDsmClocks (r : Req)
  /-- CFG_DSM_INPUT (R291). -/
  | cfgDsmInput (r : Req)
  /-- CFG_DSM_STATUS_CLR (R290). -/
  | cfgDsmStatusClr (r : Req)
  /-- CFG_POS_RSV (R326). -/
  | cfgPosRsv (r : Req)
  /-- CFG_POS_ENC (R327). -/
  | cfgPosEnc (r : Req)
  /-- CFG_POS_CMP (R328). -/
  | cfgPosCmp (r : Req)
  /-- CFG_POS_HAL (R329). -/
  | cfgPosHal (r : Req)
  /-- CFG_POS_OBS (R330). -/
  | cfgPosObs (r : Req)
  /-- CFG_POS_PLA (R331). -/
  | cfgPosPla (r : Req)
  /-- CFG_POS_STATUS_CLR (R333). -/
  | cfgPosStatusClr (r : Req)
  /-- CFG_PWM_UNIT (R374). -/
  | cfgPwmUnit (r : Req)
  /-- CFG_PWM_AUX (R375). -/
  | cfgPwmAux (r : Req)
  /-- CFG_PWM_STATUS_CLR (R376). -/
  | cfgPwmStatusClr (r : Req)
  /-- PWM_UNIT_RESTART (R378). -/
  | pwmUnitRestart (u : Fin 6)
  /-- CFG_GDV_CHANNEL (R405). -/
  | cfgGdvChannel (r : Req)
  /-- CFG_GDV_IND (R406). -/
  | cfgGdvInd (r : Req)
  /-- CFG_GDV_TABLE (R407). -/
  | cfgGdvTable (r : Req)
  /-- CFG_GDV_TCOOL (R409). -/
  | cfgGdvTcool (r : Req)
  /-- CFG_GDV_STATUS_CLR (R408). -/
  | cfgGdvStatusClr (r : Req)
  /-- CFG_PRT_CTL (R439). -/
  | cfgPrtCtl (r : Req) (intact : Bool)
  /-- CFG_PRT_DCL (R440). -/
  | cfgPrtDcl (r : Req)
  /-- CFG_PRT_CHOP (R441). -/
  | cfgPrtChop (r : Req)
  /-- CFG_PRT_TRIP (R442). -/
  | cfgPrtTrip (r : Req)
  /-- CFG_PRT_CBC (R443). -/
  | cfgPrtCbc (r : Req)
  /-- CFG_PRT_STATUS_CLR (R430). -/
  | cfgPrtStatusClr (r : Req)
  /-- CFG_CURVE (R237). -/
  | cfgCurve (r : Req)
  /-- CFG_THM_WARN (R550). -/
  | cfgThmWarn (r : Req)
  /-- CFG_THM_STATUS_CLR (R529). -/
  | cfgThmStatusClr (r : Req)
  /-- CFG_CHK_UNIT (R643). -/
  | cfgChkUnit (r : Req)
  /-- CFG_CHK_STATUS_CLR (R644). -/
  | cfgChkStatusClr (r : Req)
  /-- CFG_CAN_CTRL (R560). -/
  | cfgCanCtrl (r : Req)
  /-- CFG_CAN_MOBJ (R567). -/
  | cfgCanMobj (r : Req)
  /-- CFG_CAN_TXDATA (R566). -/
  | cfgCanTxdata (r : Req)
  /-- CFG_CAN_RECOVER (R573). -/
  | cfgCanRecover (r : Req)
  /-- CFG_CAN_STATUS_CLR (R576). -/
  | cfgCanStatusClr (r : Req)
  /-- CFG_ADX_CTRL (R602). -/
  | cfgAdxCtrl (r : Req)
  /-- CFG_ADX_MW (R603). -/
  | cfgAdxMw (r : Req)
  /-- CFG_ADX_TIME_CFG (R604). -/
  | cfgAdxTimeCfg (r : Req)
  /-- CFG_ADX_TIME_SET (R605). -/
  | cfgAdxTimeSet (r : Req)
  /-- CFG_ADX_TIME_ADJ (R605). -/
  | cfgAdxTimeAdj (r : Req)
  /-- CFG_ADX_STATUS_CLR (R606). -/
  | cfgAdxStatusClr (r : Req)
  /-- CFG_CRD_CFG (R629). -/
  | cfgCrdCfg (r : Req)
  /-- CFG_CRD_PAR (R630). -/
  | cfgCrdPar (r : Req)
  /-- CFG_CRD_STATUS_CLR (R631). -/
  | cfgCrdStatusClr (r : Req)
  /-- CFG_LIMIT (R475). -/
  | cfgLimit (r : Req) (intact : Bool)
  /-- CTL_ARM (R98). -/
  | ctlArm (r : Req)
  /-- CTL_DISARM (R80). -/
  | ctlDisarm (r : Req)
  /-- CTL_RUN (R240). -/
  | ctlRun (r : Req)
  /-- CTL_STOP (R109). -/
  | ctlStop (r : Req)
  /-- CTL_MODE (R230). -/
  | ctlMode (r : Req)
  /-- CTL_SETPOINT (R233). -/
  | ctlSetpoint (r : Req)
  /-- CTL_FORCE_RELEASE (R371). -/
  | ctlForceRelease (r : Req)
  /-- CTL_FORCE_BOTH_OFF (R371). -/
  | ctlForceBothOff (r : Req)
  /-- CTL_FORCE_LOWER_ON (R371). -/
  | ctlForceLowerOn (r : Req)
  /-- CTL_FORCE_UPPER_ON (R371). -/
  | ctlForceUpperOn (r : Req)
  /-- CTL_FORCE_SHADOW_WRITE (R371). -/
  | ctlForceShadowWrite (r : Req)
  /-- CTL_DISCHARGE (R437). -/
  | ctlDischarge (r : Req)
  /-- CTL_SPLIT (R501). -/
  | ctlSplit (r : Req)
  /-- CTL_JOIN (R503). -/
  | ctlJoin (r : Req) (injOk : Bool)
  /-- JOIN_STOP_TIMEOUT (R503). -/
  | joinStopTimeout
  /-- QRY_STATE (R107). -/
  | qryState (r : Req)
  /-- QRY_STATUS (R85). -/
  | qryStatus (r : Req)
  /-- QRY_CONFIG (R86). -/
  | qryConfig (r : Req)
  /-- QRY_TELEMETRY (R686). -/
  | qryTelemetry (r : Req)
  /-- QRY_CAPACITY (R87). -/
  | qryCapacity (r : Req)
  /-- QRY_CMD_COST (R88). -/
  | qryCmdCost (r : Req)
  /-- QRY_FAULT_LOG (R83). -/
  | qryFaultLog (r : Req)
  /-- QRY_ATTEST_REPORT (R660). -/
  | qryAttestReport (r : Req)
  /-- QRY_ATTEST_ENDORSE (R660). -/
  | qryAttestEndorse (r : Req)
  /-- SAF_STOP (R462). -/
  | safStop (r : Req)
  /-- SAF_RELEASE (R478). -/
  | safRelease (r : Req)
  /-- BLACKTHORN_RELEASE_TIMEOUT (R478). -/
  | blackthornReleaseTimeout (r : Req)
  /-- SAF_ACK (R479). -/
  | safAck (r : Req) (chPass : BitVec 16) (cmpPass : Byte)
  /-- SAF_TEST (R481). -/
  | safTest (r : Req) (chPass : BitVec 16) (cmpPass : Byte)
  /-- MNT_FW_WRITE_ERASE (R654). -/
  | mntFwWriteErase (r : Req)
  /-- MNT_FW_WRITE_DATA (R654). -/
  | mntFwWriteData (r : Req)
  /-- MNT_FW_VERIFY (R655). -/
  | mntFwVerify (r : Req)
  /-- MNT_FW_ACTIVATE (R656). -/
  | mntFwActivate (r : Req)
  /-- MNT_FUSE_IDENT (R658). -/
  | mntFuseIdent (r : Req) (readBackOk : Bool)
  /-- MNT_FUSE_KEY (R658). -/
  | mntFuseKey (r : Req) (readBackOk : Bool)
  /-- MNT_FUSE_REVOKE (R658). -/
  | mntFuseRevoke (r : Req) (readBackOk : Bool)
  /-- MNT_FUSE_POLICY (R658). -/
  | mntFusePolicy (r : Req) (readBackOk : Bool)
  /-- MNT_FUSE_SAFETY (R473). -/
  | mntFuseSafety (r : Req) (readBackOk : Bool)
  /-- MNT_FUSE_ROLLBACK (R658). -/
  | mntFuseRollback (r : Req) (readBackOk : Bool)
  /-- MNT_LOG_CLEAR_RECORDS (R84). -/
  | mntLogClearRecords (r : Req)
  /-- MNT_LOG_CLEAR_START_FAILURES (R84). -/
  | mntLogClearStartFailures (r : Req)
  /-- MNT_LOG_CLEAR_WEAR (R84). -/
  | mntLogClearWear (r : Req)
  /-- MNT_LOG_CLEAR_AGEING (R84). -/
  | mntLogClearAgeing (r : Req)
  /-- MNT_RESET (R80). -/
  | mntReset (r : Req)
  /-- DIA_SELFTEST_QUERY (R523). -/
  | diaSelftestQuery (r : Req)
  /-- DIA_SELFTEST_RUN (R523). -/
  | diaSelftestRun (r : Req) (outcome : Fin 3) (chPass : BitVec 16) (cmpPass : Byte)
  /-- DIA_SELFTEST_STATUS_CLR (R520). -/
  | diaSelftestStatusClr (r : Req)
  /-- DIA_TRACE_ARM (R89). -/
  | diaTraceArm (r : Req)
  /-- DIA_TRACE_STOP (R89). -/
  | diaTraceStop (r : Req)
  /-- DIA_TRACE_READ (R89). -/
  | diaTraceRead (r : Req)
  /-- DIA_TRACE_STATUS (R89). -/
  | diaTraceStatus (r : Req)
  /-- DIA_INJECT (R90). -/
  | diaInject (r : Req) (reactNs : W32)
  /-- DIA_AGEING_QUERY (R553). -/
  | diaAgeingQuery (r : Req)
  /-- DIA_AGEING_REPLAN (R546). -/
  | diaAgeingReplan (r : Req)
  /-- DIA_AGEING_HISTORY (R553). -/
  | diaAgeingHistory (r : Req)
  /-- DIA_AGEING_STATUS_CLR (R553). -/
  | diaAgeingStatusClr (r : Req)
  /-- RESET_RELEASE (R672). -/
  | resetRelease
  /-- NODE_ID_DELAY_EXPIRY (R100). -/
  | nodeIdDelayExpiry
  /-- START_SEQUENCER_STEP (R102). -/
  | startSequencerStep (railsOk : Bool)
  /-- PLL_LOCK_DEADLINE (R692). -/
  | pllLockDeadline (locked : Bool)
  /-- BOOT_ROM_START (R648). -/
  | bootRomStart (f : BootFinds)
  /-- STANDBY_ENTRY (R95). -/
  | standbyEntry
  /-- START_TIMEOUT (R103). -/
  | startTimeout
  /-- RESET_INPUT (R673). -/
  | resetInput (lowNs : Nat)
  /-- SUPPLY_LOSS (R538). -/
  | supplyLoss (aonToo : Bool)
  /-- STOP_RAMP_COMPLETE (R109). -/
  | stopRampComplete
  /-- STOP_OVERDUE (R110). -/
  | stopOverdue
  /-- NOP (R119). -/
  | opNop (c : CellSel) (w : W64)
  /-- WAIT (R119). -/
  | opWait (c : CellSel) (w : W64)
  /-- END (R119). -/
  | opEnd (c : CellSel) (w : W64)
  /-- LDACC (R119). -/
  | opLdacc (c : CellSel) (w : W64)
  /-- MUL (R114). -/
  | opMul (c : CellSel) (w : W64)
  /-- MAC (R114). -/
  | opMac (c : CellSel) (w : W64)
  /-- MSU (R114). -/
  | opMsu (c : CellSel) (w : W64)
  /-- RND (R115). -/
  | opRnd (c : CellSel) (w : W64)
  /-- ADD (R119). -/
  | opAdd (c : CellSel) (w : W64)
  /-- SUB (R119). -/
  | opSub (c : CellSel) (w : W64)
  /-- NEG (R116). -/
  | opNeg (c : CellSel) (w : W64)
  /-- ABS (R116). -/
  | opAbs (c : CellSel) (w : W64)
  /-- MIN (R119). -/
  | opMin (c : CellSel) (w : W64)
  /-- MAX (R119). -/
  | opMax (c : CellSel) (w : W64)
  /-- LIM (R119). -/
  | opLim (c : CellSel) (w : W64)
  /-- SHL (R119). -/
  | opShl (c : CellSel) (w : W64)
  /-- SHR (R119). -/
  | opShr (c : CellSel) (w : W64)
  /-- CMPLT (R119). -/
  | opCmplt (c : CellSel) (w : W64)
  /-- CMPGE (R119). -/
  | opCmpge (c : CellSel) (w : W64)
  /-- CMPEQ (R119). -/
  | opCmpeq (c : CellSel) (w : W64)
  /-- SEL (R119). -/
  | opSel (c : CellSel) (w : W64)
  /-- AND (R119). -/
  | opAnd (c : CellSel) (w : W64)
  /-- OR (R119). -/
  | opOr (c : CellSel) (w : W64)
  /-- XOR (R119). -/
  | opXor (c : CellSel) (w : W64)
  /-- SINCOS (R119). -/
  | opSincos (c : CellSel) (w : W64)
  /-- ATAN2 (R119). -/
  | opAtan2 (c : CellSel) (w : W64)
  /-- DIV (R119). -/
  | opDiv (c : CellSel) (w : W64)
  /-- SQRT (R119). -/
  | opSqrt (c : CellSel) (w : W64)
  /-- LUT (R119). -/
  | opLut (c : CellSel) (w : W64)
  /-- LDC (R119). -/
  | opLdc (c : CellSel) (w : W64)
  /-- LD (R119). -/
  | opLd (c : CellSel) (w : W64)
  /-- ST (R119). -/
  | opSt (c : CellSel) (w : W64)
  /-- PUT (R123). -/
  | opPut (c : CellSel) (w : W64)
  /-- GET (R123). -/
  | opGet (c : CellSel) (w : W64)
  /-- WCMP (R124). -/
  | opWcmp (c : CellSel) (w : W64)
  /-- LDALL (R346). -/
  | opLdall (c : CellSel) (w : W64)
  /-- FLAG (R125). -/
  | opFlag (c : CellSel) (w : W64)
  /-- CONTEXT_RELEASE (R137). -/
  | contextRelease (c : Fin 160) (late : List Nat)
  /-- PREEMPTION (R122). -/
  | preemption (by_ : Fin 160) (at_ : CellSel)
  /-- CONTEXT_COMPLETION (R149). -/
  | contextCompletion (c : Fin 160)
  /-- WATCHDOG_DEADLINE (R154). -/
  | watchdogDeadline (c : Fin 160)
  /-- CELL_PARITY_ERROR (R22). -/
  | cellParityError (b : Fin 16) (cell : Fin 16) (second : Option (Fin 16))
  /-- COEF_ECC_ERROR (R27). -/
  | coefEccError (b : Fin 16) (a : Fin 8192) (double : Bool) (readers : List (Fin 160))
  /-- OPMEM_ECC_ERROR (R129). -/
  | opmemEccError (b : Fin 16) (a : Fin 4096) (double : Bool) (readers : List (Fin 160))
  /-- REGION_MEMORY_ECC_ERROR (R141). -/
  | regionMemoryEccError (g : Fin 4) (a : Fin 32768) (double : Bool) (readers : List (Fin 160))
  /-- CELL_SWITCH (R132). -/
  | cellSwitch (b : Fin 16) (k : Fin 15)
  /-- CELL_SWITCH_ABANDON (R132). -/
  | cellSwitchAbandon (b : Fin 16) (k : Fin 15)
  /-- CATCH_DETECT_END (R241). -/
  | catchDetectEnd (m : Fin 2) (ns : Nat)
  /-- ALIGN_END (R242). -/
  | alignEnd (m : Fin 2)
  /-- SEQUENCE_TRIGGER (R266). -/
  | sequenceTrigger (g : Fin 4)
  /-- INJECTED_TRIGGER (R268). -/
  | injectedTrigger (g : Fin 4) (j : Fin 4)
  /-- RUN_HOLD (R260). -/
  | runHold (g : Fin 4)
  /-- CONVERSION_COMPLETE (R262). -/
  | conversionComplete (g : Fin 4) (inj : Bool) (idx : Fin 64) (code : W18) (ovr : Bool)
  /-- CALIBRATION_START (R276). -/
  | calibrationStart (g : Fin 4)
  /-- CALIBRATION_COMPLETE (R278). -/
  | calibrationComplete (g : Fin 4) (inBand : Bool)
  /-- DSM_RESULT (R285). -/
  | dsmResult (i : Fin 12) (sum : Int)
  /-- DSM_DELIVERY (R287). -/
  | dsmDelivery (i : Fin 12)
  /-- DSM_FAST_TRIP (R288). -/
  | dsmFastTrip (i : Fin 12) (outs : List Int)
  /-- DSM_STUCK (R289). -/
  | dsmStuck (i : Fin 12)
  /-- RESOLVER_SAMPLE (R300). -/
  | resolverSample (u : Fin 2) (s : W18) (c : W18) (negPeak : Bool)
  /-- ENCODER_COUNT_STEP (R303). -/
  | encoderCountStep (e : Fin 4) (up : Bool) (both : Bool)
  /-- INDEX_EDGE (R307). -/
  | indexEdge (e : Fin 4) (falling : Bool) (aLevel : Bool) (bLevel : Bool)
  /-- ENC_LINE (R309). -/
  | encLine (e : Fin 4)
  /-- HALL_CHANGE (R316). -/
  | hallChange (h : Fin 2) (lines : BitVec 3)
  /-- OBSERVER_UPDATE (R318). -/
  | observerUpdate (o : Fin 4)
  /-- OBSERVER_LATCH (R296). -/
  | observerLatch (o : Fin 4) (dtNs : Nat)
  /-- PLAUSIBILITY_CHECK (R325). -/
  | plausibilityCheck (p : Fin 2)
  /-- PWM_RELOAD (R346). -/
  | pwmReload (u : Fin 6) (peak : Bool)
  /-- SAMPLE_TRIGGER (R351). -/
  | sampleTrigger (u : Fin 6) (peak : Bool)
  /-- AUX_EVENT (R362). -/
  | auxEvent (m : Fin 8)
  /-- OVERLAP_LOCKOUT (R355). -/
  | overlapLockout (u : Fin 6)
  /-- CBC_CUTOFF (R364). -/
  | cbcCutoff (u : Fin 6) (line : Fin 4) (ofs : Fin 52)
  /-- DEBUG_HALT (R505). -/
  | debugHalt
  /-- DEBUG_RESUME (R506). -/
  | debugResume
  /-- DEBUG_REQUEST (R661). -/
  | debugRequest (rights : BitVec 2) (slot : Fin 4) (challenge : List Byte) (sig : List Byte)
  /-- SCAN_ENTRY (R524). -/
  | scanEntry
  /-- DRIVER_LOCKOUT (R391). -/
  | driverLockout (ch : Fin 16) (negRail : Bool)
  /-- LOCKOUT_RELEASE (R391). -/
  | lockoutRelease (ch : Fin 16)
  /-- EARLY_WARNING (R393). -/
  | earlyWarning (ch : Fin 16)
  /-- DESATURATION (R396). -/
  | desaturation (ch : Fin 16)
  /-- SOFT_TURNOFF_END (R396). -/
  | softTurnoffEnd (ch : Fin 16)
  /-- CROSSCHECK_REFUSAL (R400). -/
  | crosscheckRefusal (ch : Fin 16)
  /-- DRIVER_LINK_SILENCE (R384). -/
  | driverLinkSilence (ch : Fin 16)
  /-- GDV_LINK (R384). -/
  | gdvLink (ch : Fin 16)
  /-- ON_STATE_SAMPLE (R401). -/
  | onStateSample (ch : Fin 16) (vsns : BitVec 12)
  /-- INDICATOR_UPDATE (R402). -/
  | indicatorUpdate (ch : Fin 16)
  /-- OVERVOLTAGE_TRIP (R424). -/
  | overvoltageTrip (volts : Nat)
  /-- UNDERVOLTAGE_TRIP (R426). -/
  | undervoltageTrip (volts : Nat)
  /-- LEG_REJOIN (R419). -/
  | legRejoin (leg : Fin 6)
  /-- CHOPPER_SWITCHING (R428). -/
  | chopperSwitching (volts : Nat)
  /-- CHOPPER_FAULT (R430). -/
  | chopperFault (cause : ChopCause)
  /-- DISCHARGE_SWITCH_ON (R437). -/
  | dischargeSwitchOn
  /-- DISCHARGE_DONE (R437). -/
  | dischargeDone (volts : Nat)
  /-- DISCHARGE_TIMEOUT (R437). -/
  | dischargeTimeout
  /-- DISCHARGE_NOT_FALLING (R437). -/
  | dischargeNotFalling
  /-- SAFETY_INPUT_CHANGE (R453). -/
  | safetyInputChange (p : Fin 4) (chanB : Bool) (mv : Nat)
  /-- DISCREPANCY_TIMEOUT (R455). -/
  | discrepancyTimeout (p : Fin 4)
  /-- SPEED_COUNTER_SAMPLE (R459). -/
  | speedCounterSample (m : Fin 2) (net : Int) (count : Int)
  /-- SPEED_SOURCE_ILLEGAL (R458). -/
  | speedSourceIllegal (m : Fin 2)
  /-- SPEED_CROSS_CHECK (R459). -/
  | speedCrossCheck (m : Fin 2)
  /-- SMAX_SOFTWARE_CHECK (R474). -/
  | smaxSoftwareCheck (m : Fin 2)
  /-- BLACKTHORN_COMPARATOR_TRIP (R465). -/
  | blackthornComparatorTrip (n : Fin 8) (level : Nat)
  /-- LATCH_SELF_CLEAR (R449). -/
  | latchSelfClear (m : Fin 2) (cause : BlkCause)
  /-- TORQUE_MONITOR_CHECK (R468): `own` is T_MON of the monitor's own rotor-flux model, for an induction machine (R466). -/
  | torqueMonitorCheck (m : Fin 2) (own : W18)
  /-- MONITOR_STOP_TIMEOUT (R469). -/
  | monitorStopTimeout
  /-- QA_QUESTION (R471). -/
  | qaQuestion (q : Byte)
  /-- QA_ANSWER (R471). -/
  | qaAnswer (words : List W32) (cycles : Nat)
  /-- QA_WINDOW_EXPIRY (R471). -/
  | qaWindowExpiry
  /-- SACK_PULSE (R479). -/
  | sackPulse (ms : Nat)
  /-- REFERENCE_CLOCK_WINDOW (R37). -/
  | referenceClockWindow (edges : Nat)
  /-- LOCKSTEP_MISMATCH (R490). -/
  | lockstepMismatch (kind : Fin 6) (group : Byte) (offset : W32)
  /-- CHECKPOINT_RESTART (R490). -/
  | checkpointRestart
  /-- CHECKPOINT_SEAL (R488). -/
  | checkpointSeal
  /-- CORE1_PARTITION_VIOLATION (R502). -/
  | core1PartitionViolation (a : W32)
  /-- PRUNER_SLICE_START (R516). -/
  | prunerSliceStart (kind : Fin 7) (unit : Fin 20)
  /-- PRUNER_SLICE_ABORT (R517). -/
  | prunerSliceAbort (kind : Fin 7) (unit : Fin 20)
  /-- PRUNER_SLICE_COMPLETE (R519). -/
  | prunerSliceComplete (kind : Fin 7) (unit : Fin 20) (pass : Bool)
  /-- PRN_OVERDUE (R518). -/
  | prnOverdue (kind : Fin 7) (unit : Fin 20)
  /-- SENSOR_WINDOW (R527). -/
  | sensorWindow (n : Fin 32) (count : Nat) (reading : Int)
  /-- THERMAL_LINE_RELEASE (R534). -/
  | thermalLineRelease
  /-- THROTTLE_EVALUATION (R531). -/
  | throttleEvaluation
  /-- RAIL_OUT_OF_WINDOW (R537). -/
  | railOutOfWindow (rail : Fin 7) (outside : Bool)
  /-- DROOP_DETECT (R540). -/
  | droopDetect (level : Nat)
  /-- DROOP_END (R540). -/
  | droopEnd
  /-- DROOP_BUDGET_EXHAUSTED (R541). -/
  | droopBudgetExhausted
  /-- PLL_LOCK_LOSS (R542). -/
  | pllLockLoss
  /-- REFERENCE_COUNT_WINDOW (R542). -/
  | referenceCountWindow (edges : Nat)
  /-- CANARY_MEASUREMENT (R543). -/
  | canaryMeasurement (site : Fin 10) (taps : Nat)
  /-- DAILY_REPLAN (R546). -/
  | dailyReplan
  /-- OPERATING_HOURS_SAVE (R545). -/
  | operatingHoursSave
  /-- CAN_FRAME_RECEIVED (R563). -/
  | canFrameReceived (c : Fin 4) (f : CanFrame)
  /-- CAN_LOCK_RELEASE (R569). -/
  | canLockRelease (c : Fin 4) (o : Fin 128) (by_ : CanReader)
  /-- CAN_LOCK_TIMEOUT (R569). -/
  | canLockTimeout (c : Fin 4) (o : Fin 128)
  /-- CAN_TX_ATTEMPT_END (R565). -/
  | canTxAttemptEnd (c : Fin 4) (o : Fin 128) (how : TxEnd)
  /-- CAN_PERIOD_REQUEST (R566). -/
  | canPeriodRequest (c : Fin 4) (o : Fin 128)
  /-- CAN_ERROR_DETECTED (R573). -/
  | canErrorDetected (c : Fin 4) (e : CanErr) (bitErr : Bool)
  /-- CAN_BUSOFF_RECOVERY (R573). -/
  | canBusoffRecovery (c : Fin 4)
  /-- CAN_MESSAGE_WORD_TIMEOUT (R570). -/
  | canMessageWordTimeout (c : Fin 4) (o : Fin 128)
  /-- CAN_COMPLETION_SEND (R574). -/
  | canCompletionSend (c : Fin 4)
  /-- CAN_COMPLETION_RETRY (R574). -/
  | canCompletionRetry (c : Fin 4)
  /-- ADEXIA_FRAME_RECEIVED (R581). -/
  | adexiaFrameReceived (p : Fin 2) (f : EthFrame)
  /-- MISSING_DUPLICATE_TIMEOUT (R582). -/
  | missingDuplicateTimeout (p : Fin 2)
  /-- ADEXIA_MSG_TIMEOUT (R589). -/
  | adexiaMsgTimeout (k : Fin 8)
  /-- CPL_FRAME_SEND (R590). -/
  | cplFrameSend
  /-- SUPERVISION_SEND (R580). -/
  | supervisionSend
  /-- PORT_LINK_CHANGE (R579). -/
  | portLinkChange (p : Fin 2) (up : Bool)
  /-- PTP_SYNC_MEASUREMENT (R599). -/
  | ptpSyncMeasurement (p : Fin 2) (m : Int) (timInc : BitVec 40) (gm : W64)
  /-- SYNC_TIMEOUT (R600). -/
  | syncTimeout (otherAlive : Bool)
  /-- ONE_SHOT_OFFSET_APPLY (R593). -/
  | oneShotOffsetApply
  /-- ALLOC_CYCLE_INSTANT (R613). -/
  | allocCycleInstant
  /-- ALLOC_LATCH (R613). -/
  | allocLatch
  /-- STATE_COPY_SEND (R626). -/
  | stateCopySend
  /-- STATE_COPY_RECEIVED (R627). -/
  | stateCopyReceived (copy : List Byte)
  /-- PAIR_LINK_TIMEOUT (R627). -/
  | pairLinkTimeout
  /-- ARBITER_STARTUP_APPOINT (R625). -/
  | arbiterStartupAppoint
  /-- CARRIER_VALLEY (R355). -/
  | carrierValley (u : Fin 6) (err : Int)
  /-- LINK_ACTIVITY_RESUMED (R384). -/
  | linkActivityResumed (ch : Fin 16)
  /-- ENC_LINE_CLEAR (R309). -/
  | encLineClear (e : Fin 4)
  /-- EARLY_WARNING_CLEAR (R393). -/
  | earlyWarningClear (ch : Fin 16)
  /-- PROTOCOL_EXCEPTION (R556). -/
  | protocolException (c : Fin 4)
  /-- PTP_SYNC_INTERVAL (R597). -/
  | ptpSyncInterval (p : Fin 2)
  deriving DecidableEq, Repr

end Sys2Proof
end

