-- ==== Sys2Proof/Config.lean ====
section
/-! DEFINITION. What an implementation fixes and the spec leaves open: free values without a body, so that no proof can
rest on what they are. -/

namespace Sys2Proof

/-- A free value: the `n`-th value that the spec leaves undefined (log entry 2). -/
opaque Config.freeNat : Nat → Nat

/-- Worst-case cost in ns of a descriptor with an opcode, a LEN and selector bytes in the running firmware (R67,
R691): implementation-defined. -/
opaque Config.rawCost : Nat → Nat → List (BitVec 8) → Nat

/-- Completion entries that the running firmware allows the constants of a context's law instances (R62, R86), less one:
implementation-defined. -/
opaque Config.lawEntries : Nat → Nat

/-- HP_ID.STEP: the stepping of the controller die (R45): implementation-defined. -/
opaque Config.dieStep : BitVec 8

/-- Blackthorn's table of the four answer words to each question (R471), which the spec does not give. -/
opaque Config.qaTable : BitVec 8 → List (BitVec 32)

/-- SERIAL, the seed of the device identity key and Lanreic's endorsement (R657, R659). -/
opaque Config.serial : BitVec 64
opaque Config.identitySeed : List (BitVec 8)
opaque Config.endorsement : List (BitVec 8)

/-- The key that Lanreic wrote into slot 0 (R657), and VERSION, SVN and DIGEST of the firmware image that Lanreic shipped in
bank A. -/
opaque Config.factoryKey : List (BitVec 8)
opaque Config.factoryVersion : BitVec 32
opaque Config.factorySvn : Nat
opaque Config.factoryDigest : List (BitVec 8)

end Sys2Proof
end

