-- ==== Sys2Proof/Machine/Bits.lean ====
section
/-! DEFINITION. Bit fields, bytes, saturation and rounding: the helpers every chapter's meaning uses. -/

namespace Sys2Proof.Machine

/-- Field [hi:lo] of a word as a number. -/
def fld {n : Nat} (w : BitVec n) (hi lo : Nat) : Nat := (w.toNat >>> lo) % 2 ^ (hi + 1 - lo)

/-- The word with field [hi:lo] set to `v` (modulo the field's width). -/
def setFld {n : Nat} (w : BitVec n) (hi lo v : Nat) : BitVec n :=
  (w &&& ~~~(BitVec.ofNat n ((2 ^ (hi + 1 - lo) - 1) <<< lo))) ||| BitVec.ofNat n ((v % 2 ^ (hi + 1 - lo)) <<< lo)

/-- Bit `i` of a word. -/
def bit {n : Nat} (w : BitVec n) (i : Nat) : Bool := w.getLsbD i

/-- The word with bit `i` set to `b`. -/
def setBit {n : Nat} (w : BitVec n) (i : Nat) (b : Bool) : BitVec n :=
  if b then w ||| BitVec.ofNat n (1 <<< i) else w &&& ~~~(BitVec.ofNat n (1 <<< i))

/-- Field [hi:lo] counted up by one, saturating at its largest value. -/
def incSat {n : Nat} (w : BitVec n) (hi lo : Nat) : BitVec n :=
  if fld w hi lo = 2 ^ (hi + 1 - lo) - 1 then w else setFld w hi lo (fld w hi lo + 1)

/-- A count that stops at `m`. -/
def satInc (m k : Nat) : Nat := if k < m then k + 1 else m

/-- 1 for true. -/
def b2n (b : Bool) : Nat := if b then 1 else 0

/-- Byte `i` of a list, 0 past its end. -/
def byteAt (l : List Byte) (i : Nat) : Nat := (l.getD i 0).toNat

/-- The `n` bytes from `i` on as a little-endian number (R7). -/
def leNat (l : List Byte) (i : Nat) : Nat → Nat
  | 0 => 0
  | n + 1 => byteAt l i + 256 * leNat l (i + 1) n

/-- The `n` bytes from `i` on as a big-endian number. -/
def beNat (l : List Byte) (i n : Nat) : Nat :=
  (List.range n).foldl (fun a k => a * 256 + byteAt l (i + k)) 0

/-- A number as `n` bytes, little-endian (R7). -/
def leBytes : Nat → Nat → List Byte
  | 0, _ => []
  | n + 1, v => BitVec.ofNat 8 v :: leBytes n (v / 256)

/-- A word of four bytes, and one of eight. -/
def word4 (w : W32) : List Byte := leBytes 4 w.toNat
def word8 (w : W64) : List Byte := leBytes 8 w.toNat

/-- A signed count in `n` bytes. -/
def intBytes (n : Nat) (v : Int) : List Byte := leBytes n (BitVec.ofInt (8 * n) v).toNat

/-- A number as `n` bytes, most significant first. -/
def beBytes (n v : Nat) : List Byte := (leBytes n v).reverse

/-- A list cut or filled with zeros to `n` bytes. -/
def padTo (n : Nat) (l : List Byte) : List Byte := (l ++ List.replicate (n - l.length) 0).take n

/-- A 18-bit word as a signed count. -/
def s18 (w : W18) : Int := w.toInt

/-- A signed count as an 18-bit word. -/
def w18 (v : Int) : W18 := BitVec.ofInt 18 v

/-- The largest word (R116). -/
def full18 : Int := 131071

/-- A value brought into -131,072 to 131,071 (R116). -/
def sat18 (v : Int) : Int := if v > 131071 then 131071 else if v < -131072 then -131072 else v

/-- Whether `sat18` changes the value, so that SAT is set (R116). -/
def sats18 (v : Int) : Bool := decide (sat18 v ≠ v)

/-- A value brought into lo to hi. -/
def clampI (lo hi v : Int) : Int := if v > hi then hi else if v < lo then lo else v

/-- `a / b` rounded to the nearest integer, ties away from zero (R115), for `b > 0`. -/
def rndDiv (a b : Int) : Int :=
  if 0 ≤ a then (2 * a + b) / (2 * b) else -((2 * (-a) + b) / (2 * b))

/-- `a / b` rounded, for any `b ≠ 0`. -/
def rndQuot (a b : Int) : Int := if 0 < b then rndDiv a b else rndDiv (-a) (-b)

/-- A rational rounded to the nearest integer, ties away from zero. -/
def rndRat (q : Rat) : Int := rndDiv q.num (Int.ofNat q.den)

/-- An 18-bit field of a 32-bit payload word whose [31:18] must equal bit 17 (R159): the value, if well formed. -/
def sext18? (v : Nat) : Option W18 :=
  let w : W18 := BitVec.ofNat 18 v
  if v = (BitVec.signExtend 32 w).toNat then some w else none

/-- An 18-bit word sign-extended to 32 bits. -/
def ext18 (w : W18) : Nat := (BitVec.signExtend 32 w).toNat

/-- A binary32 word as an exact rational; none for infinities and NaN (R143, R297). -/
def f32Rat (w : W32) : Option Rat :=
  let e := fld w 30 23
  let m := fld w 22 0
  let mag : Rat :=
    if e = 0 then (m : Rat) / (2 ^ 149 : Nat)
    else if e ≥ 150 then ((2 ^ 23 + m) * 2 ^ (e - 150) : Nat) else ((2 ^ 23 + m : Nat) : Rat) / (2 ^ (150 - e) : Nat)
  if e = 255 then none else some (if bit w 31 then -mag else mag)

/-- Exponent of the binary32 number of a positive rational: the largest e with 2^e at most q, found from the lengths
of numerator and denominator. -/
def ratExp (q : Rat) : Int :=
  let k : Int := (Nat.log2 q.num.natAbs : Int) - (Nat.log2 q.den : Int)
  let ge (e : Int) : Bool :=
    if 0 ≤ e then decide (q.den * 2 ^ e.toNat ≤ q.num.natAbs) else decide (q.den ≤ q.num.natAbs * 2 ^ (-e).toNat)
  if ge k then k else k - 1

/-- The binary32 number nearest to a rational, ties to even; overflow gives infinity. -/
def ratF32 (q : Rat) : W32 :=
  if q.num = 0 then 0 else
    let s : Nat := if q.num < 0 then 1 else 0
    let a : Rat := if q.num < 0 then -q else q
    let e : Int := max (ratExp a) (-126)
    let sh : Int := 23 - e
    let n : Nat := if 0 ≤ sh then a.num.natAbs * 2 ^ sh.toNat else a.num.natAbs
    let d : Nat := if 0 ≤ sh then a.den else a.den * 2 ^ (-sh).toNat
    let f := n / d
    let m := if 2 * (n % d) > d || (2 * (n % d) == d && f % 2 == 1) then f + 1 else f
    let biased : Int := e + 127
    let v : Nat := if m < 2 ^ 23 then m else (biased.toNat - 1) * 2 ^ 23 + m
    BitVec.ofNat 32 (s * 2 ^ 31 + min v (255 * 2 ^ 23))

end Sys2Proof.Machine
end

