-- ==== Sys2Proof/Machine/State/Acq.lean ====
section
/-! DEFINITION. State of the converters and the delta-sigma inputs (chapter 08). -/

namespace Sys2Proof.Machine

/-- What a group has held and not yet converted: entry indices of the sequence run or one injected entry, the hold instant
in CLK_PWM cycles, and whether a calibration was in progress. -/
structure Held where
  inj : Bool := false
  idx : List Nat := []
  tsamp : Nat := 0
  cal : Bool := false
  /-- The hold was direct (R259). -/
  direct : Bool := false
  deriving DecidableEq, Repr, Inhabited

/-- A converter group (R249 to R281). -/
structure AcqGroup where
  gcfg : W32 := 0
  seq : Tab 64 W64 := Vector.replicate 64 0
  inj : Tab 4 W64 := Vector.replicate 4 0
  scale : Tab 68 W64 := Vector.replicate 68 0x1FFFF
  /-- A configuration that waits for the next conversion boundary (R258). -/
  next : Option (W32 × Tab 64 W64 × Tab 4 W64) := none
  /-- ACQ_GSTAT[31:16] and [4:0] at their own positions. -/
  stat : W32 := 0
  /-- Result table: word 0 and tag of sequence entries 0 to 63 and of J0 to J3 (R272). -/
  results : Tab 68 (W32 × W32) := Vector.replicate 68 (0, 0)
  /-- The entries as they stood at the conversion boundary that ended their last run: what telemetry copies (R272). -/
  shown : Tab 68 (W32 × W32) := Vector.replicate 68 (0, 0)
  /-- Consumed sequence triggers, modulo 256 (R274). -/
  seqCount : Byte := 0
  /-- Entry that runs, or waits, next; repetitions of its run done; whether its WAIT has been met. -/
  pos : Nat := 0
  rep : Nat := 0
  started : Bool := false
  pend : Bool := false
  jpend : BitVec 4 := 0
  /-- The CLK_ACQ cycle in which a sequence trigger started the waiting entry, until its hold; the run then holds before the
  pending injected entries, one of which reached the idle group in that cycle (R269). -/
  startAt : Option Nat := none
  first : Bool := false
  held : Option Held := none
  /-- A calibration has been asked for, is in progress; coefficient sets taken since reset (R275, R276). -/
  calDue : Bool := false
  calBusy : Bool := false
  calGen : Nat := 0
  /-- A Pruner slice is in progress on the group, so that it takes no trigger (R516). -/
  test : Bool := false
  deriving DecidableEq, Repr, Inhabited

/-- A delta-sigma input (R284 to R290). -/
structure Dsm where
  cfg : W64 := 0
  fth : W64 := 0x0000_0007_FFFE_0000
  scale : W64 := 0x1FFFF
  stat : Byte := 0
  /-- Latest result entry (R286). -/
  word0 : W32 := 0
  word1 : W32 := 0
  /-- Results that still carry SETTLE (R285). -/
  settle : Nat := 0
  /-- Consecutive outputs beyond a threshold (R288). -/
  count : Nat := 0
  /-- The latest sinc2 output of the fast path (R288). -/
  fast : Int := 0
  /-- The data input is stuck now (R289). -/
  stuck : Bool := false
  seq : Byte := 0
  deriving DecidableEq, Repr, Inhabited

/-- The acquisition front ends. -/
structure Acq where
  groups : Tab 4 AcqGroup := Vector.replicate 4 {}
  clks : Tab 4 W32 := Vector.replicate 4 8
  dsm : Tab 12 Dsm := Vector.replicate 12 {}
  deriving DecidableEq, Repr, Inhabited

end Sys2Proof.Machine
end

