-- ==== Sys2Proof/Machine/State/Adx.lean ====
section
/-! DEFINITION. State of Adexia, of the time synchronisation (chapter 18), and of torque allocation (chapter 19). -/

namespace Sys2Proof.Machine

/-- A source in the node table (R582): the highest sequence number accepted, the accepted numbers among the 63 below it, and
the instants of the acceptances of the last 400 ms, as sequence number, instant and port. -/
structure NodeEnt where
  mac : BitVec 48 := 0
  hi : Nat := 0
  below : BitVec 63 := 0
  recent : List (Nat × Nat × Nat) := []
  seen : Nat := 0
  deriving DecidableEq, Repr, Inhabited

/-- A port's counters (R606, R607); `flags` is ADX_PSTAT[3:0]. `missAt` holds the instants of the missing frames of the last
second, newest first, at most 256. -/
structure AdxPort where
  link : Bool := false
  flags : BitVec 4 := 0
  missAt : List Nat := []
  drop : Nat := 0
  accepted : W32 := 0
  dup : W32 := 0
  oow : W32 := 0
  bad : W32 := 0
  /-- Frames that wait for their duplicate on the other port: source, sequence number and instant of acceptance (R582). -/
  awaited : List (BitVec 48 × Nat × Nat) := []
  /-- MSG and CMD frames taken in the present window of 1 ms, and that window's number (R588). -/
  taken : Nat := 0
  window : Nat := 0
  /-- Ingress timestamp of the last PTP event message, in ns of the local clock (R598). -/
  rxStamp : Option Int := none
  deriving DecidableEq, Repr, Inhabited

/-- A frame that the module has sent: the ports it left on, its class, destination, payload and PRP sequence number (none for a
PTP frame), and the egress timestamp of a PTP event message (R598). -/
structure SentFrame where
  ports : List Nat
  cls : Nat
  dst : BitVec 48
  body : List Byte
  seq : Option Nat
  stamp : Option Int := none
  deriving DecidableEq, Repr, Inhabited

/-- Adexia and the time synchronisation. -/
structure Adx where
  ctrl : W64 := 0x6000_445A_8002_0000
  /-- An ADX_CTRL that waits for the next cycle instant (R602). -/
  ctrlNext : Option W64 := none
  mw : Tab 8 W32 := Vector.replicate 8 0
  tcfg : W64 := 0x1FFA_3200_0000_0000
  tlat : W64 := 0
  epoch : BitVec 48 := 0
  ports : Tab 2 AdxPort := Vector.replicate 2 {}
  table : List NodeEnt := []
  /-- ADX_STAT[3:0]. -/
  stat : BitVec 4 := 0
  /-- PRP sequence number of the next frame, and the frames of the last sending, in order. -/
  seq : W16 := 0
  sent : List SentFrame := []
  /-- SYNC, GM, SPORT, STEPPED, SYNCLOSS and OFS of TIM_STAT, consecutive measurements within the limit, and the grandmaster's
  identity. -/
  sync : Bool := false
  gm : Bool := false
  sport : Nat := 3
  stepped : Bool := false
  syncLoss : Bool := false
  ofs : Int := 0
  good : Nat := 0
  gmId : W64 := 0
  deriving DecidableEq, Repr, Inhabited

/-- The REPORT section of a node's ALLOC frame (R612). -/
structure Report where
  node : Nat
  cycle : W32
  capp : W32
  capn : W32
  avail : Bool
  ready : Bool
  retreq : Bool
  deriving DecidableEq, Repr, Inhabited

/-- An ALLOC section (R612). -/
structure AllocSec where
  node : Nat
  cycle : W32
  epoch : W32
  u : W18
  d : W32
  incl : BitVec 1024
  deriving DecidableEq, Repr, Inhabited

/-- An ARB section (R612). -/
structure ArbSec where
  node : Nat
  epoch : W32
  coord : Nat
  stby : Nat
  deriving DecidableEq, Repr, Inhabited

/-- Torque allocation (R609 to R633). -/
structure Crd where
  cfg : W64 := 0x1800_0000_0080_4000
  par : W64 := 0
  dmax : W32 := 0
  kg : Tab 2 W32 := Vector.replicate 2 0
  /-- CYCLE of the last cycle instant (R612). -/
  cycle : W32 := 0
  /-- The highest epoch seen since reset (R621). -/
  epoch : W32 := 0
  /-- CRD_STAT[6:1] at their own positions. -/
  flags : BitVec 7 := 0
  gap : Nat := 0
  noAlloc : Bool := false
  short : Bool := false
  /-- Sections received that no latch has taken, and the REPORTs that the last latch took. -/
  reports : List Report := []
  before : List Report := []
  allocs : List AllocSec := []
  /-- The ARB section of the highest epoch received (R623), the number of latches since one named this module, at most 3, and
  whether one has come since the last latch. -/
  arb : Option ArbSec := none
  sinceNamed : Nat := 3
  namedNow : Bool := false
  arbSeen : Bool := false
  /-- The highest epoch of an ALLOC section received from another node (R623). -/
  allocEpoch : W32 := 0
  /-- This module sends ALLOC sections, and the epoch of its appointment (R623). -/
  sending : Bool := false
  ownEpoch : W32 := 0
  /-- FENCED has been set for the stop at the next instant. -/
  leaving : Bool := false
  /-- The state copy last sent over the pair link (R626). -/
  copySent : List Byte := []
  /-- U, D, SP, SN and the included members of the last split or allocation (R616, R633). -/
  u : W18 := 0
  d : W32 := 0
  sp : W32 := 0
  sn : W32 := 0
  incl : BitVec 1024 := 0
  /-- Capabilities that the member reported, per machine: of the present cycle and of the one before (R615, R617). -/
  cap : Tab 2 (W32 × W32) := Vector.replicate 2 (0, 0)
  capBefore : Tab 2 (W32 × W32) := Vector.replicate 2 (0, 0)
  /-- The highest epoch of an applied ALLOC section and the node it came from (R622). -/
  applied : Option (W32 × Nat) := none
  /-- Sections discarded for an epoch below the highest applied one (R622). -/
  stale : Nat := 0
  /-- Standby: the last intact copy, its cycle, the cycle before it if that copy came too, and the intact copies in a row (R627,
  R628). -/
  copy : Option AllocSec := none
  copyPrev : Bool := false
  copies : Nat := 0
  /-- Arbiter: cycles since reset up to 10, the present appointment (coordinator and standby), misses in a row, whether the coordinator
  has been declared failed, and an appointment due at the next instant (R624, R625, R628). -/
  startCycles : Nat := 0
  appointed : Option (Nat × Nat) := none
  misses : Nat := 0
  failed : Bool := false
  toAppoint : Option (Nat × Nat) := none
  deriving DecidableEq, Repr, Inhabited

end Sys2Proof.Machine
end

