-- ==== Sys2Proof/Machine/State/Icsis.lean ====
section
/-! DEFINITION. State of the command interface: host port, queues, outstanding jobs, fault log, trace unit, and of the
module state machine (chapters 01, 02, 03). -/

namespace Sys2Proof.Machine

/-- The nine module states (R76). -/
inductive Mode where
  | off | boot | coppice | standby | configured | armed | running | safeStop | fault
  deriving DecidableEq, Repr, Inhabited

/-- One command queue (R50, R51, R53). -/
structure QueueRec where
  /-- 0 disabled, 1 submission, 2 completion. -/
  dir : Nat := 0
  /-- DEPTH code 0 to 4: 16, 32, 64, 128 or 256 entries. -/
  depth : Nat := 0
  /-- 0 host port, 1 Adexia, 2 CAN. -/
  source : Nat := 0
  /-- Paired completion ring of a submission ring. -/
  pairRing : Nat := 0
  irqCount : Nat := 0
  irqTime : Nat := 0
  hostPtr : Nat := 0
  icsisPtr : Nat := 0
  /-- PHASE of the present pass of a completion ring (R59). -/
  phase : Bool := true
  /-- IRQ_TIME has been counted for the completion that is now the oldest (R73). -/
  timed : Bool := false
  deriving DecidableEq, Repr, Inhabited

/-- An outstanding job (R63, R68): its opcode, its descriptor, its acceptance time, the remaining cost in ns and the
completion entries reserved for it. -/
structure Job where
  opcode : W16
  req : Req
  tAcc : W64
  cost : Nat
  entries : Nat
  /-- Deadline on the time base, in quarters of a nanosecond (R68). -/
  due : Nat
  /-- The demand at the horizon of each class at the take, which QRY_CAPACITY returns (R87). -/
  demands : List Nat := []
  deriving DecidableEq, Repr, Inhabited

/-- A 32-byte fault record (R82); `copied` marks one that the flash log holds. -/
structure FaultRec where
  code : W16
  state : Byte
  rflags : Byte
  num : W32
  time : W64
  unit : W16
  data0 : W32
  data1 : W32
  copied : Bool := false
  deriving DecidableEq, Repr, Inhabited

/-- The host port, the queues and the fault log (chapter 02). -/
structure Io where
  queues : Tab 64 QueueRec
  /-- Queue SRAM (R49). -/
  qsram : Mem 8 := []
  /-- Queue number served last in the rotation of R61. -/
  rr : Nat := 7
  jobs : List Job := []
  evRing : Tab 3 Nat := Vector.replicate 3 0
  evMask : W16 := 0
  /-- Events lost for want of a slot, per source (R75). -/
  evLost : Tab 3 Nat := Vector.replicate 3 0
  irqStat : W64 := 0
  irqEn : W64 := 0
  hpErr : W32 := 0
  hpCtrl : W32 := 2
  hpTimeSec : W32 := 0
  lastFault : W16 := 0
  /-- A silent spell whose record has been written (R47). -/
  silent : Bool := false
  /-- What the port drove in the last read frame: data words, and a CRC after each while CRC_EN = 1. -/
  readData : List W32 := []
  readCrcs : List W16 := []
  /-- Fault records in Icsis SRAM, newest first, at most 1,024 (R82). -/
  log : List FaultRec := []
  /-- Records written since the log was last cleared; the NUM of the newest. -/
  logNum : W32 := 0
  /-- Fault records written since reset, saturating at 65,535 (R85). -/
  faultCount : Nat := 0
  /-- Latched fault codes, oldest first (R85). -/
  latched : List W16 := []
  /-- A fault of DIA_INJECT is acting: its records carry RFLAGS.INJ (R90). -/
  inj : Bool := false
  deriving DecidableEq, Repr, Inhabited

/-- A capture of the trace unit (R89): TRC_STAT, the index of the trigger sample, the trigger time and the samples,
oldest first. -/
structure Capture where
  stat : W32 := 0
  trigIdx : Nat := 0
  trigTime : W64 := 0
  samples : List (List W18) := []
  deriving DecidableEq, Repr, Inhabited

/-- The trace unit (R89). -/
structure Trace where
  cap : Capture := {}
  nch : Nat := 0
  ctx : Nat := 0
  div : Nat := 0
  pre : Nat := 0
  tmode : Nat := 0
  tclass : Nat := 0
  tlvl : Int := 0
  chans : List Nat := []
  /-- Normal completions since the last sample. -/
  divCount : Nat := 0
  /-- Channel 0 of the sample before. -/
  last0 : Option Int := none
  /-- A fault record of class TCLASS has come since the last sample. -/
  hit : Bool := false
  deriving DecidableEq, Repr, Inhabited

/-- The kinds of state event that R95 lists, beside those that are commands. -/
inductive EvKind where
  /-- SAF_STOP, an escalation under R33, or host silence: STANDBY to RUNNING. -/
  | stopReq
  /-- A level, a trip, a leg fault or VDRV: ARMED and RUNNING. -/
  | trip
  /-- A latching fault: STANDBY to SAFE_STOP. -/
  | latch
  /-- RUNNING only: to SAFE_STOP (overdue stop ramp, monitor stop). -/
  | runStop
  /-- Thermal orderly stop complete: RUNNING to CONFIGURED. -/
  | thermal
  /-- Torque at zero, or the catch ended: RUNNING to ARMED. -/
  | runEnd
  deriving DecidableEq, Repr, Inhabited

/-- An arrived state event, not yet evaluated (R96), with the code that becomes CAUSE (R107). -/
structure StateEvent where
  kind : EvKind
  cause : W16
  deriving DecidableEq, Repr, Inhabited

/-- Who started a stop ramp (R109, R469, R533). -/
inductive RampKind where
  | command | thermal | monitor
  deriving DecidableEq, Repr, Inhabited

/-- A stop ramp in progress: its kind, its time in ms, and the time-base instant at which it ends (quarter ns). -/
structure Ramp where
  kind : RampKind
  ms : Nat
  startAt : Nat
  endsAt : Nat
  deriving DecidableEq, Repr, Inhabited

/-- The module state and the drive configuration (R18, R95, R107). -/
structure Drive where
  st : Mode := .off
  prev : Mode := .off
  cause : W16 := 0
  tState : W64 := 0
  arrange : Nat := 0
  legs : Byte := 0
  auxuse : Byte := 0
  varmMin : Nat := 0
  varmMax : Nat := 0
  stopT : Nat := 1000
  routeAcq : W16 := 0
  routePos : W16 := 0
  routeDsm : BitVec 48 := 0
  /-- A committed configuration is held (R97). -/
  committed : Bool := false
  events : List StateEvent := []
  /-- Time-base instants of the last entry into RUNNING and of the last exit from it, and whether the present entry
  followed at least 600 s outside (R404). -/
  runAt : Nat := 0
  leftRun : Nat := 0
  coldRun : Bool := false
  ramp : Option Ramp := none
  deriving DecidableEq, Repr, Inhabited

/-- A failed start as the always-on logic records it (R104). -/
structure StartFail where
  code : W16
  stage : Byte
  secs : W32
  copied : Bool := false
  deriving DecidableEq, Repr, Inhabited

end Sys2Proof.Machine
end

