-- ==== Sys2Proof/Machine/State/Base.lean ====
section
/-! DEFINITION. The local clock, the always-on logic, and what flash and fuses keep through a reset. -/

namespace Sys2Proof.Machine

/-- The local clock (R592, R593) and the free-running CLK_PWM time base (R271), the latter in quarters of a nanosecond
(one CLK_PWM cycle is five of them). -/
structure Clock where
  sec : BitVec 48 := 0
  ns : BitVec 30 := 0
  frac : W32 := 0
  inc : BitVec 40 := 0x08_0000_0000
  /-- A one-shot offset that waits for the next tick, in ns, and a TIM_INC that waits (R593). -/
  offset : Option Int := none
  incNext : Option (BitVec 40) := none
  tb : Nat := 0
  deriving DecidableEq, Repr, Inhabited

/-- State of the always-on logic that only loss of the always-on supply clears (R104, R105, R494, R507, R521, R551). -/
structure Aon where
  failCount : Nat := 0
  /-- The last three failures, newest first. -/
  fails : List StartFail := []
  coppice : Bool := false
  coppiceReason : W16 := 0
  secs : W32 := 0
  /-- CLK_NET ticks of the present second of that count. -/
  ticks : Nat := 0
  /-- ICS_LSTAT.MCNT and DEGR. -/
  mcnt : Byte := 0
  degr : Bool := false
  /-- ICS_MCAP. -/
  mcap : W64 := 0
  /-- PRN_STAT.SFAIL and SCANSEEN. -/
  sfail : Byte := 0
  scanSeen : Bool := false
  /-- SUP_STAT.RSTC, and whether it waits to be recorded (R539). -/
  rstc : BitVec 4 := 0
  rstcNew : Bool := false
  deriving DecidableEq, Repr, Inhabited

/-- Supply supervision (R537, R540, R542) and the start sequencer (R100, R102). -/
structure Supply where
  /-- Rails outside their window: VAON, VBLK, VCORE, VANA, VFLASH, VDRV, VIO from bit 0 up (R537). -/
  railOut : BitVec 7 := 0
  /-- Slowing of R540 by droop: 0 none, 1 a quarter, 2 a half; a pre-error's slowing (R544); REF and RAIL of SUP_STAT, DUSE
  and DCNT (R551). -/
  slow : Nat := 0
  refBit : Bool := false
  rails : BitVec 6 := 0
  dcnt : Nat := 0
  /-- Time-base instant at which the present slowing began, and the slowed intervals before it, newest first (R541). -/
  slowAt : Option Nat := none
  slowLog : List (Nat × Nat) := []
  /-- Start stage of R104, rails of the sequence powered so far, in its order, and whether it is complete. -/
  stage : Nat := 1
  powered : Nat := 0
  seqDone : Bool := false
  /-- RST_N and the conditions of R672 have held for 2,048 reference cycles. -/
  released : Bool := false
  /-- The reference is an external clock, as XSEL selected at the last reset release; otherwise a crystal (R674). -/
  extRef : Bool := false
  locked : Bool := false
  /-- Consecutive bad reference windows (R542). -/
  badRef : Nat := 0
  deriving DecidableEq, Repr, Inhabited

end Sys2Proof.Machine
end

