-- ==== Sys2Proof/Machine/State/Can.lean ====
section
/-! DEFINITION. State of the CAN FD controllers (chapter 17). -/

namespace Sys2Proof.Machine

/-- A message object (R562 to R570). -/
structure CanObj where
  /-- CAN_MOBJA and CAN_MOBJB in force, and a record that waits for the bus to be idle (R567). -/
  a : W64 := 0x01C0_0000_0000_0000
  b : W64 := 0x0000_0007_FFFF_FFC0
  next : Option (W64 × W64) := none
  /-- Receive: the stored frame with NEW and LOST, the hold slot with its LOST, and the lock's holder (R568, R569). -/
  frame : Option CanFrame := none
  new : Bool := false
  lost : Bool := false
  hold : Option CanFrame := none
  holdLost : Bool := false
  lock : Option CanReader := none
  /-- Transmit: the data of the pending request, failed attempts of its series, whether its first attempt has begun, data that
  waits for the end of the series, and the bit of the failed-object mask (R565, R566). -/
  data : List Byte := []
  req : Bool := false
  fails : Nat := 0
  begun : Bool := false
  after : Option (List Byte) := none
  failed : Bool := false
  deriving DecidableEq, Repr, Inhabited

/-- A controller (R556 to R577). -/
structure Can where
  ctrl : W32 := 0x1000_0010
  bt : W64 := 0x0403_C204_08F2_1000
  objs : Tab 128 CanObj := Vector.replicate 128 {}
  tec : Nat := 0
  rec_ : Nat := 0
  /-- CAN_STAT[10:1] at their own positions, TXLATE, and the states of the protocol: 0 error-active, 1 error-passive, 2
  bus-off. -/
  flags : BitVec 11 := 0
  txlate : Nat := 0
  estate : Nat := 0
  /-- Bus-off recovery has started (R573); the controller integrates into the bus again after a protocol exception (R556). -/
  recovering : Bool := false
  integrating : Bool := false
  /-- The completion entry that CMDTX is sending, and one that waits 10 ms to be asked for again (R574). -/
  sending : Bool := false
  retry : Bool := false
  deriving DecidableEq, Repr, Inhabited

end Sys2Proof.Machine
end

