-- ==== Sys2Proof/Machine/State/Check.lean ====
section
/-! DEFINITION. State of the check units (chapter 20). -/

namespace Sys2Proof.Machine

/-- One check unit (R638, R639, R644). -/
structure Chk where
  cfg : W64 := 0x002C_0001_0000_0000
  poly : W32 := 0x04C1_1DB7
  init : W32 := 0xFFFF_FFFF
  xorout : W32 := 0xFFFF_FFFF
  exp : W32 := 0
  lo : W32 := 0
  hi : W32 := 0xFFFF_FFFF
  stat : W32 := 0
  result : W32 := 0
  items : W32 := 0
  /-- The running CRC of the open frame and the items it holds. -/
  crc : W32 := 0xFFFF_FFFF
  count : Nat := 0
  deriving DecidableEq, Repr, Inhabited

end Sys2Proof.Machine
end

