-- ==== Sys2Proof/Machine/State/Demand.lean ====
section
/-! DEFINITION. State of the demand stage: message words, curves, modes and the catch (chapter 07). -/

namespace Sys2Proof.Machine

/-- An Espalier curve (R237). -/
structure Curve where
  written : Bool := false
  insel : Bool := false
  outkind : Bool := false
  inarg : Nat := 0
  on : Int := 0
  hyst : Int := 0
  xs : List Int := []
  ys : List Int := []
  deriving DecidableEq, Repr, Inhabited

/-- The catch of one machine (R240 to R248). -/
structure Catch where
  /-- DMD_STAGE (R224). -/
  stage : Nat := 0
  bemf : Bool := false
  rev : Bool := false
  /-- A stop waits for the end of the stage, and it is a thermal one (R246, R533). -/
  stop : Bool := false
  stopThermal : Bool := false
  /-- The machine was found standing, so that stage 2 runs or has run (R242). -/
  still : Bool := false
  /-- A current-loop activation released in stage 3 has set its load-all, so that the reload it covers begins stage 4 (R247). -/
  sync : Bool := false
  /-- Back-EMF detection (R241, R242, R245): samples of the window, their magnitudes added up, the net advance of their angle in counts,
  whether it has advanced forwards and backwards, and the latest angle; then the speed of stage 1. -/
  samples : Nat := 0
  sumV : Nat := 0
  adv : Int := 0
  fwd : Bool := false
  bwd : Bool := false
  angle : W18 := 0
  speed : Int := 0
  deriving DecidableEq, Repr, Inhabited

/-- The demand stage. MODE, SRC and SRCARG are those of the last CTL_MODE (R230); a DMD law takes them over at a release. -/
structure Demand where
  msg : Tab 8 W18 := Vector.replicate 8 0
  curves : Tab 4 Curve := Vector.replicate 4 {}
  /-- A curve that replaces the old one at DMD's next release (R239). -/
  pend : Tab 4 (Option Curve) := Vector.replicate 4 none
  mode : Nat := 0
  src : Nat := 0
  srcArg : Nat := 0
  catch_ : Tab 2 Catch := Vector.replicate 2 {}
  deriving DecidableEq, Repr, Inhabited

end Sys2Proof.Machine
end

