-- ==== Sys2Proof/Machine/State/Lockstep.lean ====
section
/-! DEFINITION. State of the lockstep pair (chapter 14) and of the self-test scheduler (chapter 15). -/

namespace Sys2Proof.Machine

/-- What core 1 does while the pair is split (R501, R502). -/
inductive Core1 where
  | lockstep | service | held
  deriving DecidableEq, Repr, Inhabited

/-- The lockstep pair (R487 to R507). Its always-on fields MCNT, DEGR and ICS_MCAP stand with the always-on logic. -/
structure Pair where
  recur : Nat := 0
  split : Bool := false
  dbg : Bool := false
  lsbrk : Bool := false
  sigdif : Bool := false
  injok : Bool := false
  cpnum : W16 := 0
  /-- Bytes in the undo log and in the output buffer since the last seal (R487, R488). -/
  undo : Nat := 0
  outbuf : Nat := 0
  /-- Both cores are held after a mismatch, until the restart (R490). -/
  held : Bool := false
  mismatchLine : Bool := false
  /-- The pair has been declared degraded since reset and takes nothing more (R494). -/
  dead : Bool := false
  services : BitVec 4 := 0
  core1 : Core1 := .lockstep
  /-- A join is under way for a transition out of STANDBY or CONFIGURED (R504). -/
  joining : Bool := false
  /-- A debug halt request has come while the cores were held (R493). -/
  haltPend : Bool := false
  /-- Rights of the debug port: bit 0 halt, bit 1 scan (R661); a debug authorisation since reset. -/
  rights : BitVec 2 := 0
  authSince : Bool := false
  /-- The challenge of a debug session, if one has been given out (R661). -/
  challenge : Option (List Byte) := none
  deriving DecidableEq, Repr, Inhabited

end Sys2Proof.Machine
end

