-- ==== Sys2Proof/Machine/State/Nv.lean ====
section
/-! DEFINITION. What flash and fuses keep through a reset (R82, R104, R155, R404, R545, R591, R628, R649, R657). -/

namespace Sys2Proof.Machine

/-- A firmware bank (R649, R654): its bytes since the last ERASE, the announced LENGTH and the VERIFIED mark. `factory`
marks the image that Lanreic shipped, whose bytes the spec does not give. -/
structure FwBank where
  data : List Byte := []
  len : Nat := 0
  verified : Bool := false
  factory : Bool := false
  deriving DecidableEq, Repr, Inhabited

/-- One copy of the boot control record (R651); `ok` is the validity of its CRC. -/
structure BootRec where
  conf : Nat := 0
  trial : Nat := 0xFF
  tried : Bool := false
  gen : W32 := 0
  ok : Bool := false
  deriving DecidableEq, Repr, Inhabited

/-- A key slot (R657). -/
structure KeySlot where
  key : List Byte := []
  kuse : W32 := 0
  written : Bool := false
  spoiled : Bool := false
  /-- The slot holds Lanreic's key, whose bytes the spec does not give. -/
  factory : Bool := false
  deriving DecidableEq, Repr, Inhabited

/-- The fuse banks (R657). -/
structure Fuses where
  startCfg : W32 := 0
  startCfgSet : Bool := false
  startCfgSpoiled : Bool := false
  keys : Tab 4 KeySlot := #v[{ kuse := 1, written := true, factory := true }, {}, {}, {}]
  revoke : BitVec 4 := 0
  policy : W32 := 0
  policySet : Bool := false
  policySpoiled : Bool := false
  safety : Tab 20 W32 := Vector.replicate 20 0
  safetySet : Bool := false
  safetySpoiled : Bool := false
  minsvn : Nat := 0
  deriving DecidableEq, Repr, Inhabited

/-- One ageing site (R545, R552) with its stored days, oldest first. -/
structure AgeSite where
  word : W64 := 0
  hist : List Nat := []
  /-- Lowest margin of the present day. -/
  today : Option Nat := none
  deriving DecidableEq, Repr, Inhabited

/-- Flash and fuses. -/
structure Nv where
  flashLog : List FaultRec := []
  startLog : List FaultRec := []
  startNum : W32 := 0
  saved : Capture := {}
  savedNch : Nat := 0
  slots : Tab 4 (List Byte) := Vector.replicate 4 []
  banks : Tab 2 FwBank := #v[{ factory := true }, {}]
  bcr : Tab 2 BootRec := Vector.replicate 2 {}
  fuses : Fuses := {}
  /-- WEAR per driver channel in 1/16,384 (R404). -/
  wear : Tab 16 Nat := Vector.replicate 16 16384
  age : Tab 10 AgeSite := Vector.replicate 10 {}
  ageDth : Nat := 0
  hours : Nat := 0
  /-- Saved ADX_CTRL (R591), if one has been saved. -/
  adxCtrl : Option W64 := none
  /-- The epoch kept in the log (R628). -/
  epoch : W32 := 0
  deriving DecidableEq, Repr, Inhabited

/-- The running firmware (R648, R651 to R653): its bank, whether it is a trial or a fallback. -/
structure Boot where
  bank : Option Nat := none
  trial : Bool := false
  fallback : Bool := false
  /-- Fuse values in force since the start (R658), and Blackthorn's and Icsis's reading of the safety bank. -/
  fuses : Fuses := {}
  deriving DecidableEq, Repr, Inhabited

end Sys2Proof.Machine
end

