-- ==== Sys2Proof/Machine/State/Pos.lean ====
section
/-! DEFINITION. State of the position block (chapter 09). -/

namespace Sys2Proof.Machine

/-- A resolver interface (R298 to R301, R326). -/
structure Rsv where
  cfg : W64 := 0x2710_0000_40F0_0000
  bad : Nat := 0
  good : Nat := 0
  los : Bool := false
  amp : Nat := 0
  deriving DecidableEq, Repr, Inhabited

/-- An encoder interface with its compare unit (R302 to R314, R327, R328, R333). Times are instants of the time base. -/
structure Enc where
  cfg : W64 := 0x0000_1000_0000_0000
  cmp : W64 := 0
  stat : W32 := 0
  cnt : Nat := 0
  revs : Int := 0
  icnt : Nat := 0
  irevs : Int := 0
  idxRef : Nat := 0
  edgeSpd : Int := 0
  /-- Instant and direction (true = reverse) of the last edge. -/
  lastEdge : Option (Nat × Bool) := none
  /-- Instants of the last illegal transitions, newest first, at most nine; more than eight in 1 ms make the encoder not
  healthy (R305). -/
  illAt : List Nat := []
  sick : Bool := false
  /-- Filtered levels of the A, B and Z lines (R302, R310; log entry 70). -/
  lineA : Bool := false
  lineB : Bool := false
  lineZ : Bool := false
  /-- Instant at which the compare lead's pulse ends (R314). -/
  pulseEnd : Nat := 0
  deriving DecidableEq, Repr, Inhabited

/-- A Hall set (R315 to R317, R329, R333). -/
structure Hal where
  cfg : W32 := 0x053B_0A00
  lines : BitVec 3 := 0
  /-- The sector of the last legal state since the set was enabled. -/
  sector : Option Nat := none
  fine : Bool := false
  stat : W32 := 0
  deriving DecidableEq, Repr, Inhabited

/-- A tracking observer (R295, R296, R318 to R324, R330, R333). -/
structure Obs where
  cfgA : W64 := 0x001F_00C8_0000_0000
  cfgB : W64 := 0
  wb : W32 := 0
  /-- θs as a 32-bit fraction of a source revolution; ws and as in 2^-32 revolutions per second (per second). -/
  th : W32 := 0
  ws : Int := 0
  acc : Int := 0
  /-- Outputs of the last update. -/
  thm : W18 := 0
  the : W18 := 0
  w : Int := 0
  a : Int := 0
  /-- The electrical offset in force (R323), and whether an alignment has set ABS. -/
  offset : W18 := 0
  aligned : Bool := false
  /-- A measurement that waits for the next update: its angle in revolutions as numerator and denominator, and its
  instant. -/
  meas : Option (Int × Nat × Nat) := none
  /-- The next measurement loads θs (R321); measurements since enable or since loss of health. -/
  fresh : Bool := true
  mcount : Nat := 0
  /-- The source was healthy at the last update (R321). -/
  healthy : Bool := false
  /-- R320 holds the observer invalid; measurements in a row below half the limit. -/
  trkBad : Bool := false
  trkGood : Nat := 0
  valid : Bool := false
  abs : Bool := false
  /-- The observer that serves its streams (R324). -/
  fallbk : Option Nat := none
  sat : Bool := false
  plaus : Bool := false
  track : Bool := false
  /-- Instant of the last update, and latch events modulo 256. -/
  tUpd : Nat := 0
  seq : Byte := 0
  deriving DecidableEq, Repr, Inhabited

/-- A plausibility check (R325, R331). -/
structure Pla where
  cfg : W64 := 0x0820_0008_0004_0000
  fails : Nat := 0
  passes : Nat := 0
  deriving DecidableEq, Repr, Inhabited

/-- The position block. -/
structure Pos where
  rsv : Tab 2 Rsv := Vector.replicate 2 {}
  enc : Tab 4 Enc := Vector.replicate 4 {}
  hal : Tab 2 Hal := Vector.replicate 2 {}
  obs : Tab 4 Obs := Vector.replicate 4 {}
  pla : Tab 2 Pla := Vector.replicate 2 {}
  /-- What telemetry returns of the block, as the latest complete update left it (R334). -/
  view : Option (List Byte) := none
  deriving DecidableEq, Repr, Inhabited

end Sys2Proof.Machine
end

