-- ==== Sys2Proof/Machine/State/Power.lean ====
section
/-! DEFINITION. State of the PWM generator (chapter 10), the gate drivers (chapter 11) and fast protection with the
chopper and the discharge (chapter 12). -/

namespace Sys2Proof.Machine

/-- A timer unit (R338 to R378). `eff` and `effTim` are the records whose RW fields are in effect (R378). -/
structure PwmUnit where
  cfg : W64 := 0x5408_0A00_2800_000F
  tim : W64 := 0x3E80_0FA0_0100_0000
  eff : W64 := 0x5408_0A00_2800_000F
  effTim : W64 := 0x3E80_0FA0_0100_0000
  p : Nat := 64000
  cmp : Nat := 0
  vec : Bool := false
  shCmp : Nat := 0
  shPrd : Nat := 64000
  lda : Bool := false
  /-- The load-all pending was set by the owning context, not by the force path (R359). -/
  ldaCtx : Bool := false
  hold : Bool := true
  /-- Force mode in effect, and one that waits for the reload (R371). -/
  fmode : Nat := 0
  fpend : Option Nat := none
  /-- Both commands off until the valley (R355), and cut off until the reload (R364). -/
  overlap : Bool := false
  cutoff : Bool := false
  /-- Debug halt in effect with FRZ 1 or 2, and the counter stopped (R369). -/
  frozen : Bool := false
  stopped : Bool := false
  /-- A restart waits for the valley (R378). -/
  restart : Bool := false
  /-- Network lock: correction of the present period, valleys in a row within 64 fine ticks, LOCKED (R367, R368). -/
  corr : Int := 0
  good : Nat := 0
  locked : Bool := false
  /-- Instant, in fine ticks of the time base, of the valley that began the present carrier period (R338), and a network-locked
  unit that has started and waits for its first target instant (R367). -/
  origin : Int := 0
  waiting : Bool := false
  /-- Instant of the last command that changed the unit's requests, and up to it the latest instants at which the upper and the
  lower command were on (R353). -/
  mark : Int := 0
  upAt : Option Int := none
  lowAt : Option Int := none
  /-- The latest instants up to it at which they were off (R384). -/
  upOff : Option Int := none
  lowOff : Option Int := none
  /-- Instant at which the present refresh pulse began (R393). -/
  refreshAt : Option Int := none
  /-- A leg fault holds both commands off (R392). -/
  legHold : Bool := false
  /-- PWM_STAT[6:1], at their own positions, and CBC_CNT (R376). -/
  flags : BitVec 7 := 0
  cbcCnt : Nat := 0
  /-- The present carrier period has been counted in CBC_CNT (R364). -/
  cbcMark : Bool := false
  deriving DecidableEq, Repr, Inhabited

/-- An auxiliary channel (R361, R375). -/
structure PwmAux where
  cfg : W64 := 0x0600_0000_0000_0000
  a : Nat := 0
  b : Nat := 0
  shA : Nat := 0
  shB : Nat := 0
  deriving DecidableEq, Repr, Inhabited

/-- The PWM generator; the table has the units PWM0 to PWM5, PWM6 and PWM7 being the protection path's (R337). -/
structure Pwm where
  units : Tab 6 PwmUnit := Vector.replicate 6 {}
  aux : Tab 8 PwmAux := Vector.replicate 8 {}
  shVec : BitVec 6 := 0
  /-- Time-base instant at which each trigger source of R145 and R265 last fired (R299, R314, R351, R362). -/
  trigAt : Tab 64 (Option Nat) := Vector.replicate 64 none
  deriving DecidableEq, Repr, Inhabited

/-- A driver channel (R381 to R409). -/
structure GdvChan where
  cfg : W64 := 0x2120_5138_0000_0000
  ind : W64 := 0
  ibase : W32 := 0
  ron : Tab 8 W16 := Vector.replicate 8 0
  stat : W32 := 0
  vsns : Nat := 0
  /-- Pairs of the present update interval: sample and current word (R401, R402). -/
  pairs : List (Nat × W18) := []
  /-- Latest samples with almost no current, newest first, at most 64 (R402). -/
  zeros : List Nat := []
  ronVal : Nat := 0
  tj : Int := 0
  tjCount : Nat := 0
  tcool : Int := 0
  /-- Ron of the cold samples of the present entry into RUNNING (R404). -/
  cold : List Nat := []
  soft : Bool := false
  /-- The die sees no link activity (R384). -/
  silent : Bool := false
  linkLost : Bool := false
  /-- Held off until the command next reads off (R384, R400). -/
  offHold : Bool := false
  /-- Instant, in fine ticks, at which link activity resumed (R384). -/
  resumedAt : Option Int := none
  deriving DecidableEq, Repr, Inhabited

/-- Phases of a discharge (R437). -/
inductive Discharge where
  | idle | waiting | on
  deriving DecidableEq, Repr, Inhabited

/-- Fast protection, the chopper and the discharge (R416 to R445). -/
structure Prt where
  ctl : W64 := 0x0800_0000_1000_0000
  dcl : W64 := 0x0000_0000_0002_9400
  dck : W32 := 0
  chop : W64 := 0x0A15_E000_00A0_0000
  trip : W64 := 0xFFFF_FFFF_FFFF_0000
  cbc : Tab 4 W32 := Vector.replicate 4 0x03FF_FE00
  /-- PRT_STAT[20:8] without the bits that are computed: DDONE, DFAIL, CHFLT, OV, UV, LEGTRIP. -/
  flags : W32 := 0
  /-- Per machine: the choice is ASC (R417); a trip has put the pattern in force (R418); the other bank is used; only
  freewheel until reset (R419). -/
  asc : Tab 2 Bool := Vector.replicate 2 true
  act : Tab 2 Bool := Vector.replicate 2 false
  otherBank : Tab 2 Bool := Vector.replicate 2 false
  fwOnly : Tab 2 Bool := Vector.replicate 2 false
  /-- Legs held off by an overcurrent trip (R419), and the time-base instant of each leg's last trip (R422). -/
  legOff : Tab 6 Bool := Vector.replicate 6 false
  lastTrip : Tab 7 (Option Nat) := Vector.replicate 7 none
  chAct : Bool := false
  /-- Time-base instant of the chopper's last switching (R428). -/
  chAt : Option Nat := none
  ovHold : Bool := false
  /-- Instant, in fine ticks, at which CHPOS last moved away from a switch that was on (R337). -/
  chMoved : Option Int := none
  /-- The pair of PWM6 is held off until the chopper is commanded off (R400). -/
  chXref : Bool := false
  dis : Discharge := .idle
  vtgt : Nat := 0
  /-- The applied CTL_DISCHARGE that completes once GD14 is on (R437). -/
  disReq : Option Req := none
  tmax : Nat := 0
  /-- Last DCSNS value in V (R445), and the cut-off lines that are active (R433). -/
  dcsns : Nat := 0
  cbcLine : BitVec 4 := 0
  /-- Trip lines of the delta-sigma inputs (R288, R289). -/
  tripLine : BitVec 12 := 0
  /-- Publications of REGEN_LIM, modulo 256 (R431). -/
  rgSeq : Byte := 0
  deriving DecidableEq, Repr, Inhabited

end Sys2Proof.Machine
end

