-- ==== Sys2Proof/Machine/State/Safety.lean ====
section
/-! DEFINITION. State of Blackthorn and of the safety coordinator (chapter 13), of the thermal and ageing supervisors
(chapter 16) and of the self-test scheduler (chapter 15). -/

namespace Sys2Proof.Machine

/-- A violation or trip at Blackthorn (R448, R449): present now, counted against the machine, and latched because it was
seen while the RUN line was high. -/
structure Cause where
  present : Bool := false
  held : Bool := false
  latched : Bool := false
  deriving DecidableEq, Repr, Inhabited

/-- A dual-channel input pair (R453 to R456). The accepted levels start at the demand level. -/
structure PairIn where
  demA : Bool := true
  demB : Bool := true
  /-- The pair demands its function (R454). -/
  demand : Bool := true
  /-- A disagreement has reached DISC (R455). -/
  fault : Bool := false
  /-- Progress of a cycle (R456): both channels have accepted the demand level since the fault, then both the run level. -/
  bothDem : Bool := false
  cycled : Bool := false
  /-- Time-base instants of the start of the demand (R463) and of the discrepancy latch (R480). -/
  since : Nat := 0
  faultAt : Nat := 0
  deriving DecidableEq, Repr, Inhabited

/-- Blackthorn's view of one machine (R457 to R463). -/
structure BlkMach where
  count : Int := 0
  net : Int := 0
  known : Bool := true
  /-- The speed source has been illegal: latched until acknowledged (R448, R458), with the time-base instant of the last such
  event. -/
  srcLatch : Bool := false
  srcAt : Nat := 0
  /-- Blackthorn's choice is ASC (R460). -/
  asc : Bool := false
  /-- The SLS limit is in force: TSLS has passed since an SLS pair began to demand (R463). -/
  slsOn : Bool := false
  sdiHigh : Int := 0
  sdiLow : Int := 0
  slpAt : Int := 0
  smax : Cause := {}
  sls : Cause := {}
  sdi : Cause := {}
  slp : Cause := {}
  /-- Failed comparisons of the speed cross-check in a row (R459), and failed checks of the torque monitor (R468). -/
  xchk : Nat := 0
  tmFail : Nat := 0
  tMon : W18 := 0
  /-- The software SMAX check of R474 holds the STO request line until a release. -/
  swHold : Bool := false
  deriving DecidableEq, Repr, Inhabited

/-- A copy of the limits of R475 and of ASC_SPD (R476, R477). -/
structure Limits where
  smax : Tab 2 Nat := Vector.replicate 2 0
  slsl : Tab 2 Nat := Vector.replicate 2 0
  dtol : Tab 2 Nat := Vector.replicate 2 0
  ptol : Tab 2 Nat := Vector.replicate 2 0
  tmtol : Nat := 0
  bhi : Tab 8 Nat := Vector.replicate 8 0
  blo : Tab 8 Nat := Vector.replicate 8 0
  ascSpd : Nat := 0
  deriving DecidableEq, Repr, Inhabited

/-- Blackthorn and the safety coordinator. -/
structure Safety where
  pairs : Tab 4 PairIn := Vector.replicate 4 {}
  mach : Tab 2 BlkMach := Vector.replicate 2 {}
  comps : Tab 8 Cause := Vector.replicate 8 {}
  errcnt : Nat := 4
  /-- ERRCNT has not yet reached 0 since power-up, so that every machine is at Closed (R448). -/
  closedStart : Bool := true
  qaStarted : Bool := false
  question : Option Byte := none
  coppiceLine : Bool := false
  /-- Scan entry has set Blackthorn to Closed (R524). -/
  scanClosed : Bool := false
  /-- Reference-clock check latched (R37), and not yet recorded because STANDBY had not been reached. -/
  clkf : Bool := false
  clkfPend : Bool := false
  clkfAt : Nat := 0
  /-- The last window of the reference-clock check was out of band (R37). -/
  refOut : Bool := false
  /-- ERRCNT has reached 6 and 0x3041 is latched, since this time-base instant (R471). -/
  qaLim : Option Nat := none
  /-- The STO request line is held by a restart of the pair (R490) until the state holds it. -/
  stoRestart : Bool := false
  /-- Icsis has signalled an escalation (R33). -/
  stoEscal : Bool := false
  viol : BitVec 4 := 0
  bkct : Byte := 0
  /-- The last valid SACK_N pulse: its length in ms and the time-base instant of its end (R479). -/
  sackAt : Option (Nat × Nat) := none
  blkLim : Limits := {}
  icsLim : Limits := {}
  /-- Blackthorn's copy of ARRANGE and LEGS (R447). -/
  blkArr : Nat := 0
  blkLegs : Byte := 0
  deriving DecidableEq, Repr, Inhabited

/-- Temperature sensors and the throttle (R527 to R534, R549). -/
structure Thermal where
  reading : Tab 32 Int := Vector.replicate 32 0
  count : Tab 32 Nat := Vector.replicate 32 0
  /-- Windows in a row with an identical count (R529), and whether the last window read 160 °C or more (R534). -/
  same : Tab 32 Nat := Vector.replicate 32 0
  hot : Tab 32 Bool := Vector.replicate 32 false
  broken : W32 := 0
  stat : W32 := 0x8000_0000
  warn : W16 := 0
  /-- WARN may be written again: TMAXE has lain below it (R550). -/
  warnArmed : Bool := true
  step : Nat := 0
  deriving DecidableEq, Repr, Inhabited

/-- Records of the self-test scheduler (R516 to R521). -/
structure Pruner where
  krec : Tab 7 W64 := Vector.replicate 7 0
  /-- Slices in progress, and units with an aborted slice not yet completed or overdue: kind (0 for 0x01) and unit. -/
  slices : List (Nat × Nat) := []
  open_ : List (Nat × Nat) := []
  /-- Consecutive aborts, per kind and unit. -/
  aborts : List (Nat × Nat × Nat) := []
  /-- Time-base instant of the last completed run of a kind on a unit. -/
  ran : List (Nat × Nat × Nat) := []
  startOk : Bool := false
  /-- Scan has been entered; it is left only through reset (R524). -/
  scan : Bool := false
  deriving DecidableEq, Repr, Inhabited

end Sys2Proof.Machine
end

