-- ==== Sys2Proof/Machine/State/Thicket.lean ====
section
/-! DEFINITION. State of Thicket: cells, blocks, region memories, contexts and image areas (chapter 04), and the state
words of the control laws (chapters 05, 06, 07). -/

namespace Sys2Proof.Machine

/-- A physical cell (R112). The parity bit of an entry is a function of the entry and is not stored twice. -/
structure Cell where
  x : Tab 32 W18 := Vector.replicate 32 0
  acc : BitVec 48 := 0
  p : Bool := false
  qPrev : List W18 := []
  qNext : List W18 := []
  qPair : List W18 := []
  deriving DecidableEq, Repr, Inhabited

/-- A block of sixteen cells (R126, R130). -/
structure Block where
  map : W64 := 0xFFFF_7FFF_F000_0000
  lmap : W64 := 0x0EDC_BA98_7654_3210
  cells : Tab 16 Cell := Vector.replicate 16 {}
  /-- Operation memory: bank × 256 + slot. -/
  op : Mem 64 := []
  /-- Coefficient memory: partition × 512 + word. -/
  coef : Mem 18 := []
  /-- Words that have been reloaded after a double-bit error (R27, R129). -/
  coefReloaded : List Nat := []
  opReloaded : List Nat := []
  /-- A cell fault has left no spare, so rotation has stopped (R24, R134). -/
  stopped : Bool := false
  /-- The logical cell that waits for its quiet point (R132). -/
  switching : Option Nat := none
  /-- The logical cell from which Pruner looks for the next one to name (R514). -/
  nextK : Nat := 0
  deriving DecidableEq, Repr, Inhabited

/-- One loop's state words: integrator, back-calculation correction, last limited output (R164, R166). -/
structure Loop where
  i : Int := 0
  b : Int := 0
  deriving DecidableEq, Repr, Inhabited

/-- One notch stage's delay words (R180). -/
structure Notch where
  x1 : Int := 0
  x2 : Int := 0
  y1 : Int := 0
  y2 : Int := 0
  deriving DecidableEq, Repr, Inhabited

/-- The values that one law instance keeps between activations (05, 06, 07): what its words of the state area stand for. -/
structure LawRun where
  loops : List Loop := []
  /-- Gain set in force (R176). -/
  gset : Nat := 0
  /-- KP in force at the last activation. -/
  kpLast : List Int := []
  /-- PID: delayed words of R169, and whether an activation has run. -/
  dPrev : Int := 0
  yPrev : Int := 0
  started : Bool := false
  notch : List Notch := []
  /-- ID_FW (R200) and ψr (R203) in 2^-34, θ_slip (R203) in 2^-36 of a revolution, and whether ψr has reached 0.9 of its
  reference (R204). -/
  idFw : Int := 0
  psi : Int := 0
  fluxed : Bool := false
  slip : Int := 0
  /-- FCS6: the switching state applied in the present period (R216). -/
  fcs : Nat := 0
  /-- HARM: the coefficients as published last (R212). -/
  harm : List Int := []
  /-- The torque reference that the current loop used last (R190 step 3), as a word. -/
  tRef : Int := 0
  /-- DMD: ramped torque and speed references in 2^-34 (R235), whether a stop ramp has begun in them (R236), and the mode
  and source in force. -/
  rT : Int := 0
  rW : Int := 0
  stopping : Bool := false
  mode : Nat := 0
  src : Nat := 0
  srcArg : Nat := 0
  curveOn : Tab 4 Bool := Vector.replicate 4 false
  deriving DecidableEq, Repr, Inhabited

/-- An activation of a context between its release and its end (R137 to R139, R154). -/
structure Activation where
  /-- Watchdog deadline in ticks of 6.25 ns of the time base. -/
  deadline : Nat := 0
  /-- Outputs are suppressed for this period (R23, R27, R29, R141). -/
  suppressed : Bool := false
  /-- Writers whose published bank the activation latched at its release, with that bank (R139). -/
  held : List (Nat × Bool) := []
  /-- Logical cells (block of the region, cell) on which it has started slots, and those whose part has ended (R132,
  R149). -/
  started : List (Nat × Nat) := []
  ended : List (Nat × Nat) := []
  /-- The slot that each logical cell of the context executes next, as a slot of the cell's bank (R120). -/
  pos : List ((Nat × Nat) × Nat) := []
  /-- Logical cells on which the last slot was marked PP (R122). -/
  pp : List (Nat × Nat) := []
  /-- Link queues that the activation has used: block, logical cell and port (R123). -/
  links : List (Nat × Nat × Nat) := []
  /-- Signal words that its slots have stored and a normal completion publishes, the last store first (R139). -/
  sig : List (Nat × W18) := []
  /-- What the laws hand out at the normal completion: words of the region by address, compares by shadow number, and
  the load-all set. -/
  outWords : List (Nat × W18) := []
  outShadows : List (Nat × W18) := []
  outLdall : Byte := 0
  /-- The law state that a normal completion makes the next one. -/
  laws : List LawRun := []
  /-- Every current loop of the context latched a torque reference of 0 (R109). -/
  zeroTorque : Bool := false
  /-- The flag bits that the laws write at the normal completion, and which bits they are (R175, R223, R248). -/
  outFlags : W16 := 0
  outMask : W16 := 0
  /-- The stage of the catch of the context's machine at the release, and DMD's ramp has reached the demand (R244). -/
  stageAt : Nat := 0
  reached : Bool := false
  deriving DecidableEq, Repr, Inhabited

/-- A context record (R143) and its run state. -/
structure Ctx where
  ctrl : W32 := 0
  period : W32 := 0
  minper : W32 := 0
  bound : W32 := 0
  wct : W32 := 0
  status : W32 := 0
  flags : W32 := 0
  acts : W32 := 0
  iBase : W32 := 0
  vBase : W32 := 0
  wBase : W32 := 0
  tBase : W32 := 0
  area : W32 := 0
  /-- The first of the sixteen words of its parameters in region memory (R135). -/
  parBase : Nat := 0
  /-- Parameter values pending for the next release (R160). -/
  pend : Tab 16 (Option W18) := Vector.replicate 16 none
  /-- Triggers counted by the divider (R146). -/
  divCount : Nat := 0
  act : Option Activation := none
  /-- Pending copy of the flag word (R125). -/
  flagsPend : W16 := 0
  /-- Bank of the state area that the next activation reads (R138). -/
  stBank : Bool := false
  /-- Bank of its signal words that is published, and whether a completed set in the other bank waits for its
  publication (R139). -/
  pubBank : Bool := false
  deferred : Bool := false
  /-- The previous period overran (R30). -/
  overran : Bool := false
  /-- The state area has been set to its initial values since entry into RUNNING (R147). -/
  primed : Bool := false
  /-- Its last normal completion latched a torque reference of 0 (R109). -/
  zeroDone : Bool := false
  deriving DecidableEq, Repr, Inhabited

/-- An activation preempted on a cell (R122): the cell, the context it belongs to and the context that preempted it. -/
structure Preempted where
  block : Nat
  lcell : Nat
  ctx : Nat
  by_ : Nat
  deriving DecidableEq, Repr, Inhabited

/-- Thicket and its image areas (chapter 04). -/
structure Thicket where
  blocks : Tab 16 Block := Vector.replicate 16 {}
  /-- Region memories: the first bank, with the stream area, and the second bank of the signal and state areas (R135,
  R138, R139). -/
  rmem : Tab 4 (Mem 18) := Vector.replicate 4 []
  rmemB : Tab 4 (Mem 18) := Vector.replicate 4 []
  /-- The context that writes a signal word, as its number plus 1 (R139). -/
  sigOwner : Tab 4 (Mem 8) := Vector.replicate 4 []
  ctxs : Tab 160 Ctx := Vector.replicate 160 {}
  preempted : List Preempted := []
  /-- Staging area and announced LENGTH (R157), active area and its parsed body (R155, R158). -/
  staging : List Byte := []
  stagingLen : Nat := 0
  active : List Byte := []
  body : Option ImageBody := none
  /-- The copy of the active image has failed its digest (R519). -/
  activeBad : Bool := false
  deriving DecidableEq, Repr, Inhabited

end Sys2Proof.Machine
end

