-- ==== Sys2Proof/Machine/State.lean ====
section
/-! DEFINITION. The state of the block: everything the spec gives it, as plain data, with the queue of the commands that
wait; its state right after reset; and the reasons for which a step could stop. -/

namespace Sys2Proof.Machine

/-- The queues of chapter 02 after any reset (R50). -/
def resetQueues : Tab 64 QueueRec :=
  let sub (d src p : Nat) : QueueRec := { dir := 1, depth := d, source := src, pairRing := p }
  let cpl (d src : Nat) : QueueRec := { dir := 2, depth := d, source := src }
  let t : Tab 64 QueueRec := Vector.replicate 64 {}
  (((((t.put 8 (sub 1 0 9)).put 9 (cpl 1 0)).put 10 (sub 1 1 11)).put 11 (cpl 1 1)).put
    12 (sub 0 2 13)).put 13 (cpl 0 2)

/-- The state of the block. -/
structure State where
  /-- Commands that wait, first in, first out. -/
  pending : List Instr := []
  /-- Host port, queues, outstanding jobs and fault log (chapter 02). -/
  io : Io := { queues := resetQueues }
  trc : Trace := {}
  /-- Module state and drive configuration (chapters 01, 03). -/
  drv : Drive := {}
  /-- Local clock and time base (chapters 08, 18). -/
  clk : Clock := {}
  /-- Always-on logic. -/
  aon : Aon := {}
  /-- Flash and fuses. -/
  nv : Nv := {}
  /-- Running firmware and fuse values in force (chapter 21). -/
  boot : Boot := {}
  /-- Supply supervision and start sequencer (chapters 03, 16). -/
  sup : Supply := {}
  /-- Lockstep pair (chapter 14). -/
  icp : Pair := {}
  /-- Thicket, its contexts and image areas (chapters 04 to 07). -/
  thk : Thicket := {}
  /-- Check units (chapter 20). -/
  chk : Tab 8 Chk := Vector.replicate 8 {}
  /-- Blackthorn and the safety coordinator (chapter 13). -/
  saf : Safety := {}
  /-- Temperature sensors and throttle (chapter 16). -/
  thm : Thermal := {}
  /-- Self-test scheduler (chapter 15). -/
  prn : Pruner := {}
  /-- PWM generator (chapter 10). -/
  pwm : Pwm := {}
  /-- Gate drivers (chapter 11). -/
  gdv : Tab 16 GdvChan := Vector.replicate 16 {}
  /-- Fast protection and braking (chapter 12). -/
  prt : Prt := {}
  /-- Converters and delta-sigma inputs (chapter 08). -/
  acq : Acq := {}
  /-- Position block (chapter 09). -/
  pos : Pos := {}
  /-- Demand stage and catch (chapter 07). -/
  dmd : Demand := {}
  /-- CAN FD controllers (chapter 17). -/
  can : Tab 4 Can := Vector.replicate 4 {}
  /-- Adexia and time synchronisation (chapter 18). -/
  adx : Adx := {}
  /-- Torque allocation (chapter 19). -/
  crd : Crd := {}
  /-- Number of free values taken so far (the model's own field). -/
  free : Nat := 0
  deriving DecidableEq, Repr

/-- No command of the block stops the machine: every row of the table has an effect, so there is no fault. -/
inductive Fault : Type
  deriving DecidableEq, Repr

/-- Reasons for which the model declines a command. -/
inductive Refusal where
  /-- Raised by `exec` for a command that has no meaning yet. Safe: nothing can be proved of it. -/
  | notModelled (mnemonic : String)
  deriving DecidableEq, Repr

/-- The machine right after reset, with the always-on supply just applied and factory flash and fuses (R21, R50, R95):
OFF, the queue empty. -/
def State.reset : State := {}

end Sys2Proof.Machine
end

