-- ==== Sys2Proof/Machine/Codes.lean ====
section
/-! DEFINITION. The code tables: states (R76), status codes (R91), deadline classes (R63), opcodes with their legality
(R78) and payload lengths, and the fault codes that latch FAULT (R687). -/

namespace Sys2Proof.Machine

/-- State codes (R76). -/
def Mode.code : Mode → Nat
  | .off => 0 | .boot => 1 | .coppice => 2 | .standby => 3 | .configured => 4 | .armed => 5 | .running => 6
  | .safeStop => 7 | .fault => 8

def stOk : W16 := 0x0000
def stNotAdmitted : W16 := 0x0101
def stState : W16 := 0x0102
def stRange : W16 := 0x0103
def stTighten : W16 := 0x0104
def stBound : W16 := 0x0105
def stOpcode : W16 := 0x0106
def stFormat : W16 := 0x0107
def stBusy : W16 := 0x0108
def stAuth : W16 := 0x0109
def stPlacement : W16 := 0x010A
def stPreempted : W16 := 0x0201
def stClamped : W16 := 0x0202
def stFailed : W16 := 0x0301
def stEvent : W16 := 0x0401

/-- Bound of a deadline class in ns (R63). -/
def classBound : Nat → Nat
  | 0 => 50000 | 1 => 500000 | 2 => 5000000 | 3 => 50000000 | _ => 1000000000

/-- A row of R78: the opcode, the states in which it is legal, and the CAN column. -/
structure OpRow where
  op : Nat
  states : List Mode
  can : Bool
  deriving DecidableEq, Repr

/-- The states from STANDBY on in the order of R78's columns. -/
def allStates : List Mode := [.coppice, .standby, .configured, .armed, .running, .safeStop, .fault]
def fromStandby : List Mode := [.standby, .configured, .armed, .running, .safeStop, .fault]
def toSafeStop : List Mode := [.standby, .configured, .armed, .running, .safeStop]

/-- The CFG_ rows of R78. -/
def opRowsCfg : List OpRow :=
  [⟨0x1001, fromStandby, false⟩, ⟨0x1002, fromStandby, false⟩, ⟨0x1010, [.standby, .configured], false⟩,
   ⟨0x1011, [.standby, .configured], false⟩, ⟨0x1012, [.standby, .configured, .armed, .running], false⟩,
   ⟨0x1020, toSafeStop, false⟩, ⟨0x1021, toSafeStop, false⟩, ⟨0x1022, toSafeStop, false⟩,
   ⟨0x1023, toSafeStop, false⟩, ⟨0x1024, toSafeStop, false⟩, ⟨0x1025, toSafeStop, false⟩,
   ⟨0x1026, toSafeStop, false⟩, ⟨0x1027, toSafeStop, false⟩, ⟨0x1028, toSafeStop, false⟩,
   ⟨0x1030, toSafeStop, false⟩, ⟨0x1031, toSafeStop, false⟩, ⟨0x1032, toSafeStop, false⟩,
   ⟨0x1040, fromStandby, false⟩, ⟨0x1050, [.standby], false⟩, ⟨0x1051, [.configured], false⟩]

/-- The CTL_ rows of R78. -/
def opRowsCtl : List OpRow :=
  [⟨0x2001, [.configured], true⟩, ⟨0x2002, [.armed], true⟩, ⟨0x2003, [.armed], true⟩, ⟨0x2004, [.running], true⟩,
   ⟨0x2010, [.configured, .armed, .running], true⟩, ⟨0x2011, [.armed, .running], true⟩,
   ⟨0x2020, [.configured, .armed, .running], false⟩, ⟨0x2021, [.configured, .safeStop, .fault], false⟩,
   ⟨0x2030, [.standby, .configured], false⟩, ⟨0x2031, [.standby, .configured], false⟩]

/-- The QRY_, SAF_, MNT_ and DIA_ rows of R78. -/
def opRowsRest : List OpRow :=
  [⟨0x3001, allStates, true⟩, ⟨0x3002, allStates, true⟩, ⟨0x3003, allStates, false⟩, ⟨0x3004, allStates, true⟩,
   ⟨0x3005, allStates, false⟩, ⟨0x3006, allStates, false⟩, ⟨0x3007, allStates, false⟩, ⟨0x3008, allStates, false⟩,
   ⟨0x4001, fromStandby, true⟩, ⟨0x4002, [.safeStop], false⟩, ⟨0x4003, [.safeStop, .fault], false⟩,
   ⟨0x4004, [.configured], false⟩, ⟨0x5001, allStates, false⟩, ⟨0x5002, allStates, false⟩,
   ⟨0x5003, [.coppice, .standby, .configured, .safeStop, .fault], false⟩, ⟨0x5010, [.standby], false⟩,
   ⟨0x5011, [.standby, .configured], false⟩, ⟨0x5012, [.standby, .configured, .safeStop, .fault], false⟩,
   ⟨0x6001, allStates, false⟩, ⟨0x6002, allStates, false⟩, ⟨0x6003, [.configured], false⟩,
   ⟨0x6004, allStates, false⟩]

/-- The legality table (R78, R685). -/
def opRows : List OpRow := opRowsCfg ++ opRowsCtl ++ opRowsRest

/-- The row of an opcode, if R78 has it. -/
def opRow (op : Nat) : Option OpRow := opRows.find? fun r => r.op == op

/-- A command is legal in a state when R78 marks it Y there. -/
def legal (m : Mode) (op : Nat) : Bool :=
  match opRow op with
  | some r => r.states.contains m
  | none => false

/-- The codes that R687 marks (L). -/
def latchCodes : List W16 :=
  [0x2002, 0x3002, 0x3041, 0x3042, 0x3043, 0x3044, 0x3051, 0x4021, 0x9021, 0x9022, 0x9029]

end Sys2Proof.Machine
end

