-- ==== Sys2Proof/Machine/Flags.lean ====
section
/-! DEFINITION. The access codes of R8: write one to clear, RWA and TO. -/

namespace Sys2Proof.Machine

/-- W1C: bits of `mask` that are 1 clear the bits of `w` (R8). -/
def w1c {n : Nat} (w mask : BitVec n) : BitVec n := w &&& ~~~mask

/-- The bits [hi:lo] of `new` in place of those of `old`. -/
def takeFld {n : Nat} (old new : BitVec n) (hi lo : Nat) : BitVec n := setFld old hi lo (fld new hi lo)

/-- Whether two words agree outside the mask of the bits that a command may change. -/
def sameOutside {n : Nat} (mask a b : BitVec n) : Bool := decide (a &&& ~~~mask = b &&& ~~~mask)

/-- A TO field whose tighter values are the smaller non-zero ones, 0 being the loosest (R45 HOSTWD, R440). -/
def tighterDown (old new : Nat) : Bool := old == new || (new != 0 && (old == 0 || decide (new < old)))

end Sys2Proof.Machine
end

