-- ==== Sys2Proof/Machine/Mem.lean ====
section
/-! DEFINITION. Sparse memories: reading and writing words in the canonical form. An unlisted address reads 0 (R50 for
queue SRAM; log entry 4 for the others). -/

namespace Sys2Proof.Machine

/-- The canonical form: addresses strictly rising, and no entry equal to 0. -/
abbrev Memory.wf {n : Nat} (m : Mem n) : Prop := m.Pairwise (fun x y => x.1 < y.1) ∧ ∀ x ∈ m, x.2 ≠ 0

/-- The word at an address. -/
def memGet {n : Nat} (m : Mem n) (a : Nat) : BitVec n :=
  match m with
  | [] => 0
  | (b, w) :: t => if b = a then w else memGet t a

/-- The memory with one word written; writing 0 removes the entry. -/
def memSet {n : Nat} (m : Mem n) (a : Nat) (v : BitVec n) : Mem n :=
  match m with
  | [] => if v = 0 then [] else [(a, v)]
  | (b, w) :: t =>
    if a < b then (if v = 0 then (b, w) :: t else (a, v) :: (b, w) :: t)
    else if a = b then (if v = 0 then t else (a, v) :: t)
    else (b, w) :: memSet t a v

/-- Words written one after another. -/
def memPuts {n : Nat} (m : Mem n) : List (Nat × BitVec n) → Mem n
  | [] => m
  | (a, v) :: t => memPuts (memSet m a v) t

/-- Words written at consecutive addresses. -/
def memWrite {n : Nat} (m : Mem n) (a : Nat) : List (BitVec n) → Mem n
  | [] => m
  | v :: t => memWrite (memSet m a v) (a + 1) t

/-- `k` words from consecutive addresses. -/
def memRead {n : Nat} (m : Mem n) (a k : Nat) : List (BitVec n) := (List.range k).map fun i => memGet m (a + i)

/-- The entries with addresses from `lo` to `hi`. -/
def memPart {n : Nat} (m : Mem n) (lo hi : Nat) : Mem n := m.filter fun x => decide (lo ≤ x.1) && decide (x.1 ≤ hi)

/-- The memory with the words from `lo` to `hi` replaced by those of `p`. -/
def memMerge {n : Nat} (m p : Mem n) : Mem n := memPuts m p

end Sys2Proof.Machine
end

