-- ==== Sys2Proof/Machine/Queue.lean ====
section
/-! DEFINITION. The command queues: ring arithmetic (R49, R53), completion and event entries (R58 to R60, R75) and the
interrupt status they set (R73). -/

namespace Sys2Proof.Machine

/-- Depth of a ring (R51). -/
def QueueRec.n (q : QueueRec) : Nat := 16 * 2 ^ q.depth

/-- A completion ring in use. -/
def QueueRec.isCpl (q : QueueRec) : Bool := q.dir == 2

/-- A submission ring in use. -/
def QueueRec.isSub (q : QueueRec) : Bool := q.dir == 1

/-- Entries the other side has not consumed yet: untaken entries of a submission ring, pending completions of a
completion ring (R53, R73). -/
def QueueRec.held (q : QueueRec) : Nat :=
  if q.isSub then (q.hostPtr + q.n - q.icsisPtr) % q.n else (q.icsisPtr + q.n - q.hostPtr) % q.n

/-- Address of slot `k` of queue `n` (R49). -/
def slotAddr (n k : Nat) : Nat := n * 0x4000 + k * 64

/-- Queue `n`. -/
def Io.q (io : Io) (n : Nat) : QueueRec := io.queues.at n

/-- Queue `n` changed. -/
def Io.updQ (io : Io) (n : Nat) (f : QueueRec → QueueRec) : Io := { io with queues := io.queues.upd n f }

/-- Completion slots of ring `n` reserved by outstanding jobs (R60). -/
def Io.reserved (io : Io) (n : Nat) : Nat :=
  (io.jobs.filter fun j => (io.q j.req.ring).pairRing == n).foldl (fun a j => a + j.entries) 0

/-- Free slots of completion ring `n` (R53). -/
def Io.freeSlots (io : Io) (n : Nat) : Nat := (io.q n).n - 1 - (io.q n).held

/-- A bit set in the interrupt status has its enable bit set (R74). -/
def Io.irqPending (io : Io) : Bool := io.irqStat &&& io.irqEn != 0

/-- Bit `i` of the interrupt status set (R73). -/
def Io.raise (io : Io) (i : Nat) : Io := { io with irqStat := setBit io.irqStat i true }

/-- A bit of HP_ERR set; ERR of the interrupt status is set when the bit becomes 1 (R73). -/
def Io.err (io : Io) (i : Nat) : Io :=
  if bit io.hpErr i then io else ({ io with hpErr := setBit io.hpErr i true }).raise 0

/-- One entry written to the next slot of completion ring `n`: offsets 8 to 63 and then 0 to 7, with PHASE of the
present pass; the pointer advances, and PHASE inverts on each later pass (R59). -/
def Io.putEntry (io : Io) (n : Nat) (head : List Byte) (cont : Bool) (body : List Byte) : Io :=
  let q := io.q n
  let a := slotAddr n q.icsisPtr
  let cf := BitVec.ofNat 8 (b2n q.phase + 2 * b2n cont)
  let m := memWrite (memWrite io.qsram (a + 8) (padTo 56 body)) a (padTo 7 head ++ [cf])
  let p := (q.icsisPtr + 1) % q.n
  ({ io with qsram := m }).updQ n fun q =>
    { q with icsisPtr := p, phase := if p = 0 then !q.phase else q.phase,
             timed := if q.held = 0 then false else q.timed }

/-- The 56-byte parts into which a result is cut: the first entry carries the two times and 40 bytes (R58, R60). -/
def entryBodies (times : List Byte) (result : List Byte) : List (List Byte) :=
  (times ++ padTo 40 (result.take 40)) ::
    (List.range ((result.length - 40 + 55) / 56)).map fun k => (result.drop (40 + 56 * k)).take 56

/-- Entries of a result chain of `len` bytes (R60). -/
def entriesOf (len : Nat) : Nat := 1 + (len - 40 + 55) / 56

/-- The entries of one completion written in order, CONT set on every one but the last (R60). -/
def Io.putEntries (io : Io) (n : Nat) (head : List Byte) : List (List Byte) → Io
  | [] => io
  | b :: t => (io.putEntry n head (!t.isEmpty) b).putEntries n head t

/-- The interrupt conditions of R73 after the last entry of a completion has been written. -/
def Io.notify (io : Io) (n : Nat) (irq : Bool) : Io :=
  let q := io.q n
  if irq || (q.irqCount != 0 && decide (q.irqCount ≤ q.held)) then io.raise n else io

/-- A completion (R58): written only while its ring is a completion ring with room for the whole chain. -/
def Io.complete (io : Io) (n : Nat) (op seq status sq : Nat) (tAcc tDone : W64) (result : List Byte) (irq : Bool) : Io :=
  if (io.q n).isCpl && decide (entriesOf result.length ≤ io.freeSlots n) then
    (io.putEntries n (leBytes 2 op ++ leBytes 2 seq ++ leBytes 2 status ++ leBytes 1 sq)
      (entryBodies (leBytes 8 tAcc.toNat ++ leBytes 8 tDone.toNat) result)).notify n irq
  else io

/-- An event entry for one source (R75): written to a free, unreserved slot, or counted. -/
def Io.event (io : Io) (src : Nat) (code : W16) (tFault now : W64) : Io :=
  let n := io.evRing.at src
  let lost := io.evLost.at src
  if n = 0 || !bit io.evMask (fld code 15 12) then io
  else if (io.q n).isCpl && decide (io.reserved n < io.freeSlots n) then
    let body := leBytes 8 now.toNat ++ leBytes 8 now.toNat ++ leBytes 2 code.toNat ++ leBytes 8 tFault.toNat ++ leBytes 2 lost
    ({ io with evLost := io.evLost.put src 0 }.putEntry n (leBytes 2 0xE000 ++ [0, 0] ++ leBytes 2 stEvent.toNat ++ [0])
      false body).notify n false
  else { io with evLost := io.evLost.put src (satInc 65535 lost) }

/-- A record in the fault log, with its event entries (R75, R82, R85). -/
def Io.record (io : Io) (state : Nat) (code : W16) (time : W64) (unit : Nat) (data0 tb : W32) : Io :=
  let lat := latchCodes.contains code
  let num := io.logNum + 1
  let r : FaultRec :=
    { code := code, state := BitVec.ofNat 8 state, rflags := BitVec.ofNat 8 (b2n lat + 2 * b2n io.inj), num := num,
      time := time, unit := BitVec.ofNat 16 unit, data0 := data0, data1 := tb }
  let io := { io with log := (r :: io.log).take 1024, logNum := num, lastFault := code,
                      faultCount := satInc 65535 io.faultCount,
                      latched := if lat && !io.latched.contains code then io.latched ++ [code] else io.latched }
  ((io.event 0 code time time).event 1 code time time).event 2 code time time

/-- Deadline-ordered demand: the remaining costs of the jobs due at most at `d` (R68). -/
def demand (jobs : List Job) (d : Nat) : Nat :=
  (jobs.filter fun j => decide (j.due ≤ d)).foldl (fun a j => a + j.cost) 0

/-- The admission test at the time-base instant `now` (R68): at every deadline d of the jobs with a remaining cost, the
demand is no more than half of what is left after the 10 µs term. Times are quarters of a nanosecond. -/
def admits (jobs : List Job) (now : Nat) (j : Job) : Bool :=
  let all := (j :: jobs).filter fun k => k.cost != 0
  all.all fun k => decide (8 * demand all k.due + now + 40000 ≤ k.due)

end Sys2Proof.Machine
end

