-- ==== Sys2Proof/Machine/Ops.lean ====
section
/-! DEFINITION. The named operations every chapter's meaning is made of: the clock, fault records, state events, and the
completion of jobs. -/

namespace Sys2Proof.Machine

/-- A fresh free value, and the state that has taken it. -/
def freeVal (s : State) : Nat := Config.freeNat s.free
def freeTaken (s : State) : State := { s with free := s.free + 1 }

/-- The time in the layout of T_ACC (R58). -/
def Clock.stamp (c : Clock) : W64 := BitVec.ofNat 64 ((c.sec.toNat % 2 ^ 32) * 2 ^ 32 + c.ns.toNat)

/-- CLK_PWM cycles of the time base (R271). -/
def Clock.cycles (c : Clock) : Nat := c.tb / 5

/-- The low 32 bits of the time base (R82). -/
def Clock.tb32 (c : Clock) : W32 := BitVec.ofNat 32 c.cycles

/-- The local clock moved to a sum of nanoseconds, with the carry or borrow into SECONDS decided once (R592, R593). -/
def Clock.carry (c : Clock) (v : Int) (frac : W32) : Clock :=
  { c with sec := BitVec.ofInt 48 ((c.sec.toNat : Int) + v / 1000000000), ns := BitVec.ofInt 30 (v % 1000000000), frac := frac }

/-- One CLK_NET tick of the local clock: TIM_INC is added, then a pending one-shot offset; a pending TIM_INC takes
effect from this tick (R592, R593). -/
def Clock.tick (c : Clock) : Clock :=
  let inc := c.incNext.getD c.inc
  let sum := c.frac.toNat + inc.toNat
  let c := { c with inc := inc, incNext := none, offset := none, tb := c.tb + 32 }.carry
    ((c.ns.toNat : Int) + ((sum / 2 ^ 32 : Nat) : Int) + c.offset.getD 0) (BitVec.ofNat 32 sum)
  c

/-- The earliest deadline among the outstanding jobs that still have work (R66). -/
def earliest (jobs : List Job) : Option Nat := ((jobs.filter fun j => j.cost != 0).map Job.due).min?

/-- One tick's execution, 4 ns, given to the first outstanding job of the earliest deadline (R66; log entry 3). -/
def tickJobs (jobs : List Job) (d : Nat) : List Job :=
  match jobs with
  | [] => []
  | j :: t => if j.due = d && j.cost != 0 then { j with cost := j.cost - 4 } :: t else j :: tickJobs t d

/-- One CLK_NET cycle of the always-on seconds count (R104). -/
def Aon.tick (a : Aon) : Aon :=
  if a.ticks + 1 < 125000000 then { a with ticks := a.ticks + 1 } else { a with ticks := 0, secs := a.secs + 1 }

/-- The tick of an idle step: the clocks advance by one CLK_NET cycle (log entry 3). -/
def tick (s : State) : State :=
  { s with clk := s.clk.tick
           aon := s.aon.tick
           io := { s.io with jobs := match earliest s.io.jobs with | some d => tickJobs s.io.jobs d | none => s.io.jobs } }

/-- The present time in the layout of T_ACC. -/
def now (s : State) : W64 := s.clk.stamp

/-- A state event put among those that wait for evaluation (R96). -/
def arrive (s : State) (k : EvKind) (cause : W16) : State :=
  { s with drv := { s.drv with events := s.drv.events ++ [⟨k, cause⟩] } }

/-- A fault record at an instant of its own (R82); a code marked (L) is a state event (R95), and a trace armed for its
class sees it (R89). -/
def recordAt (s : State) (code : W16) (unit : Nat) (data0 : W32) (time : W64) : State :=
  let s := { s with io := s.io.record s.drv.st.code code time unit data0 s.clk.tb32
                    trc := if bit s.trc.cap.stat 31 && s.trc.tmode == 3 && fld code 15 12 == s.trc.tclass
                      then { s.trc with hit := true } else s.trc }
  if latchCodes.contains code && !s.io.inj then arrive s .latch code else s

/-- A fault record now. -/
def record (s : State) (code : W16) (unit : Nat) (data0 : W32) : State := recordAt s code unit data0 (now s)

/-- UNIT of a record that concerns no instance (R82). -/
def noUnit : Nat := 0xFFFF

/-- Icsis takes descriptors and applies jobs: every state from COPPICE on, except a degraded pair and a halted one
(R77, R494, R505), nor one that has been entered by scan (R524). -/
def serving (s : State) : Bool :=
  s.drv.st != .off && s.drv.st != .boot && !s.icp.dead && !s.icp.held && !s.icp.dbg && !s.prn.scan

/-- The host port is up: BOOT has begun and VIO lies in its window (R77, R690). -/
def portUp (s : State) : Bool := s.drv.st != .off && !bit s.sup.railOut 6

/-- Flash may be written: VFLASH lies in its window (R537). -/
def flashOk (s : State) : Bool := !bit s.sup.railOut 4

/-- A checkpoint seals: CPNUM counts, REC returns to 0, the output buffer leaves (R488, R489, R494). There is none in
BOOT and COPPICE (R495, R496). -/
def sealCp (s : State) : State :=
  if s.drv.st == .coppice || s.drv.st == .boot || s.drv.st == .off then s
  else { s with icp := { s.icp with cpnum := s.icp.cpnum + 1, recur := 0, undo := 0, outbuf := 0 } }

/-- The outstanding job that a command applies: the one whose descriptor, as it was copied at the take, is the command's (R57). SEQ
is the host's free choice (R54), so ring, opcode and SEQ alone name no job; of two equal descriptors the one taken first is meant. -/
def jobOf (s : State) (op : Nat) (r : Req) : Option Job :=
  s.io.jobs.find? fun j => j.opcode.toNat == op && j.req == r

/-- It is the turn of a command's job (R66): no outstanding job that still has work has an earlier deadline. A command without an
outstanding job is taken and applied at one instant (log entry 25). -/
def myTurn (s : State) (op : Nat) (r : Req) : Bool :=
  match jobOf s op r with
  | some j => s.io.jobs.all fun k => k.cost == 0 || decide (j.due ≤ k.due)
  | none => true

/-- A command's job is applied now: Icsis serves, R78 marks the opcode legal (R69, R77), and its turn has come (R66). -/
def jobRuns (s : State) (op : Nat) (r : Req) : Bool := serving s && legal s.drv.st op && myTurn s op r

/-- The entry of R58 in the paired ring of a descriptor's submission ring. -/
def writeDone (s : State) (op : Nat) (r : Req) (acc : W64) (st : W16) (result : List Byte) : State :=
  { s with io := if (s.io.q r.ring).isSub then
      s.io.complete (s.io.q r.ring).pairRing op r.seq.toNat st.toNat r.ring acc (now s) result (bit r.flags 1) else s.io }

/-- The outstanding job that a completion ends is outstanding no longer. -/
def jobGone (s : State) (op : Nat) (r : Req) : State :=
  match jobOf s op r with
  | some j => { s with io := { s.io with jobs := s.io.jobs.erase j } }
  | none => s

/-- The completion of a job, without a checkpoint: its entry with the job's T_ACC, and the job no longer outstanding. -/
def completeRaw (s : State) (op : Nat) (r : Req) (st : W16) (result : List Byte) : State :=
  writeDone (jobGone s op r) op r (match jobOf s op r with | some j => j.tAcc | none => now s) st result

/-- The completion of a job behind the checkpoint that R71 asks for. -/
def complete (s : State) (op : Nat) (r : Req) (st : W16) (result : List Byte) : State :=
  completeRaw (sealCp s) op r st result

/-- How the application of an accepted job ends (R69): refused before its instant, or done. -/
inductive Done where
  | refuse (st : W16)
  | done (s : State) (st : W16) (result : List Byte)

/-- A job that completes with ST_OK and no result. -/
def ok (s : State) : Done := .done s stOk []

/-- A check made before the instant of application (R69). -/
def guardSt (c : Bool) (st : W16) (k : Done) : Done := if c then k else .refuse st

/-- The completion of a descriptor refused at its take, T_ACC the present instant; no outstanding job changes (R64). -/
def refuseTake (s : State) (op : Nat) (r : Req) (st : W16) (result : List Byte) : State :=
  writeDone (sealCp s) op r (now s) st result

/-- The application of an accepted job (R69 to R71): nothing is taken in OFF, BOOT or by a pair that does not run; in a
state where the command is not legal it completes with ST_PREEMPTED if it was accepted before, and with ST_STATE
otherwise (R64, R65, R70); a job whose turn has not come waits (R66). -/
def runJob (op : Nat) (r : Req) (s : State) (body : Done) : State :=
  if !serving s then s
  else if !legal s.drv.st op then
    if (jobOf s op r).isSome then complete s op r stPreempted []
    else complete s op r stState [BitVec.ofNat 8 s.drv.st.code]
  else if !myTurn s op r then s
  else match body with
    | .refuse st => complete s op r st []
    | .done s' st result => complete s' op r st result

end Sys2Proof.Machine
end

