-- ==== Sys2Proof/Machine/Placement.lean ====
section
/-! DEFINITION. What a context of an image uses, writes and reads, as its slot words and its laws say (R118, R119, R127, R137 to
R140, R190 to R192, R224, R343, R344). -/

namespace Sys2Proof.Machine

/-- OP and ADDR of a slot word (R118). -/
def wordOp (w : W64) : Nat := fld w 63 58
def wordAddr (w : W64) : Nat := fld w 39 25

/-- Logical cells that a context uses, as block of its region and cell (R127). -/
def imgCells (i : CtxImg) : List (Nat × Nat) := (i.runs.map fun r => (r.block, r.cell)).dedup

/-- Its slot words, and those of one operation. -/
def imgWords (i : CtxImg) : List W64 := i.runs.flatMap CellRun.words
def opWords (op : Nat) (i : CtxImg) : List W64 := (imgWords i).filter fun w => wordOp w == op

/-- REGION of an image's context. -/
def imgRegion (i : CtxImg) : Nat := fld i.ctrl 29 28

/-- Shadow numbers that a law writes, and the units in its load-all (R190 step 11, R219). -/
def lawShadows (l : LawInst) : List Nat :=
  match l.kind with
  | .foc3 | .foc6 => l.legs.map fun k => 4 * k
  | .fcs6 => [0x30]
  | _ => []
def lawUnits (l : LawInst) : List Nat :=
  match l.kind with
  | .foc3 | .foc6 | .fcs6 => l.legs
  | _ => []

/-- Shadow numbers that a context writes, and units that its load-alls name (R343, R344). -/
def imgShadows (i : CtxImg) : List Nat := ((opWords 0x2C i).map (fun w => fld w 32 25) ++ i.laws.flatMap lawShadows).dedup
def imgLdall (i : CtxImg) : List Nat :=
  ((opWords 0x2D i).flatMap (fun w => (List.range 8).filter fun u => bit w u) ++ i.laws.flatMap lawUnits).dedup

/-- An address in the signal area (R135). -/
def inSignal (a : Nat) : Bool := decide (0x400 ≤ a) && decide (a < 0x1000)

/-- The words at which a law publishes its signals (R164, R169, R180, R192, R212, R224). -/
def lawSignals (l : LawInst) : List Nat :=
  let n (k : Nat) : List Nat := (List.range k).map fun j => l.sigBase + j
  match l.kind with
  | .piSch | .pid | .notch3 => n 1
  | .foc3 | .foc6 => n 9 ++ l.ulimSrc
  | .fcs6 => n 9
  | .harm => n 16
  | .dmd => n 5

/-- The signal words that a context writes (R139). -/
def imgSignals (i : CtxImg) : List Nat := ((opWords 0x26 i).map wordAddr ++ i.laws.flatMap lawSignals).filter inSignal

/-- The region and the word that an address of a law's source names: below 0x8000 a word of its own region, from
(1 + g) × 0x8000 on a word of region g (R140; log entry 60). -/
def srcWord (own a : Nat) : Nat × Nat := if a < 0x8000 then (own, a) else ((a / 0x8000 - 1) % 4, a % 0x8000)

/-- Source addresses that a law latches by itself (R163, R190, R226). -/
def lawSources (l : LawInst) : List Nat :=
  (l.srcs.flatMap fun p => [p.refSrc, p.measSrc]) ++ [l.schedSrc, l.spdSrc, l.trefSrc]

/-- The LD slots of a run with the words that they read (R119, R140; log entry 60). -/
def runLoads (own : Nat) (r : CellRun) : List (Nat × Nat) :=
  r.words.zipIdx.filterMap fun p => if wordOp p.1 = 0x25 then some ((r.cross.lookup p.2).getD own, wordAddr p.1) else none

/-- Region words that a context reads by its slots and by its laws' sources. -/
def imgLoads (i : CtxImg) : List (Nat × Nat) :=
  i.runs.flatMap (runLoads (imgRegion i)) ++ (i.laws.flatMap lawSources).map (srcWord (imgRegion i))

/-- Stream entries that a context reads: those named as inputs, and those that its slots and laws load (R136, R137). -/
def imgEntries (i : CtxImg) : List Nat :=
  let loads := (imgLoads i).filterMap fun q => if q.2 < 0x400 then some (q.2 / 2) else none
  let entries := i.laws.flatMap fun l => l.curSrc ++ l.angSrc.toList
  (i.inputs ++ loads ++ entries).dedup

/-- The kinds of law that hold a current loop (R187). -/
def isCurrent (k : LawKind) : Bool := k == .foc3 || k == .foc6 || k == .fcs6

/-- Contexts whose published words a context's current loop latches beside its own sources: the DMD of its machine (R190 step
3) and the harmonic set that it names (R213). -/
def imgPeers (l : List CtxImg) (i : CtxImg) : List Nat :=
  let cur := i.laws.filter fun q => isCurrent q.kind
  ((l.filter fun j => j.laws.any fun q => q.kind == .dmd && cur.any fun c => c.machine == q.machine).map CtxImg.num)
    ++ cur.filterMap LawInst.harmCtx

/-- The words of an operation memory that a context's runs fill: bank × 256 + slot, in block `k` (R126, R127). -/
def runWords (r : CellRun) : List (Nat × W64) := r.words.zipIdx.map fun p => (r.cell * 256 + r.first + p.2, p.1)
def imgBlockWords (i : CtxImg) (k : Nat) : List (Nat × W64) :=
  if imgRegion i = k / 4 then (i.runs.filter fun r => r.block == k % 4).flatMap runWords else []
def blockWords (b : ImageBody) (k : Nat) : List (Nat × W64) := b.contexts.flatMap fun i => imgBlockWords i k

/-- The initial words of a region memory: what the image gives, and each context's parameters at their words (R135, R143, R156;
log entry 61). -/
def imgParamWords (i : CtxImg) : List (Nat × W18) := (List.range 16).map fun k => (i.parBase + k, w18 (i.params.getD k 0))
def regionWords (b : ImageBody) (g : Nat) : List (Nat × W18) :=
  ((b.rmem.filter fun p => p.1 / 32768 == g && decide (0x400 ≤ p.1 % 32768)).map fun p => (p.1 % 32768, p.2))
    ++ (b.contexts.filter fun i => imgRegion i == g).flatMap imgParamWords

end Sys2Proof.Machine
end

