-- ==== Sys2Proof/Machine/Trig.lean ====
section
/-! DEFINITION. Sine, cosine, angle and square root as exact floors, from which results inside the error bounds of R119
and R300 are taken. -/

namespace Sys2Proof.Machine

/-- π in units of 2^-64, rounded down. -/
def piScaled : Nat := 57952155664616982739

/-- Terms of the sine series at scale 2^64: `t` is the last term, `x2` the square of the angle. -/
def sinTerms (x2 : Nat) : Nat → Nat → Nat → Int → Int
  | 0, _, _, acc => acc
  | fuel + 1, k, t, acc =>
    let t' := t * x2 / 2 ^ 64 / ((2 * k) * (2 * k + 1))
    sinTerms x2 fuel (k + 1) t' (if k % 2 = 1 then acc - t' else acc + t')

/-- Sine of `a` counts (0 to 65,536, a quarter turn) at scale 2^64. -/
def sinQuarter (a : Nat) : Int :=
  if a = 65536 then 2 ^ 64 else
  let x := a * piScaled * 2 / 262144
  sinTerms (x * x / 2 ^ 64) 13 1 x x

/-- Sine of an angle at scale 2^64. -/
def sinScaled (a : Nat) : Int :=
  let a := a % 262144
  if a ≤ 65536 then sinQuarter a else if a ≤ 131072 then sinQuarter (131072 - a)
  else if a ≤ 196608 then -sinQuarter (a - 131072) else -sinQuarter (262144 - a)

/-- Cosine of an angle at scale 2^64. -/
def cosScaled (a : Nat) : Int := sinScaled (a + 65536)

/-- The largest word not above the sine, and whether the sine is that word exactly. -/
def sinWord (a : Nat) : Int × Bool := (sinScaled a * 131072 / 2 ^ 64, a % 65536 == 0)
def cosWord (a : Nat) : Int × Bool := sinWord (a + 65536)

/-- Bisection for the angle of (x, y) in the first quadrant: the largest multiple of the step not above it. -/
def angleBits (x y : Int) : Nat → Nat → Nat
  | 0, a => a
  | k + 1, a =>
    let b := a + 2 ^ k
    if b ≤ 65536 && decide (x * sinScaled b ≤ y * cosScaled b) then angleBits x y k b else angleBits x y k a

/-- The largest count not above the angle of the vector (x, y), in 0 to 262,143, and whether it is exact. -/
def angleFloor (x y : Int) : Nat × Bool :=
  let ex := x = 0 || y = 0 || x = y || x = -y
  if 0 ≤ y then
    if 0 ≤ x then (angleBits x y 17 0, ex)
    else (65536 + angleBits y (-x) 17 0, ex)
  else
    if x < 0 then (131072 + angleBits (-x) (-y) 17 0, ex)
    else ((196608 + angleBits (-y) x 17 0) % 262144, ex)

/-- Integer square root, bit by bit. -/
def sqrtBits (v : Nat) : Nat → Nat → Nat
  | 0, r => r
  | k + 1, r => if (r + 2 ^ k) * (r + 2 ^ k) ≤ v then sqrtBits v k (r + 2 ^ k) else sqrtBits v k r

/-- The largest number whose square is at most `v`, for `v` below 2^128. -/
def isqrt (v : Nat) : Nat := sqrtBits v 64 0

/-- The square root of an integer rounded to the nearest integer; a tie cannot arise. -/
def sqrtRound (v : Nat) : Nat := let r := isqrt v; if r * r + r < v then r + 1 else r

/-- A result with an error of at most `e` counts, chosen by the free value `n`: one of the integers within `e` of the
exact value that lies at or just above `f`. -/
def within (e : Nat) (f : Int × Bool) (n : Nat) : Int :=
  if f.2 then f.1 - e + ((n % (2 * e + 1) : Nat) : Int) else f.1 - e + 1 + ((n % (2 * e) : Nat) : Int)

end Sys2Proof.Machine
end

