-- ==== Sys2Proof/Machine/Cells.lean ====
section
/-! DEFINITION. The Thicket cells: slot words (R118), operands, region memory as an activation sees it (R135 to R139),
and the operations of R119 but WCMP and LDALL, which stand with the PWM generator. -/

namespace Sys2Proof.Machine

/-- A context changed. -/
def updCtx (s : State) (c : Nat) (f : Ctx → Ctx) : State := { s with thk := { s.thk with ctxs := s.thk.ctxs.upd c f } }

/-- A block changed. -/
def updBlock (s : State) (b : Nat) (f : Block → Block) : State := { s with thk := { s.thk with blocks := s.thk.blocks.upd b f } }

/-- A context. -/
def ctxAt (s : State) (c : Nat) : Ctx := s.thk.ctxs.at c

/-- CTX_CTRL.REGION, OUT_PWM, EN (R144) and CTX_STATUS.LOST (R150). -/
def Ctx.region (x : Ctx) : Nat := fld x.ctrl 29 28
def Ctx.outPwm (x : Ctx) : Bool := bit x.ctrl 30
def Ctx.en (x : Ctx) : Bool := bit x.ctrl 31
def Ctx.lost (x : Ctx) : Bool := bit x.status 7

/-- The physical cell mapped to logical cell `k` of a block (R130). -/
def Block.phys (b : Block) (k : Nat) : Nat := fld b.lmap (4 * k + 3) (4 * k)

/-- Logical cell `k` is mapped (R130). -/
def Block.mapped (b : Block) (k : Nat) : Bool := bit b.map (32 + k)

/-- A cell of a block changed. -/
def updCell (s : State) (b p : Nat) (f : Cell → Cell) : State := updBlock s b fun x => { x with cells := x.cells.upd p f }

/-- A double bank of a region memory (R138, R139). -/
def bankOf (t : Thicket) (g : Nat) (b : Bool) : Mem 18 := if b then t.rmemB.at g else t.rmem.at g

/-- A word of a region's bank written. -/
def putBank (s : State) (g : Nat) (b : Bool) (a : Nat) (v : W18) : State :=
  if b then { s with thk := { s.thk with rmemB := s.thk.rmemB.upd g fun m => memSet m a v } }
  else { s with thk := { s.thk with rmem := s.thk.rmem.upd g fun m => memSet m a v } }

/-- The bank of a signal word that an activation reads: the one it latched for the word's writer, or else the
writer's published one (R139). -/
def signalBank (s : State) (g a : Nat) (act : Activation) : Bool :=
  let o := (memGet (s.thk.sigOwner.at g) a).toNat
  if o = 0 then false else
    match act.held.find? fun h => h.1 == o - 1 with
    | some h => h.2
    | none => (ctxAt s (o - 1)).pubBank

/-- The region word at `a` of region `g` as an activation of context `c` reads it: a stream word as it stands, a signal
word from the latched bank, a state word from the bank that the activation reads (R135, R138, R139). -/
def ctxLoad (s : State) (c g a : Nat) (act : Activation) : W18 :=
  if a < 0x400 then memGet (s.thk.rmem.at g) a
  else if a < 0x1000 then memGet (bankOf s.thk g (signalBank s g a act)) a
  else memGet (bankOf s.thk g (ctxAt s c).stBank) a

/-- A region word written by an activation of context `c`: a signal word waits for the normal completion, a state word goes into
the bank that the activation does not read; the stream area is not the context's to write (R135, R138, R139). -/
def ctxStore (s : State) (c a : Nat) (v : W18) : State :=
  if a < 0x400 then s
  else if inSignal a then updCtx s c fun x => { x with act := x.act.map fun q => { q with sig := (a, v) :: q.sig } }
  else putBank s (ctxAt s c).region (!(ctxAt s c).stBank) a v

/-- Priority of two contexts (R122): the class, and then the lower number. -/
def outranks (s : State) (a b : Nat) : Bool :=
  let p (c : Nat) : Nat := fld (ctxAt s c).ctrl 27 26
  decide (p a < p b) || (p a == p b && decide (a < b))

/-- The activation of a context is preempted on a logical cell of its region (R122). -/
def isPreempted (s : State) (c : Nat) (cell : Nat × Nat) : Bool :=
  s.thk.preempted.any fun p => p.ctx == c && p.block == cell.1 && p.lcell == cell.2

/-- An activation has a part on a logical cell that has not ended. -/
def Activation.open_ (a : Activation) (cell : Nat × Nat) : Bool := (a.pos.lookup cell).isSome && !a.ended.contains cell

/-- Another context keeps `c` off a logical cell (R122): one that is at work there, or a released one of higher priority where `c`
has not begun or stands behind a slot marked PP (log entry 63). -/
def keptOff (s : State) (c : Nat) (cell : Nat × Nat) (a : Activation) : Bool :=
  (List.range 160).any fun d =>
    match (ctxAt s d).act with
    | none => false
    | some q =>
      d != c && (ctxAt s d).region == (ctxAt s c).region && q.open_ cell && !isPreempted s d cell
        && (q.started.contains cell || (outranks s d c && (!a.started.contains cell || a.pp.contains cell)))

/-- Context `c` issues the slot word `w` of an operation on a logical cell: the activation is under way there and neither preempted nor
kept off, the cell is mapped and in service, and `w` is the word that it fetches next from the cell's bank (R118, R120, R122, R127,
R128). Block, physical cell and activation. -/
def slotRuns (op : Nat) (c : CellSel) (w : W64) (s : State) : Option (Nat × Nat × Activation) :=
  let x := ctxAt s c.ctx.val
  let b := x.region * 4 + c.block.val
  let blk := s.thk.blocks.at b
  let cell := (c.block.val, c.lcell.val)
  match x.act with
  | none => none
  | some a =>
    match a.pos.lookup cell with
    | none => none
    | some n =>
      if memGet blk.op (c.lcell.val * 256 + n) = w && wordOp w = op && blk.mapped c.lcell.val && bit blk.map (48 + blk.phys c.lcell.val)
          && !a.ended.contains cell && !isPreempted s c.ctx.val cell && !keptOff s c.ctx.val cell a
      then some (b, blk.phys c.lcell.val, a) else none

/-- COND of the slot word (R118, R121); the reserved value never holds. -/
def condMet (w : W64) (cell : Cell) : Bool :=
  match fld w 19 18 with
  | 0 => true
  | 1 => cell.p
  | 2 => !cell.p
  | _ => false

/-- A link's input queue, and the cell with that queue replaced (R112). -/
def Cell.queue (x : Cell) (l : Nat) : List W18 := if l = 0 then x.qPrev else if l = 1 then x.qNext else if l = 2 then x.qPair else []
def Cell.setQueue (x : Cell) (l : Nat) (q : List W18) : Cell :=
  if l = 0 then { x with qPrev := q } else if l = 1 then { x with qNext := q } else if l = 2 then { x with qPair := q } else x

/-- Operand B (BSEL of R118) with the cell after it; none while a link holds no word, so that the slot waits (R120). -/
def operandB (s : State) (b k : Nat) (w : W64) (cell : Cell) : Option (Int × Cell) :=
  match fld w 41 40 with
  | 0 => some (s18 (cell.x.at (fld w 46 42)), cell)
  | 1 => some (s18 (memGet (s.thk.blocks.at b).coef (k * 512 + fld w 33 25)), cell)
  | 2 => some (s18 (BitVec.ofNat 18 (fld w 17 0)), cell)
  | _ =>
    match cell.queue (fld w 21 20) with
    | v :: q => some (s18 v, cell.setQueue (fld w 21 20) q)
    | [] => none

/-- X[RA]. -/
def srcA (w : W64) (cell : Cell) : Int := s18 (cell.x.at (fld w 51 47))

/-- X[i] set to a value, saturated (R116). -/
def Cell.setX (x : Cell) (i : Nat) (v : Int) : Cell := { x with x := x.x.put i (w18 (sat18 v)) }

/-- The accumulator as a signed integer, and a sum brought into its range, with whether SAT is set (R114). -/
def Cell.accI (x : Cell) : Int := x.acc.toInt
def sat48 (v : Int) : Int := clampI (-(2 ^ 47)) (2 ^ 47 - 1) v
def Cell.setAcc (x : Cell) (v : Int) : Cell := { x with acc := BitVec.ofInt 48 (sat48 v) }

/-- The accumulator converted to a word before saturation: A × 2^s / 2^17, ties away from zero (R115). -/
def rndAcc (a : Int) (sh : Nat) : Int := rndDiv (a * 2 ^ sh) (2 ^ 17)

/-- An activation after a slot on a logical cell: the cell has started and stands at the next slot, behind a PP mark or not (R120,
R122, R132). -/
def Activation.advance (a : Activation) (cell : Nat × Nat) (pp : Bool) : Activation :=
  { a with started := if a.started.contains cell then a.started else cell :: a.started
           pos := a.pos.map fun p => if p.1 == cell then (p.1, p.2 + 1) else p
           pp := if pp then cell :: a.pp.filter (· != cell) else a.pp.filter (· != cell) }

/-- A slot's context after it: SAT is set where the slot saturated (R117), and the cell goes on to its next slot. -/
def slotDone (s : State) (c : CellSel) (w : W64) (sat : Bool) : State :=
  updCtx s c.ctx.val fun x =>
    { x with status := if sat then setBit x.status 0 true else x.status
             act := x.act.map fun a => a.advance (c.block.val, c.lcell.val) (bit w 57) }

/-- A link queue that an activation uses, to be emptied at its end (R123). -/
def useLink (s : State) (c : Nat) (l : Nat × Nat × Nat) : State :=
  updCtx s c fun x => { x with act := x.act.map fun a => if a.links.contains l then a else { a with links := l :: a.links } }

/-- A slot that works on registers only, without operand B: `f` gives the cell after it and whether it saturated. A slot whose
condition is not met writes and sets nothing (R117, R121). -/
def slotA (op : Nat) (c : CellSel) (w : W64) (s : State) (f : Cell → Cell × Bool) : State :=
  match slotRuns op c w s with
  | none => s
  | some (b, p, _) =>
    let cell := ((s.thk.blocks.at b).cells).at p
    if condMet w cell then slotDone (updCell s b p fun _ => (f cell).1) c w (f cell).2
    else slotDone s c w false

/-- A slot with operand B: it waits while a link holds no word. The condition decides only whether the result is written, so the
word of a link is taken all the same (R120, R121). -/
def slotB (op : Nat) (c : CellSel) (w : W64) (s : State) (f : Cell → Int → Cell × Bool) : State :=
  match slotRuns op c w s with
  | none => s
  | some (b, p, _) =>
    let cell := ((s.thk.blocks.at b).cells).at p
    match operandB s b c.lcell.val w cell with
    | none => s
    | some (v, cell') =>
      let s := if fld w 41 40 = 3 then useLink s c.ctx.val (b, c.lcell.val, fld w 21 20) else s
      if condMet w cell then slotDone (updCell s b p fun _ => (f cell' v).1) c w (f cell' v).2
      else slotDone (updCell s b p fun _ => cell') c w false

/-- RD of the slot word. -/
def slotRd (w : W64) : Nat := fld w 56 52

/-- The outcome "X[RD] takes a value, saturated" (R116). -/
def toRd (w : W64) (cell : Cell) (v : Int) : Cell × Bool := (cell.setX (slotRd w) v, sats18 v)

/-- The outcome "ACC takes a value, saturated" (R114). -/
def toAcc (cell : Cell) (v : Int) : Cell × Bool := (cell.setAcc v, decide (sat48 v ≠ v))

/-- NOP (R119). -/
def execOpNop (c : CellSel) (w : W64) (s : State) : Host.Outcome State Fault Refusal :=
  .next (slotA 0x00 c w s fun cell => (cell, false))

/-- WAIT (R119): the idle cycles are time only. -/
def execOpWait (c : CellSel) (w : W64) (s : State) : Host.Outcome State Fault Refusal :=
  .next (slotA 0x01 c w s fun cell => (cell, false))

/-- END: the logical cell's part of the activation ends (R119, R132, R149), and an activation it had preempted resumes (R122). END
writes no result, so its condition has no say (R121; log entry 63). -/
def execOpEnd (c : CellSel) (w : W64) (s : State) : Host.Outcome State Fault Refusal :=
  match slotRuns 0x02 c w s with
  | none => .next s
  | some _ =>
    let s := updCtx (slotDone s c w false) c.ctx.val fun x =>
      { x with act := x.act.map fun a => { a with ended := (c.block.val, c.lcell.val) :: a.ended } }
    .next { s with thk := { s.thk with preempted := s.thk.preempted.filter fun q =>
      !(q.by_ == c.ctx.val && q.block == c.block.val && q.lcell == c.lcell.val) } }

/-- LDACC: ACC ← X[RA] × 2^17. -/
def execOpLdacc (c : CellSel) (w : W64) (s : State) : Host.Outcome State Fault Refusal :=
  .next (slotA 0x04 c w s fun cell => toAcc cell (srcA w cell * 2 ^ 17))

/-- MUL: ACC ← X[RA] × B, exact (R114). -/
def execOpMul (c : CellSel) (w : W64) (s : State) : Host.Outcome State Fault Refusal :=
  .next (slotB 0x05 c w s fun cell v => toAcc cell (srcA w cell * v))

/-- MAC: ACC ← ACC + X[RA] × B (R114). -/
def execOpMac (c : CellSel) (w : W64) (s : State) : Host.Outcome State Fault Refusal :=
  .next (slotB 0x06 c w s fun cell v => toAcc cell (cell.accI + srcA w cell * v))

/-- MSU: ACC ← ACC − X[RA] × B (R114). -/
def execOpMsu (c : CellSel) (w : W64) (s : State) : Host.Outcome State Fault Refusal :=
  .next (slotB 0x07 c w s fun cell v => toAcc cell (cell.accI - srcA w cell * v))

/-- RND: X[RD] ← ACC converted under R115 with s = SH. -/
def execOpRnd (c : CellSel) (w : W64) (s : State) : Host.Outcome State Fault Refusal :=
  .next (slotA 0x08 c w s fun cell => toRd w cell (rndAcc cell.accI (fld w 24 20)))

/-- ADD: X[RD] ← X[RA] + B. -/
def execOpAdd (c : CellSel) (w : W64) (s : State) : Host.Outcome State Fault Refusal :=
  .next (slotB 0x0A c w s fun cell v => toRd w cell (srcA w cell + v))

/-- SUB: X[RD] ← X[RA] − B. -/
def execOpSub (c : CellSel) (w : W64) (s : State) : Host.Outcome State Fault Refusal :=
  .next (slotB 0x0B c w s fun cell v => toRd w cell (srcA w cell - v))

/-- NEG: X[RD] ← −X[RA], saturated (R116). -/
def execOpNeg (c : CellSel) (w : W64) (s : State) : Host.Outcome State Fault Refusal :=
  .next (slotA 0x0C c w s fun cell => toRd w cell (-srcA w cell))

/-- ABS: X[RD] ← |X[RA]|, saturated (R116). -/
def execOpAbs (c : CellSel) (w : W64) (s : State) : Host.Outcome State Fault Refusal :=
  .next (slotA 0x0D c w s fun cell => toRd w cell |srcA w cell|)

/-- MIN: X[RD] ← the smaller of X[RA] and B. -/
def execOpMin (c : CellSel) (w : W64) (s : State) : Host.Outcome State Fault Refusal :=
  .next (slotB 0x0E c w s fun cell v => toRd w cell (if srcA w cell ≤ v then srcA w cell else v))

/-- MAX: X[RD] ← the larger of X[RA] and B. -/
def execOpMax (c : CellSel) (w : W64) (s : State) : Host.Outcome State Fault Refusal :=
  .next (slotB 0x0F c w s fun cell v => toRd w cell (if v ≤ srcA w cell then srcA w cell else v))

/-- LIM: X[RD] ← X[RA] clamped to −|B| to |B|. -/
def execOpLim (c : CellSel) (w : W64) (s : State) : Host.Outcome State Fault Refusal :=
  .next (slotB 0x10 c w s fun cell v => toRd w cell (clampI (-|v|) |v| (srcA w cell)))

/-- SHL: X[RD] ← X[RA] × 2^SH. -/
def execOpShl (c : CellSel) (w : W64) (s : State) : Host.Outcome State Fault Refusal :=
  .next (slotA 0x11 c w s fun cell => toRd w cell (srcA w cell * 2 ^ fld w 24 20))

/-- SHR: X[RD] ← X[RA] / 2^SH, rounded as R115. -/
def execOpShr (c : CellSel) (w : W64) (s : State) : Host.Outcome State Fault Refusal :=
  .next (slotA 0x12 c w s fun cell => toRd w cell (rndDiv (srcA w cell) (2 ^ fld w 24 20)))

/-- CMPLT: P ← (X[RA] < B). -/
def execOpCmplt (c : CellSel) (w : W64) (s : State) : Host.Outcome State Fault Refusal :=
  .next (slotB 0x14 c w s fun cell v => ({ cell with p := decide (srcA w cell < v) }, false))

/-- CMPGE: P ← (X[RA] ≥ B). -/
def execOpCmpge (c : CellSel) (w : W64) (s : State) : Host.Outcome State Fault Refusal :=
  .next (slotB 0x15 c w s fun cell v => ({ cell with p := decide (v ≤ srcA w cell) }, false))

/-- CMPEQ: P ← (X[RA] = B). -/
def execOpCmpeq (c : CellSel) (w : W64) (s : State) : Host.Outcome State Fault Refusal :=
  .next (slotB 0x16 c w s fun cell v => ({ cell with p := decide (srcA w cell = v) }, false))

/-- SEL: X[RD] ← X[RA] if P = 1, else B. -/
def execOpSel (c : CellSel) (w : W64) (s : State) : Host.Outcome State Fault Refusal :=
  .next (slotB 0x17 c w s fun cell v => toRd w cell (if cell.p then srcA w cell else v))

/-- AND, bitwise. -/
def execOpAnd (c : CellSel) (w : W64) (s : State) : Host.Outcome State Fault Refusal :=
  .next (slotB 0x18 c w s fun cell v => toRd w cell (s18 (w18 (srcA w cell) &&& w18 v)))

/-- OR, bitwise. -/
def execOpOr (c : CellSel) (w : W64) (s : State) : Host.Outcome State Fault Refusal :=
  .next (slotB 0x19 c w s fun cell v => toRd w cell (s18 (w18 (srcA w cell) ||| w18 v)))

/-- XOR, bitwise. -/
def execOpXor (c : CellSel) (w : W64) (s : State) : Host.Outcome State Fault Refusal :=
  .next (slotB 0x1A c w s fun cell v => toRd w cell (s18 (w18 (srcA w cell) ^^^ w18 v)))

/-- X[RA] as an angle in counts. -/
def angleA (w : W64) (cell : Cell) : Nat := (cell.x.at (fld w 51 47)).toNat

/-- SINCOS: X[RD] ← sin, X[RD + 1] ← cos; each within 2 counts, chosen by free values (log entry 5). -/
def execOpSincos (c : CellSel) (w : W64) (s : State) : Host.Outcome State Fault Refusal :=
  let n := freeVal s
  let m := freeVal (freeTaken s)
  .next (slotA 0x1C c w (freeTaken (freeTaken s)) fun cell =>
    let sn := within 2 (sinWord (angleA w cell)) n
    let cs := within 2 (cosWord (angleA w cell)) m
    ((cell.setX (slotRd w) sn).setX (slotRd w + 1) cs, sats18 sn || sats18 cs))

/-- ATAN2: X[RD] ← angle of the vector (X[RA], B), within 8 counts, chosen by a free value; (0, 0) gives 0 (log
entry 5). -/
def execOpAtan2 (c : CellSel) (w : W64) (s : State) : Host.Outcome State Fault Refusal :=
  let n := freeVal s
  .next (slotB 0x1D c w (freeTaken s) fun cell v =>
    let a : Int := if srcA w cell = 0 ∧ v = 0 then 0
      else let f := angleFloor (srcA w cell) v; within 8 ((f.1 : Int), f.2) n % 262144
    ({ cell with x := cell.x.put (slotRd w) (w18 a) }, false))

/-- The quotient of DIV with whether SAT is set: X[RA] / B rounded as R115; B = 0 gives full scale with the sign of
X[RA], or 0, and sets SAT (R119). -/
def divWord (a b : Int) : Int × Bool :=
  if b = 0 then (if a > 0 then 131071 else if a < 0 then -131072 else 0, true)
  else let q := rndQuot (a * 2 ^ 17) b; (sat18 q, sats18 q)

/-- DIV. -/
def execOpDiv (c : CellSel) (w : W64) (s : State) : Host.Outcome State Fault Refusal :=
  .next (slotB 0x1E c w s fun cell v => (cell.setX (slotRd w) (divWord (srcA w cell) v).1, (divWord (srcA w cell) v).2))

/-- SQRT: X[RD] ← √ACC, rounded as R115; a negative ACC gives 0 and sets SAT. -/
def execOpSqrt (c : CellSel) (w : W64) (s : State) : Host.Outcome State Fault Refusal :=
  .next (slotA 0x1F c w s fun cell =>
    if cell.accI < 0 then (cell.setX (slotRd w) 0, true) else toRd w cell (sqrtRound cell.accI.toNat))

/-- A table word of the partition of logical cell `k`; past the partition's 512 words the spec gives none, and a free value stands
for it (R119, R127; log entry 64). -/
def lutWord (s : State) (b k off n : Nat) : Int :=
  s18 (if off < 512 then memGet (s.thk.blocks.at b).coef (k * 512 + off) else BitVec.ofNat 18 (Config.freeNat n))

/-- LUT: linear interpolation in a table of 2^SH + 1 coefficient words; where the exact value is no word, either
neighbour, by a free value (log entry 5). -/
def execOpLut (c : CellSel) (w : W64) (s : State) : Host.Outcome State Fault Refusal :=
  let n := s.free
  .next (slotA 0x20 c w (freeTaken (freeTaken (freeTaken s))) fun cell =>
    let b := (ctxAt s c.ctx.val).region * 4 + c.block.val
    let sh := 18 - fld w 24 20
    let v := (srcA w cell + 131072).toNat
    let i := fld w 33 25 + v / 2 ^ sh
    let f : Int := ((v % 2 ^ sh : Nat) : Int)
    let c0 := lutWord s b c.lcell.val i (n + 1)
    let num := f * (lutWord s b c.lcell.val (i + 1) (n + 2) - c0)
    toRd w cell (c0 + num / 2 ^ sh + (if num % 2 ^ sh = 0 then 0 else ((Config.freeNat n % 2 : Nat) : Int))))

/-- LDC: X[RD] ← coefficient word ADDR[8:0]. -/
def execOpLdc (c : CellSel) (w : W64) (s : State) : Host.Outcome State Fault Refusal :=
  .next (slotA 0x24 c w s fun cell =>
    toRd w cell (s18 (memGet (s.thk.blocks.at ((ctxAt s c.ctx.val).region * 4 + c.block.val)).coef
      (c.lcell.val * 512 + fld w 33 25))))

/-- The region that an LD at slot `n` of a context's part on a logical cell reads: its own, or the one that the run names (R140;
log entry 60). -/
def loadRegionOf (s : State) (c : CellSel) (n : Nat) : Nat :=
  let own := (ctxAt s c.ctx.val).region
  match s.thk.body.bind fun b => b.contexts.find? fun i => i.num == c.ctx.val with
  | none => own
  | some i =>
    match i.runs.find? fun r => r.block == c.block.val && r.cell == c.lcell.val with
    | some r => (r.cross.lookup (n - r.first)).getD own
    | none => own

/-- LD: X[RD] ← region memory word ADDR, as the activation sees it. -/
def execOpLd (c : CellSel) (w : W64) (s : State) : Host.Outcome State Fault Refusal :=
  let a := (ctxAt s c.ctx.val).act.getD {}
  let g := loadRegionOf s c ((a.pos.lookup (c.block.val, c.lcell.val)).getD 0)
  .next (slotA 0x25 c w s fun cell => toRd w cell (s18 (ctxLoad s c.ctx.val g (wordAddr w) a)))

/-- ST: region memory word ADDR ← X[RA]. -/
def execOpSt (c : CellSel) (w : W64) (s : State) : Host.Outcome State Fault Refusal :=
  match slotRuns 0x26 c w s with
  | none => .next s
  | some (b, p, _) =>
    let cell := ((s.thk.blocks.at b).cells).at p
    if condMet w cell then .next (slotDone (ctxStore s c.ctx.val (wordAddr w) (cell.x.at (fld w 51 47))) c w false)
    else .next (slotDone s c w false)

/-- Where a link of logical cell `k` in block `b` leads: block, logical cell and the port at which the word arrives
(R127). -/
def linkTarget (b k l : Nat) : Nat × Nat × Nat :=
  if l = 0 then (b, (k + 14) % 15, 1) else if l = 1 then (b, (k + 1) % 15, 0) else (b ^^^ 1, k, 2)

/-- PUT: link SH[1:0] ← X[RA]; the slot waits while the two-word queue is full (R112, R120, R127), and while the link leads to a
logical cell that is not mapped (log entry 64). -/
def execOpPut (c : CellSel) (w : W64) (s : State) : Host.Outcome State Fault Refusal :=
  match slotRuns 0x28 c w s with
  | none => .next s
  | some (b, p, _) =>
    let cell := ((s.thk.blocks.at b).cells).at p
    let t := linkTarget b c.lcell.val (fld w 21 20)
    let tb := s.thk.blocks.at t.1
    let q := ((tb.cells).at (tb.phys t.2.1)).queue t.2.2
    if !tb.mapped t.2.1 || decide (2 ≤ q.length) then .next s
    else
      let s := useLink s c.ctx.val t
      if condMet w cell then
        .next (slotDone (updCell s t.1 (tb.phys t.2.1) fun y => y.setQueue t.2.2 (q ++ [cell.x.at (fld w 51 47)])) c w false)
      else .next (slotDone s c w false)

/-- GET: X[RD] ← the next word from link SH[1:0]; the slot waits while the queue is empty (R120). The condition decides only
whether X[RD] is written (R121). -/
def execOpGet (c : CellSel) (w : W64) (s : State) : Host.Outcome State Fault Refusal :=
  match slotRuns 0x29 c w s with
  | none => .next s
  | some (b, p, _) =>
    let cell := ((s.thk.blocks.at b).cells).at p
    match cell.queue (fld w 21 20) with
    | [] => .next s
    | v :: q =>
      let s := useLink s c.ctx.val (b, c.lcell.val, fld w 21 20)
      .next (slotDone (updCell s b p fun y =>
        { y.setQueue (fld w 21 20) q with x := if condMet w cell then y.x.put (slotRd w) v else y.x }) c w false)

/-- FLAG: bit SH[3:0] of the pending flag word ← IMM[0] (R125). -/
def execOpFlag (c : CellSel) (w : W64) (s : State) : Host.Outcome State Fault Refusal :=
  match slotRuns 0x2E c w s with
  | none => .next s
  | some (b, p, _) =>
    if condMet w (((s.thk.blocks.at b).cells).at p) then
      .next (updCtx (slotDone s c w false) c.ctx.val fun x => { x with flagsPend := setBit x.flagsPend (fld w 23 20) (bit w 0) })
    else .next (slotDone s c w false)

/-! ### The end of an activation -/

/-- Every context changed, by its number. -/
def updThkCtxs (s : State) (f : Nat → Ctx → Ctx) : State :=
  { s with thk := { s.thk with ctxs := Vector.ofFn fun i : Fin 160 => f i.val (s.thk.ctxs.at i.val) } }

/-- A link queue emptied. -/
def clearQueue (s : State) (l : Nat × Nat × Nat) : State :=
  updCell s l.1 ((s.thk.blocks.at l.1).phys l.2.1) fun y => y.setQueue l.2.2 []

/-- An activation holds bank `b` of a writer's signal words (R139). -/
def bankHeld (t : Thicket) (c : Nat) (b : Bool) : Bool :=
  t.ctxs.toList.any fun x => match x.act with | some a => a.held.contains (c, b) | none => false

/-- Completed sets that waited are published once no activation holds the published bank any more (R139). -/
def publishDeferred (s : State) : State :=
  updThkCtxs s fun i x => if x.deferred && !bankHeld s.thk i x.pubBank then { x with pubBank := !x.pubBank, deferred := false } else x

/-- Activations end: the link queues that they used are emptied, what they had preempted resumes, and sets that waited for them are
published (R122, R123, R139). -/
def dropActs (s : State) (gone : List Nat) : State :=
  let links := gone.flatMap fun c => ((ctxAt s c).act.getD {}).links
  let s := updThkCtxs (links.foldl clearQueue s) fun i x => if gone.contains i then { x with act := none } else x
  publishDeferred { s with thk := { s.thk with preempted := s.thk.preempted.filter fun p => !(gone.contains p.by_ || gone.contains p.ctx) } }

/-- The activation of one context ends. -/
def dropAct (s : State) (c : Nat) : State := dropActs s [c]

end Sys2Proof.Machine
end

