-- ==== Sys2Proof/Machine/Levels.lean ====
section
/-! DEFINITION. Blackthorn's levels and lines (R447 to R450), the safety bank as it reads (R473), the machines in use and
the safe pattern in force (R416 to R419). -/

namespace Sys2Proof.Machine

/-- Word `i` of the safety bank in force; a bank without its completion marker reads blank (R473, R657). -/
def sfWord (s : State) (i : Nat) : W32 := if s.boot.fuses.safetySet then s.boot.fuses.safety.at i else 0

/-- The safety bank is entirely 0 (R473). -/
def sfBlank (s : State) : Bool := (List.range 20).all fun i => sfWord s i == 0

/-- Function of input pair `i` in SF_IN: 0 unused, 1 STO, 2 SLS, 3 SDI forward, 4 SDI reverse, 5 SLP. -/
def pairFn (s : State) (i : Nat) : Nat := fld (sfWord s 0) (22 + 3 * i) (20 + 3 * i)

/-- SPDSRC, SCPR, SEPP and SDIR of machine `m` (R473). -/
def spdSrc (s : State) (m : Nat) : Nat := fld (sfWord s (1 + m)) 31 29
def scpr (s : State) (m : Nat) : Nat := fld (sfWord s (1 + m)) 28 8
def sepp (s : State) (m : Nat) : Nat := fld (sfWord s (1 + m)) 7 1
def monObs (s : State) (m : Nat) : Nat := if m = 0 then fld (sfWord s 9) 9 8 else fld (sfWord s 9) 7 6

/-- Legs of machine `m` (chapter 12, The safe pattern). -/
def legsOf (arrange m : Nat) : List Nat :=
  if arrange = 0 then (if m = 0 then [0, 1, 2] else [3, 4, 5]) else if m = 0 then [0, 1, 2, 3, 4, 5] else []

/-- The machine a leg belongs to. -/
def machineOf (arrange leg : Nat) : Nat := if arrange = 0 ∧ 3 ≤ leg then 1 else 0

/-- A machine is in use when LEGS names at least one of its legs (R447). -/
def machineUsed (arrange : Nat) (legs : Byte) (m : Nat) : Bool := (legsOf arrange m).any fun k => bit legs k

/-- Icsis's RUN line, high in ARMED and RUNNING (R449). -/
def runLine (s : State) : Bool := s.drv.st == .armed || s.drv.st == .running

/-- A pair with function STO demands the safe state (R454, R461). -/
def stoDemand (s : State) : Bool := (List.range 4).any fun i => pairFn s i == 1 && (s.saf.pairs.at i).demand

/-- Icsis's STO request line: held by the state (R450), by a split (R501), by a restart (R490), by an escalation (R33), by
the software SMAX check (R474), and while the pins demand it (R461). -/
def stoLine (s : State) : Bool :=
  s.drv.st == .safeStop || s.drv.st == .fault || s.drv.st == .coppice || s.icp.split || s.saf.stoRestart || s.saf.stoEscal
    || (s.saf.mach.at 0).swHold || (s.saf.mach.at 1).swHold || stoDemand s

/-- Machines that a comparator's BACT names (R465, R473). -/
def bact (s : State) (n m : Nat) : Bool := bit (sfWord s (11 + n)) (6 + m)

/-- Violations of the machine's speed and direction functions that count (R448). -/
def violated (x : BlkMach) : Bool := x.smax.held || x.sls.held || x.sdi.held || x.slp.held

/-- A cause of Safe torque off for machine `m` (the table of R448), with the fault code of the first one present; the STO request line
has that of what raised it: the software SMAX check (R474) or a restart of the pair (R490). -/
def stoCause (s : State) (m : Nat) : Option W16 :=
  let x := s.saf.mach.at m
  if stoDemand s then some 0x3001
  else if (List.range 4).any fun i => (s.saf.pairs.at i).fault then some 0x3002
  else if x.smax.held then some 0x3014
  else if x.sls.held then some 0x3011
  else if x.sdi.held then some 0x3012
  else if x.slp.held then some 0x3013
  else if (List.range 8).any fun n => (s.saf.comps.at n).held && bact s n m then some 0x3045
  else if s.saf.errcnt != 0 then some 0x3040
  else if bit s.thm.stat 26 then some 0x9014
  else if s.icp.mismatchLine then some 0x4001
  else if s.saf.clkf then some 0x3042
  else if x.srcLatch then some 0x3043
  else if sfBlank s then some 0
  else if (s.saf.mach.at 0).swHold || (s.saf.mach.at 1).swHold then some 0x3014
  else if s.saf.stoRestart then some 0x4001
  else if stoLine s then some 0
  else none

/-- The machine is at Closed (R448, R524, R537). -/
def closed (s : State) : Bool :=
  s.saf.closedStart || s.saf.coppiceLine || s.saf.scanClosed || bit s.sup.railOut 1 || s.drv.st == .off

/-- Blackthorn's level of machine `m`: 0 Enabled, 1 Safe torque off, 2 Closed (R448, R482). -/
def level (s : State) (m : Nat) : Nat := if closed s then 2 else if (stoCause s m).isSome then 1 else 0

/-- A machine in use as Icsis's configuration names it (R447). -/
def inUse (s : State) (m : Nat) : Bool := machineUsed s.drv.arrange s.drv.legs m

/-- HP_STATUS.STO: safe torque off is asserted by either channel (R45; log entry 6). -/
def stoAsserted (s : State) : Bool :=
  stoLine s || level s 0 != 0 || (s.drv.arrange == 0 && level s 1 != 0)

/-- Blackthorn has released gate-enable for every machine in use (R98, R447). -/
def enabledAll (s : State) : Bool := (List.range 2).all fun m => !inUse s m || level s m == 0

/-- PRT_CTL.ASCBANK (R439). -/
def ascBank (s : State) : Nat := b2n (bit s.prt.ctl 63)

/-- The bank that a machine's ASC uses: 0 lower, 1 upper (R416, R419). -/
def ascBankOf (s : State) (m : Nat) : Nat := (ascBank s + b2n (s.prt.otherBank.at m)) % 2

/-- The safe pattern of machine `m` acts (R418). -/
def patActs (s : State) (m : Nat) : Bool := inUse s m && (s.prt.act.at m || s.drv.st == .safeStop || s.drv.st == .fault)

/-- PAT of machine `m`: 0 normal, 1 freewheel, 2 ASC (R417 to R419, R444). -/
def pat (s : State) (m : Nat) : Nat :=
  if patActs s m then (if s.prt.asc.at m && !s.prt.fwOnly.at m then 2 else 1) else 0

/-- Gate-enable of a driver channel (the table of R447). -/
def gateEnable (s : State) (ch : Nat) : Bool :=
  let lowest := if inUse s 0 || inUse s 1 then
      max (if inUse s 0 then level s 0 else 0) (if inUse s 1 then level s 1 else 0) else level s 0
  if ch < 12 then
    let m := machineOf s.saf.blkArr (ch / 2)
    level s m == 0 || (level s m == 1 && (s.saf.mach.at m).asc && ch % 2 == 1 - ascBank s)
  else if ch < 15 then lowest != 2
  else lowest == 0

/-- The commands of PWM0 to PWM5 that no compare value decides (R358): both off by the overlap lock-out, a debug freeze,
force mode 1 or HOLD; by a cut-off the upper off; by a force mode as it gives. The answer names the priority. -/
def outputPriority (s : State) (u : Nat) : Nat :=
  let x := s.pwm.units.at u
  if x.overlap || x.legHold then 1 else if x.frozen then 2 else if x.fmode == 1 then 3 else if x.cutoff then 4
  else if x.fmode != 0 then 5 else if x.hold then 6 else 7

/-- Condition of a channel for arming: enabled, with both rails above lock-out (R98, R381). -/
def railsGood (s : State) (ch : Nat) : Bool :=
  let g := s.gdv.at ch
  bit g.cfg 63 && !bit g.stat 7 && !bit g.stat 6

/-- A channel that LEGS and AUXUSE name (R21). -/
def channelUsed (s : State) (ch : Nat) : Bool :=
  if ch < 12 then bit s.drv.legs (ch / 2) else if ch < 14 then bit s.drv.auxuse 0
  else if ch = 14 then bit s.drv.auxuse 1 else bit s.drv.auxuse 2

end Sys2Proof.Machine
end

