-- ==== Sys2Proof/Machine/Sched.lean ====
section
/-! DEFINITION. Periods, bounds and the checks that every command changing a trigger interval repeats (R39, R145, R146,
R152, R153, R343, R352, R362, R432, R470). Times are in 1/64 ns: a fine tick is 10, a CLK_PWM cycle 80. -/

namespace Sys2Proof.Machine

/-- The two records of a timer unit (R373, R374). -/
structure UnitRec where
  cfg : W64
  tim : W64
  deriving DecidableEq, Repr, Inhabited

/-- Fields of PWM_UCFG and PWM_UTIM (R373, R374). -/
def UnitRec.en (u : UnitRec) : Bool := bit u.cfg 63
def UnitRec.centre (u : UnitRec) : Bool := bit u.cfg 62
def UnitRec.rld (u : UnitRec) : Nat := fld u.cfg 61 60
def UnitRec.smpsel (u : UnitRec) : Nat := fld u.cfg 59 58
def UnitRec.omode (u : UnitRec) : Bool := bit u.cfg 57
def UnitRec.varprd (u : UnitRec) : Bool := bit u.cfg 56
def UnitRec.csh (u : UnitRec) : Nat := fld u.cfg 55 53
def UnitRec.frz (u : UnitRec) : Nat := fld u.cfg 52 51
def UnitRec.dtu (u : UnitRec) : Nat := fld u.cfg 47 34
def UnitRec.dtl (u : UnitRec) : Nat := fld u.cfg 33 20
def UnitRec.smpofs (u : UnitRec) : Nat := fld u.cfg 19 12
def UnitRec.sync (u : UnitRec) : Nat := fld u.cfg 11 8
def UnitRec.cbcen (u : UnitRec) : Nat := fld u.cfg 7 4
def UnitRec.blank (u : UnitRec) : Nat := fld u.cfg 3 0
def UnitRec.prd (u : UnitRec) : Nat := fld u.tim 63 46
def UnitRec.pmin (u : UnitRec) : Nat := fld u.tim 45 28
def UnitRec.cmax (u : UnitRec) : Nat := fld u.tim 27 20
def UnitRec.phs (u : UnitRec) : Nat := fld u.tim 15 0

/-- The unit that a unit follows, or itself (R365). -/
def masterOf (us : Tab 6 UnitRec) (n : Nat) : Nat :=
  let k := (us.at n).sync
  if 1 ≤ k ∧ k ≤ 6 then k - 1 else n

/-- Carrier period in fine ticks for a period value (R338). -/
def UnitRec.ticks (u : UnitRec) (p : Nat) : Nat := p * 2 ^ u.csh * (if u.centre then 2 else 1)

/-- The shortest carrier period of a unit, in fine ticks (R340, R365). -/
def shortest (us : Tab 6 UnitRec) (n : Nat) : Nat :=
  let m := us.at (masterOf us n)
  (us.at n).ticks (if m.varprd then m.pmin else m.prd)

/-- The shortest carrier period less the correction of a network-locked unit (R352). -/
def shortestLocked (us : Tab 6 UnitRec) (n : Nat) : Nat :=
  let m := us.at (masterOf us n)
  10 * (shortest us n - (if m.sync = 9 then m.cmax else 0))

/-- Trigger interval of a unit's sample trigger; none while it fires none (R351, R352). -/
def sampleIv (us : Tab 6 UnitRec) (n : Nat) : Option Nat :=
  let u := us.at n
  if !u.en || u.smpsel == 0 then none
  else some (if u.smpsel = 3 then shortestLocked us n / 2 else shortestLocked us n)

/-- The places of the ends of the carrier that a selector names, in a period of length `t`: the valley and the peak (R338, R347,
R351). -/
def endPlaces (u : UnitRec) (sel t : Nat) : List Nat :=
  (if !u.centre || sel.testBit 0 then [0] else []) ++ (if u.centre && sel.testBit 1 then [t / 2] else [])

/-- How far a unit's valley lies behind its master's (R365). -/
def lag (us : Tab 6 UnitRec) (n : Nat) : Nat :=
  if masterOf us n = n then 0 else shortestLocked us n * (us.at n).phs / 65536

/-- The shortest way on a carrier of length `t` from one of the places `ps` forward to one of `rs`, a whole period where they
coincide. -/
def shortestWay (t : Nat) (ps rs : List Nat) : Nat :=
  (ps.flatMap fun p => rs.map fun r => let d := (r + 2 * t - p) % max 1 t; if d = 0 then t else d).foldl min t

/-- The interval from an event at places `ps` of unit `n`'s carrier to the next reload of unit `u` (R39). Two units that share no
master have no fixed phase, and the event's own unit stands for the other (log entry 66). -/
def wayToReload (us : Tab 6 UnitRec) (n : Nat) (ps : List Nat) (u : Nat) : Nat :=
  let u := if masterOf us u = masterOf us n then u else n
  let t := shortestLocked us n
  shortestWay t (ps.map fun p => (p + lag us n) % max 1 t) ((endPlaces (us.at u) (us.at u).rld t).map fun r => (r + lag us u) % max 1 t)

/-- The interval from a sample trigger of unit `n` to the next reload of unit `u` (R39, R352), less the sample delay. -/
def sampleToReload (us : Tab 6 UnitRec) (n u : Nat) : Nat :=
  wayToReload us n (endPlaces (us.at n) (us.at n).smpsel (shortestLocked us n)) u - 80 * (us.at n).smpofs

/-- Positions of the events of an auxiliary channel within a carrier period, in U units (R361). -/
def auxPlaces (cfg : W64) (centre : Bool) (p : Nat) : List Nat :=
  let pts := (fld cfg 55 38) :: (if bit cfg 56 then [fld cfg 37 20] else [])
  let pts := pts.filter fun x => decide (x ≤ p)
  let up := if !centre || bit cfg 57 then pts else []
  let dn := if centre && bit cfg 58 then (pts.filter fun x => decide (0 < x)).map fun x => 2 * p - x else []
  (up ++ dn).dedup

/-- The shortest distance between two of the places on a circle of `n` units. -/
def shortestGap (n : Nat) (l : List Nat) : Option Nat :=
  if l.isEmpty then none
  else some ((l.flatMap fun a => l.map fun b => if a = b then n else (b + n - a) % n).foldl min n)

/-- Trigger interval of an auxiliary channel (R362); a blanking window reopens after A units at the earliest. -/
def auxIv (us : Tab 6 UnitRec) (cfg : W64) : Option Nat :=
  let k := fld cfg 62 60
  let u := us.at k
  let m := us.at (masterOf us k)
  let p := if m.varprd then m.pmin else m.prd
  if !bit cfg 63 || !u.en then none
  else if bit cfg 59 then some (10 * 2 ^ u.csh * max 1 (fld cfg 55 38))
  else (shortestGap (if u.centre then 2 * p else p) (auxPlaces cfg u.centre p)).map fun g => 10 * 2 ^ u.csh * g

/-- The interval from an auxiliary event to the next reload of unit `u` (R39, R361); none for a blanking window, whose openings
have no place of their own (log entry 66). -/
def auxToReload (us : Tab 6 UnitRec) (cfg : W64) (u : Nat) : Option Nat :=
  let k := fld cfg 62 60
  let m := us.at (masterOf us k)
  if bit cfg 59 then none
  else some (wayToReload us k ((auxPlaces cfg (us.at k).centre (if m.varprd then m.pmin else m.prd)).map fun x => 10 * 2 ^ (us.at k).csh * x) u)

/-- The units whose shadows, load-all or auxiliary shadows are among those given (R344). -/
def unitsOf (auxs : List W64) (shadows ldall : List Nat) : List Nat :=
  (ldall ++ shadows.filterMap fun k =>
    if k < 0x18 then some (k / 4) else if k < 0x30 then some (fld (auxs.getD ((k - 0x20) / 2) 0) 62 60) else none).dedup

/-- What the checks need of a context: its number, the fields of its record (R143), and the shadows and load-alls that it writes. -/
structure CtxSpec where
  num : Nat
  ctrl : W32
  period : Nat
  minper : Nat
  bound : Nat
  shadows : List Nat
  ldall : List Nat
  deriving DecidableEq, Repr, Inhabited

def CtxSpec.src (c : CtxSpec) : Nat := fld c.ctrl 23 16
def CtxSpec.arg (c : CtxSpec) : Nat := fld c.ctrl 15 8
def CtxSpec.div (c : CtxSpec) : Nat := fld c.ctrl 7 0
def CtxSpec.outPwm (c : CtxSpec) : Bool := bit c.ctrl 30

/-- Period of a context (R146); none where it is never released. -/
def periodOf (us : Tab 6 UnitRec) (auxs : List W64) (cs : List CtxSpec) : Nat → CtxSpec → Option Nat
  | 0, _ => none
  | fuel + 1, c =>
    let iv :=
      if 1 ≤ c.src ∧ c.src ≤ 6 then sampleIv us (c.src - 1)
      else if 0x11 ≤ c.src ∧ c.src ≤ 0x18 then auxIv us (auxs.getD (c.src - 0x11) 0)
      else if c.src = 0x20 then (cs.find? fun d => d.num == c.arg).bind (periodOf us auxs cs fuel)
      else if c.src = 0x30 then some (64 * c.period)
      else none
    iv.map fun v => v * (c.div + 1)

/-- Twice W of R152, in ns. -/
def twiceW (c : Nat) : Nat := 5 * c + min (5 * c) (20000 * ((c + 199999) / 200000))

/-- The context whose trigger begins the chain of completions that releases a context, and twice the sum of the W of the chain in ns
(R39, R145; log entry 66). -/
def triggerChain (cs : List CtxSpec) : Nat → CtxSpec → CtxSpec × Nat
  | 0, c => (c, twiceW c.bound)
  | fuel + 1, c =>
    if c.src = 0x20 then
      match cs.find? fun d => d.num == c.arg with
      | some d => let r := triggerChain cs fuel d; (r.1, r.2 + twiceW c.bound)
      | none => (c, twiceW c.bound)
    else (c, twiceW c.bound)

/-- The interval from the trigger of a context to the next reload of unit `u` (R39); none for a trigger that has no place on a
carrier (log entry 66). -/
def triggerToReload (us : Tab 6 UnitRec) (auxs : List W64) (c : CtxSpec) (u : Nat) : Option Nat :=
  if 1 ≤ c.src ∧ c.src ≤ 6 then some (sampleToReload us (c.src - 1) u)
  else if 0x11 ≤ c.src ∧ c.src ≤ 0x18 then auxToReload us (auxs.getD (c.src - 0x11) 0) u
  else none

/-- The chain check of R39 fails for a context: for one of the units that it writes, or its trigger's own where it writes none. -/
def chainFails (us : Tab 6 UnitRec) (auxs : List W64) (cs : List CtxSpec) (c : CtxSpec) : Bool :=
  let r := triggerChain cs 161 c
  let units := unitsOf auxs c.shadows c.ldall
  (if units.isEmpty then [r.1.src - 1] else units).any fun u =>
    match triggerToReload us auxs r.1 u with
    | some t => decide (t < 64 * 600 + 32 * r.2)
    | none => false

/-- W in whole ns (CTX_WCT), rounded up: the spec gives no rounding for a W that ends in half a nanosecond (log entry 67). -/
def wctOf (c : Nat) : Nat := (twiceW c + 1) / 2

/-- The check of one context (R5, R39, R153). -/
def boundCheck (us : Tab 6 UnitRec) (auxs : List W64) (cs : List CtxSpec) (c : CtxSpec) : Option W16 :=
  match periodOf us auxs cs 161 c with
  | none => none
  | some p =>
    if c.outPwm && decide (p < 64 * 5000) then some stRange
    else if decide (p < 64 * c.minper) || decide (p < 32 * twiceW c.bound) then some stBound
    else if c.outPwm && chainFails us auxs cs c then some stBound
    else none

/-- The checks of R153 over every context: ST_RANGE before ST_BOUND (R69). -/
def boundChecks (us : Tab 6 UnitRec) (auxs : List W64) (cs : List CtxSpec) : Option W16 :=
  let rs := cs.filterMap (boundCheck us auxs cs)
  if rs.contains stRange then some stRange else if rs.contains stBound then some stBound else none

/-- The units' records in force, and the auxiliary channels'. -/
def unitRecs (s : State) : Tab 6 UnitRec := s.pwm.units.map fun u => { cfg := u.cfg, tim := u.tim }
def auxRecs (s : State) : List W64 := s.pwm.aux.toList.map PwmAux.cfg

/-- The committed image's contexts (R143), while a committed configuration is held (R97). -/
def placed (s : State) : List CtxImg :=
  match s.thk.body with
  | some b => if s.drv.committed then b.contexts else []
  | none => []

/-- The image's entry of a committed context. -/
def imgOf (s : State) (n : Nat) : Option CtxImg := (placed s).find? fun i => i.num == n

/-- The committed contexts as the checks see them. -/
def specs (s : State) : List CtxSpec :=
  (placed s).map fun i =>
    let x := ctxAt s i.num
    { num := i.num, ctrl := x.ctrl, period := x.period.toNat, minper := x.minper.toNat, bound := x.bound.toNat, shadows := imgShadows i,
      ldall := imgLdall i }

/-- Period of context `c` of the committed image in 1/64 ns. -/
def periodNow (us : Tab 6 UnitRec) (s : State) (c : Nat) : Option Nat :=
  ((specs s).find? fun d => d.num == c).bind (periodOf us (auxRecs s) (specs s) 161)

/-- A context that holds the law DMD. -/
def hasDmd (i : CtxImg) : Bool := i.laws.any fun l => l.kind == .dmd

/-- A DMD context with a period above 400 µs, which the chopper and the torque monitor forbid (R432, R470). -/
def slowDmd (us : Tab 6 UnitRec) (auxs : List W64) (cs : List CtxSpec) (imgs : List CtxImg) : Bool :=
  imgs.any fun i => hasDmd i &&
    match (cs.find? fun d => d.num == i.num).bind (periodOf us auxs cs 161) with
    | some p => decide (64 * 400000 < p)
    | none => false

/-- TMEN of the safety bank (R473), and CHEN (R441): the two reasons for the check of `slowDmd`. -/
def dmdLimited (tmen chen : Bool) : Bool := tmen || chen

/-- Shadow numbers an image may write (R343): the PRD shadow of a unit only with VARPRD = 1. -/
def shadowOk (us : Tab 6 UnitRec) (k : Nat) : Bool :=
  if k < 0x18 then k % 4 == 0 || (k % 4 == 1 && (us.at (k / 4)).varprd)
  else decide (0x20 ≤ k) && decide (k ≤ 0x30)

/-- The contexts keep to the shadows of R343 under the given records. -/
def shadowsOk (us : Tab 6 UnitRec) (imgs : List CtxImg) : Bool :=
  imgs.all fun i => (imgShadows i).all (shadowOk us) && (imgLdall i).all fun u => decide (u < 6)

/-- The context that writes a unit's shadows or its load-all (R344). -/
def ownerOf (imgs : List CtxImg) (u : Nat) : Option CtxImg :=
  imgs.find? fun i => (imgLdall i).contains u || (imgShadows i).any fun k => decide (k < 0x18) && k / 4 == u

/-- ADV of a context with a period and a base speed (R194, R195): 1.5 periods in revolutions per pu of speed (log
entry 7). -/
def advWord (p64 : Nat) (wBase : W32) : W18 :=
  match f32Rat wBase with
  | some w => w18 (sat18 (rndRat ((3 : Rat) / 2 * (p64 : Rat) / 64 / 1000000000 * w * 2 ^ 17 * 2 ^ 64 / (2 * (piScaled : Rat)))))
  | none => 0

/-- A word that Icsis maintains in a context's state area: both banks take it, so that the next release reads it (R147,
R160, R195). -/
def putState (s : State) (g a : Nat) (v : W18) : State := putBank (putBank s g false a v) g true a v

/-- ADV and P written into a context's state area (R195, R345). -/
def maintain (s : State) (i : CtxImg) : State :=
  let x := ctxAt s i.num
  i.laws.foldl (fun s l =>
    let s := match l.advAddr, periodNow (unitRecs s) s i.num with
      | some a, some p => putState s x.region a (advWord p x.wBase)
      | _, _ => s
    l.pAddr.foldl (fun s ua =>
      if (unitRecs s |>.at ua.1).varprd then s
      else putState s x.region ua.2 (w18 ((unitRecs s |>.at (masterOf (unitRecs s) ua.1)).prd))) s) s

/-- ADV and P written into every committed context's state area (R195, R345). -/
def writeMaintained (s : State) : State := (placed s).foldl maintain s

end Sys2Proof.Machine
end

