-- ==== Sys2Proof/Machine/Wave.lean ====
section
/-! DEFINITION. The carrier of a timer unit and what its outputs do between two commands (R338, R339, R353, R354, R358, R361): the
position, the requests, the gate commands after dead time, the windows of the auxiliary channels, and the gate of every driver
channel (R13). Instants are fine ticks of the time base (log entry 41). -/

namespace Sys2Proof.Machine

/-- The time base in fine ticks of 156.25 ps (R271, R338); it counts quarters of a nanosecond. -/
def fineNow (s : State) : Int := ((s.clk.tb * 8 / 5 : Nat) : Int)

/-- One CLK_NET cycle in fine ticks, rounded up: the time base tells instants apart no better (log entry 41). -/
def fineStep : Int := 52

/-- A timer unit changed. -/
def updUnit (s : State) (u : Nat) (f : PwmUnit → PwmUnit) : State :=
  { s with pwm := { s.pwm with units := s.pwm.units.upd u f } }

/-- Every timer unit changed, by its number. -/
def mapUnits (s : State) (f : Nat → PwmUnit → PwmUnit) : State :=
  { s with pwm := { s.pwm with units := Vector.ofFn fun i : Fin 6 => f i.val (s.pwm.units.at i.val) } }

/-- The records in effect at a unit (R378). -/
def PwmUnit.inForce (u : PwmUnit) : UnitRec := { cfg := u.eff, tim := u.effTim }

/-- The records in effect at every unit. -/
def effRecs (s : State) : Tab 6 UnitRec := s.pwm.units.map PwmUnit.inForce

/-- The states in which enabled units count (R360). -/
def countState (m : Mode) : Bool :=
  m == .configured || m == .armed || m == .running || m == .safeStop || m == .fault

/-- A unit's counter runs (R360, R369); a network-locked one that has started waits for a target instant (R367). -/
def unitCounts (s : State) (u : Nat) : Bool :=
  let x := s.pwm.units.at u
  countState s.drv.st && bit x.eff 63 && !x.stopped && !x.waiting

/-- The active P of a unit, a follower's being its master's (R365). -/
def activeP (s : State) (u : Nat) : Nat := (s.pwm.units.at (masterOf (effRecs s) u)).p

/-- The compare value in use (R341). -/
def usedCmp (s : State) (u : Nat) : Nat := min (s.pwm.units.at u).cmp (activeP s u)

/-- Carrier period of a unit now, in fine ticks (R338). -/
def carrier (s : State) (u : Nat) : Nat := (s.pwm.units.at u).inForce.ticks (activeP s u)

/-! ### The position -/

/-- Fine ticks of the present carrier period that have passed at `t`; the period is longer by the correction (R367). -/
def elapsed (s : State) (u : Nat) (t : Int) : Int :=
  let x := s.pwm.units.at u
  (t - x.origin) % max 1 ((carrier s u : Int) + x.corr)

/-- U of a unit in fine ticks (R338). -/
def stepU (s : State) (u : Nat) : Int := ((2 ^ (s.pwm.units.at u).inForce.csh : Nat) : Int)

/-- Fine ticks since the valley in a period without a correction: a correction is added at the peak in centre-aligned counting, at the
end of the period in edge-aligned counting (R367). -/
def phase (s : State) (u : Nat) (t : Int) : Int :=
  let d := elapsed s u t
  let h : Int := (activeP s u : Int) * stepU s u
  if (s.pwm.units.at u).inForce.centre then (if d < h then d else max h (d - (s.pwm.units.at u).corr)) else min d (h - 1)

/-- The position x of a unit and whether it falls (R338). A counter that does not run stands at its valley. -/
def position (s : State) (u : Nat) (t : Int) : Int × Bool :=
  if !unitCounts s u then (0, false)
  else
    let k := phase s u t / stepU s u
    if (s.pwm.units.at u).inForce.centre && decide ((activeP s u : Int) < k) then (2 * activeP s u - k, true) else (k, false)

/-- A unit stands at its valley or its peak now. Where the time base says so within one of its steps, the instant is the carrier's own;
otherwise the carrier is placed by the event (R338, R346; log entry 41). -/
def placeAt (s : State) (u : Nat) (peak : Bool) : State :=
  let x := s.pwm.units.at u
  let ofs : Int := if peak then (activeP s u : Int) * stepU s u else 0
  let per := max 1 ((carrier s u : Int) + x.corr)
  let d := (fineNow s - x.origin - ofs + per / 2) / per
  let due := x.origin + d * per
  updUnit s u fun x => { x with origin := if |fineNow s - ofs - due| ≤ fineStep then due else fineNow s - ofs }

/-! ### Requests and gate commands -/

/-- Where the upper command is on by compare: from and to which phase, in fine ticks (R339). -/
def onSpan (s : State) (u : Nat) : Int × Int :=
  let c : Int := usedCmp s u
  let p : Int := activeP s u
  if (s.pwm.units.at u).inForce.centre then ((p - c) * stepU s u, (p + c) * stepU s u) else (0, c * stepU s u)

/-- The upper command by compare or direct vector (R339, R342). -/
def upperOn (s : State) (u : Nat) (t : Int) : Bool :=
  if (s.pwm.units.at u).inForce.omode then (s.pwm.units.at u).vec
  else decide ((onSpan s u).1 ≤ phase s u t) && decide (phase s u t < (onSpan s u).2)

/-- Dead time before the upper and before the lower turn-on, at least 50 ns (R353). -/
def deadU (s : State) (u : Nat) : Int := ((max 320 (s.pwm.units.at u).inForce.dtu : Nat) : Int)
def deadL (s : State) (u : Nat) : Int := ((max 320 (s.pwm.units.at u).inForce.dtl : Nat) : Int)

/-- The end of the lower command of a refresh pulse: 400 ns after DTL (R393). -/
def pulseEnd (s : State) (u : Nat) : Option Int := (s.pwm.units.at u).refreshAt.map fun t => t + deadL s u + 2560

/-- The commands of a unit's upper and lower output before dead time (R358, R393), with the safe pattern ahead of priority 2 (R418); a
leg that is held off takes no part in it (R419), and both commands are held off by a leg fault (R392). -/
def requests (s : State) (u : Nat) (t : Int) : Bool × Bool :=
  let x := s.pwm.units.at u
  let m := machineOf s.drv.arrange u
  if !countState s.drv.st || x.overlap || x.legHold then (false, false)
  else if patActs s m then
    if pat s m == 2 && !s.prt.legOff.at u then (ascBankOf s m == 1, ascBankOf s m == 0) else (false, false)
  else match outputPriority s u with
    | 4 => (false, true)
    | 5 => (x.fmode == 3, x.fmode == 2)
    | 7 =>
      if ((pulseEnd s u).map fun e => decide (t < e)).getD false then (false, true)
      else (upperOn s u t, !upperOn s u t)
    | _ => (false, false)

/-- Instants up to `t`, since the unit's requests last changed by a command, at which they may change by themselves. -/
def edgesUpTo (s : State) (u : Nat) (t : Int) : List Int :=
  let x := s.pwm.units.at u
  let start := t - elapsed s u t
  let sh (f : Int) : Int := if x.inForce.centre && decide ((activeP s u : Int) * stepU s u < f) then f + x.corr else f
  let own := [start + sh (onSpan s u).1, start + sh (onSpan s u).2, start,
    start + sh (onSpan s u).1 - carrier s u - x.corr, start + sh (onSpan s u).2 - carrier s u - x.corr]
  (own ++ (pulseEnd s u).toList).filter fun e => decide (x.mark < e) && decide (e ≤ t)

/-- The latest instant up to `t` at which the upper or the lower command read `v`, where there has been one. -/
def lastRead (s : State) (u : Nat) (upper v : Bool) (t : Int) : Option Int :=
  let x := s.pwm.units.at u
  let on (t : Int) : Bool := if upper then (requests s u t).1 else (requests s u t).2
  if on t == v then some t
  else
    let left := (edgesUpTo s u t).filter fun e => on (e - 1) == v
    (left.max?).or (if v then (if upper then x.upAt else x.lowAt) else if upper then x.upOff else x.lowOff)

/-- A time has passed since an instant, or there was none. -/
def passed (since : Option Int) (d t : Int) : Bool := match since with | some e => decide (d ≤ t - e) | none => true

/-- The gate commands of a unit (R353, R354, R358): a command that turns on waits until the other has been off for its dead time, so that
an on-interval no longer than its dead time is not produced. -/
def gateCommands (s : State) (u : Nat) (t : Int) : Bool × Bool :=
  ((requests s u t).1 && passed (lastRead s u false true t) (deadU s u) t,
    (requests s u t).2 && passed (lastRead s u true true t) (deadL s u) t)

/-- What the commands of every unit were is noted before a command changes them, so that dead time is kept across the change (R353,
R418). -/
def noteSome (s : State) (p : Nat → Bool) (t : Int) : State :=
  mapUnits s fun i x =>
    if p i then
      { x with upAt := lastRead s i true true t, lowAt := lastRead s i false true t, upOff := lastRead s i true false t,
               lowOff := lastRead s i false false t, mark := t }
    else x
def noteUnits (s : State) : State := noteSome s (fun _ => true) (fineNow s)

/-- The same for a unit and those that follow it. -/
def noteGroup (s : State) (u : Nat) (t : Int) : State := noteSome s (fun i => i == u || masterOf (effRecs s) i == u) t

/-! ### Auxiliary channels -/

/-- Phases of a channel's events in its REF unit's carrier, in fine ticks, from the active A and B (R361). -/
def auxPhases (s : State) (m : Nat) : List Int :=
  let a := s.pwm.aux.at m
  let u := fld a.cfg 62 60
  (auxPlaces (setFld (setFld a.cfg 55 38 a.a) 37 20 a.b) (s.pwm.units.at u).inForce.centre (activeP s u)).map fun k => (k : Int) * stepU s u

/-- Instants within the last `d` fine ticks before and at `t` at which a gate command of a unit changes, after dead time (R361). -/
def gateEdges (s : State) (u : Nat) (d t : Int) : List Int :=
  let es := edgesUpTo s u t
  (es ++ es.map (· + deadU s u) ++ es.map (· + deadL s u)).filter fun e =>
    decide (t - d < e) && decide (e ≤ t) && gateCommands s u e != gateCommands s u (e - 1)

/-- Fine ticks from now to the next events of a trigger source that the active PWM values predict (R516): the sample trigger of a unit, and
the compare points of an auxiliary channel. -/
def untilNext (s : State) (src : Nat) : List Int :=
  let ahead (u : Nat) (late f : Int) : Int :=
    let x := s.pwm.units.at u
    let f := if x.inForce.centre && decide ((activeP s u : Int) * stepU s u < f) then f + x.corr else f
    (f + late - elapsed s u (fineNow s)) % max 1 ((carrier s u : Int) + x.corr)
  if 1 ≤ src ∧ src ≤ 6 then
    let u := src - 1
    let r := (s.pwm.units.at u).inForce
    if unitCounts s u then
      ((if bit r.cfg 58 then [0] else []) ++ (if r.centre && bit r.cfg 59 then [(activeP s u : Int) * stepU s u] else [])).map
        (ahead u (8 * r.smpofs))
    else []
  else if 0x11 ≤ src ∧ src ≤ 0x18 then
    let a := s.pwm.aux.at (src - 0x11)
    let u := fld a.cfg 62 60
    if bit a.cfg 63 && !bit a.cfg 59 && unitCounts s u then (auxPhases s (src - 0x11)).map (ahead u 0) else []
  else []

/-- An auxiliary channel gives an event at `t`, within one step of the time base (R361). -/
def auxFires (s : State) (m : Nat) (t : Int) : Bool :=
  let a := s.pwm.aux.at m
  let u := fld a.cfg 62 60
  if bit a.cfg 59 then !(gateEdges s u fineStep t).isEmpty
  else (auxPhases s m).any fun f =>
    let d := (t - (s.pwm.units.at u).origin - (if (s.pwm.units.at u).inForce.centre && decide ((activeP s u : Int) * stepU s u < f)
      then f + (s.pwm.units.at u).corr else f)) % max 1 ((carrier s u : Int) + (s.pwm.units.at u).corr)
    decide (d < fineStep)

/-- The window of an auxiliary channel is open at `t` (R361): while A ≤ x < B in the selected halves, or for A units after an edge of
either gate command of its unit. -/
def auxOpen (s : State) (m : Nat) (t : Int) : Bool :=
  let a := s.pwm.aux.at m
  let u := fld a.cfg 62 60
  if !bit a.cfg 63 || !unitCounts s u then false
  else if bit a.cfg 59 then !(gateEdges s u (a.a * stepU s u) t).isEmpty
  else
    let x := position s u t
    decide ((a.a : Int) ≤ x.1) && decide (x.1 < a.b) && (if x.2 then bit a.cfg 58 else bit a.cfg 57)

/-- The channel that blanks a unit's cut-off lines has its window open (R364). -/
def blanked (s : State) (u : Nat) (t : Int) : Bool :=
  let k := (s.pwm.units.at u).inForce.blank
  k != 15 && auxOpen s k t

/-! ### Gates -/

/-- The fast-protection turn-off of a channel (R13, R412, R419): a phase leg that an overcurrent trip holds off. -/
def turnedOff (s : State) (ch : Nat) : Bool := decide (ch < 12) && s.prt.legOff.at (ch / 2)

/-- The chopper switch sits on a channel of PWM6; the other position is held off (R427). -/
def chopperAt (s : State) (ch : Nat) : Bool := (ch == 12) == bit s.prt.ctl 58

/-- The gate command of a channel now (R337, R358, R427, R434, R437). The fixed dead time of PWM6 is counted from the instant at which
the chopper's position last moved away from a conducting switch. -/
def gateCommand (s : State) (ch : Nat) : Bool :=
  if ch < 12 then
    let g := gateCommands s (ch / 2) (fineNow s)
    if ch % 2 = 0 then g.1 else g.2
  else if ch < 14 then s.prt.chAct && chopperAt s ch && !s.prt.chXref && passed s.prt.chMoved 640 (fineNow s)
  else if ch = 14 then s.prt.dis == .on
  else bit s.prt.ctl 57 && (s.drv.st == .configured || s.drv.st == .armed || s.drv.st == .running)

/-- The command path of a channel has read off at or after an instant (R384); the chopper's has been on since it last switched. -/
def readOff (s : State) (ch : Nat) (since : Int) : Bool :=
  !gateCommand s ch ||
    (if ch < 12 then (match lastRead s (ch / 2) (ch % 2 == 0) false (fineNow s) with | some e => decide (since ≤ e) | none => false)
     else decide (ch < 14) && (match s.prt.chAt with | some t => decide (since < ((t * 8 / 5 : Nat) : Int)) | none => false))

/-- A die holds its gate off after a silent link, until its command path next reads off (R384). -/
def heldOff (s : State) (ch : Nat) : Bool :=
  let g := s.gdv.at ch
  g.offHold && !(!g.silent && match g.resumedAt with | some r => readOff s ch r | none => false)

/-- A driver die may source: the channel is enabled, reports no BLOCK of its own, sees its link, and is not held off (R381, R384, R391,
R396, R398). -/
def dieReady (s : State) (ch : Nat) : Bool :=
  let g := s.gdv.at ch
  bit g.cfg 63 && !bit g.stat 5 && !g.silent && !heldOff s ch

/-- The gate of a channel is driven on: the gate command, the gate-enable and the fast-protection turn-off all permit it (R13). -/
def gateOn (s : State) (ch : Nat) : Bool := gateCommand s ch && gateEnable s ch && !turnedOff s ch && dieReady s ch

/-- GDV_STAT of a channel: BLOCK is reported while the output stage sources, too (R399, R408). -/
def gdvStat (s : State) (ch : Nat) : W32 := setBit (s.gdv.at ch).stat 5 (bit (s.gdv.at ch).stat 5 || gateOn s ch)

end Sys2Proof.Machine
end

