-- ==== Sys2Proof/Machine/Modes.lean ====
section
/-! DEFINITION. The module state machine: what a transition does (R95), the resolution of state events (R96), and commands
that change the state. -/

namespace Sys2Proof.Machine

/-- The target of a state event judged against a state (R95); none where R95 has no row. -/
def judge (m : Mode) (k : EvKind) : Option Mode :=
  match k with
  | .latch => if toSafeStop.contains m then some .fault else none
  | .stopReq => if m == .standby || m == .configured || m == .armed || m == .running then some .safeStop else none
  | .trip => if m == .armed || m == .running then some .safeStop else none
  | .runStop => if m == .running then some .safeStop else none
  | .thermal => if m == .running then some .configured else none
  | .runEnd => if m == .running then some .armed else none

/-- Rank of a state event (R96): FAULT, then SAFE_STOP, then CONFIGURED by thermal orderly stop, then the target of a
command. -/
def rank : EvKind → Nat
  | .latch => 4 | .stopReq => 3 | .trip => 3 | .runStop => 3 | .thermal => 2 | .runEnd => 1

/-- Trip lines mapped to a phase leg that are asserted (R96, R412, R442). -/
def phaseTrip (s : State) : Bool :=
  (List.range 12).any fun i => bit s.prt.tripLine i && decide (fld s.prt.trip (19 + 4 * i) (16 + 4 * i) ≤ 5)

/-- Conditions that persist and therefore arise again as events (R96): a latched fault, a level below Enabled of a machine
in use, an asserted trip line. -/
def persistent (s : State) : List StateEvent :=
  (s.io.latched.map fun c => ⟨.latch, c⟩)
    ++ (if enabledAll s then [] else
          [⟨.trip, if inUse s 0 && level s 0 != 0 then (stoCause s 0).getD 0 else (stoCause s 1).getD 0⟩])
    ++ (if phaseTrip s then [⟨.trip, 0x2001⟩] else [])

/-- The event that wins: the highest rank among those that R95 has a row for, the first to arrive among equals. -/
def winner (m : Mode) (evs : List StateEvent) : Option (Mode × StateEvent) :=
  evs.foldl (fun best e =>
    match judge m e.kind, best with
    | some t, none => some (t, e)
    | some t, some (_, b) => if rank b.kind < rank e.kind then some (t, e) else best
    | none, _ => best) none

/-- PWM on a transition: force modes 2 and 3 are released, mode 1 outside CONFIGURED, ARMED and RUNNING (R371); HOLD is 1
outside RUNNING and set on entry (R359); in OFF, BOOT, COPPICE and STANDBY the counters are stopped (R360), and they start at the
valley, a network-locked unit at a target instant (R367). -/
def PwmUnit.transit (u : PwmUnit) (src dst : Mode) (t : Int) : PwmUnit :=
  let keep1 := dst == .configured || dst == .armed || dst == .running
  let u := if countState dst && !countState src then { u with origin := t, corr := 0, waiting := u.inForce.sync == 9 } else u
  { u with hold := true
           fmode := if u.fmode = 1 && keep1 then 1 else 0
           fpend := none
           cutoff := if keep1 || dst == .safeStop || dst == .fault then u.cutoff else false }

/-- A context on a transition (R147): a context that writes PWM shadows runs only in RUNNING, and starts from its initial values
there; no context runs in STANDBY. -/
def Ctx.transit (x : Ctx) (dst : Mode) : Ctx := if dst == .standby || x.outPwm then { x with primed := false } else x

/-- The contexts that a transition stops; an activation under way ends there, which the spec leaves open (R147; log entry 65). -/
def stopped (s : State) (dst : Mode) : List Nat := (List.range 160).filter fun c => dst == .standby || (ctxAt s c).outPwm

/-- Protection on a transition: a discharge goes on only among CONFIGURED, SAFE_STOP and FAULT (R438); the chopper runs from
ARMED to FAULT (R428); the safe pattern of a trip ends where the trip paths are not armed (R415, R418). -/
def Prt.transit (p : Prt) (dst : Mode) : Prt :=
  let armedSet := dst == .armed || dst == .running || dst == .safeStop || dst == .fault
  { p with dis := if dst == .configured || dst == .safeStop || dst == .fault then p.dis else .idle
           chAct := if armedSet then p.chAct else false
           ovHold := if armedSet then p.ovHold else false
           act := if dst == .safeStop || dst == .fault then p.act else Vector.replicate 2 false }

/-- The pair on a transition: a split ends with any transition out of STANDBY and CONFIGURED (R504). -/
def Pair.transit (p : Pair) (dst : Mode) : Pair :=
  if p.split && dst != .standby && dst != .configured then
    { p with split := false, services := 0, core1 := .lockstep, joining := false }
  else p

/-- Entry into and exit from RUNNING as the cold samples of R404 see them; the time base counts quarters of a
nanosecond. -/
def Drive.noteRun (d : Drive) (dst : Mode) (tb : Nat) : Drive :=
  if dst == .running && d.st != .running then
    { d with runAt := tb, coldRun := decide (d.leftRun + 2400000000000 ≤ tb) }
  else if d.st == .running && dst != .running then { d with leftRun := tb }
  else d

/-- A converter group is at a conversion boundary (R263). -/
def AcqGroup.boundary (g : AcqGroup) : Bool := g.held.isNone

/-- The sequence at entry 0, with nothing pending. -/
def AcqGroup.fresh (g : AcqGroup) : AcqGroup :=
  { g with pos := 0, rep := 0, started := false, pend := false, jpend := 0, startAt := none, first := false }

/-- A changed configuration takes effect: the sequence restarts at entry 0, and pending triggers are discarded (R258). -/
def AcqGroup.adopt (g : AcqGroup) : AcqGroup :=
  match g.next with
  | some c => if g.boundary then { g.fresh with gcfg := c.1, seq := c.2.1, inj := c.2.2, next := none } else g
  | none => g

/-- A converter group outside the states in which it runs: what it held and what was pending is discarded (R254), and a changed
configuration takes effect (R258). -/
def AcqGroup.halt (g : AcqGroup) : AcqGroup := { g.fresh with held := none, test := false }.adopt

/-- An observer as the module leaves RUNNING: its streams return to it (R324). -/
def Obs.leaveRun (o : Obs) : Obs := { o with fallbk := none }

/-- Safety on a transition: the state itself holds the STO request line in SAFE_STOP and FAULT (R450); the torque monitor counts failed
checks anew in RUNNING (R466, R468). -/
def Safety.transit (b : Safety) (dst : Mode) : Safety :=
  if dst == .safeStop || dst == .fault then { b with stoRestart := false, stoEscal := false }
  else if dst == .running then { b with mach := b.mach.map fun x => { x with tmFail := 0 } }
  else b

/-- A transition to a state other than OFF: PREV_STATE, CAUSE and T_STATE (R107), the STATE interrupt bit (R73), and what each
block does. In STANDBY no committed configuration is held (R95, R97). -/
def enterRaw (s : State) (dst : Mode) (cause : W16) : State :=
  let io := if s.drv.st != .off && s.drv.st != dst then s.io.raise 1 else s.io
  let ends := dst != .running
  { s with
    io := io
    drv := { s.drv.noteRun dst s.clk.tb with st := dst, prev := s.drv.st, cause := cause, tState := now s, ramp := if ends then none else s.drv.ramp,
                                             committed := s.drv.committed && dst != .standby }
    pwm := { s.pwm with units := (noteUnits s).pwm.units.map fun u => u.transit s.drv.st dst (fineNow s) }
    thk := let t := (dropActs s (stopped s dst)).thk
           { t with ctxs := t.ctxs.map fun x => x.transit dst }
    prt := s.prt.transit dst
    acq := if dst == .standby then { s.acq with groups := s.acq.groups.map AcqGroup.halt } else s.acq
    pos := let p := if ends && s.drv.st == .running then { s.pos with obs := s.pos.obs.map Obs.leaveRun } else s.pos
           if dst == .standby then { p with view := none } else p
    dmd := { s.dmd with catch_ := if ends then Vector.replicate 2 {} else s.dmd.catch_ }
    gdv := if dst == .running then s.gdv.map fun g => { g with cold := [] } else s.gdv
    icp := s.icp.transit dst
    saf := s.saf.transit dst }

/-- A failure record copied to the start-failure area (R104). -/
def startRec (f : StartFail) (num : W32) : FaultRec :=
  { code := f.code, state := 1, rflags := 4, num := num, time := BitVec.ofNat 64 (f.secs.toNat * 2 ^ 32), unit := 0xFFFF,
    data0 := f.stage.zeroExtend 32, data1 := 0, copied := true }

/-- The failure records not yet copied go to the start-failure area, oldest first (R104). -/
def copyStartLog (s : State) : State :=
  if !flashOk s then s
  else
    let fresh := (s.aon.fails.filter fun f => !f.copied).reverse
    let nv := fresh.foldl (fun (nv : Nv) f =>
      { nv with startLog := (startRec f (nv.startNum + 1) :: nv.startLog).take 256, startNum := nv.startNum + 1 }) s.nv
    { s with nv := nv, aon := { s.aon with fails := s.aon.fails.map fun f => { f with copied := true } } }

/-- A transition that Icsis or the boot ROM makes: behind it a checkpoint seals (R489), and each entry into STANDBY or COPPICE copies
the failure records (R104). -/
def enter (s : State) (dst : Mode) (cause : W16) : State :=
  let t := sealCp (enterRaw s dst cause)
  if dst == .standby || dst == .coppice then copyStartLog t else t

/-- Jobs that the present state makes illegal complete with ST_PREEMPTED (R70). -/
def preempt (s : State) : State :=
  (s.io.jobs.filter fun j => !legal s.drv.st j.opcode.toNat).foldl
    (fun s j => complete s j.opcode.toNat j.req stPreempted []) s

/-- The evaluation of the arrived state events (R96): the winner takes effect, every other one is discarded. -/
def evaluate (s : State) : State :=
  let evs := s.drv.events ++ persistent s
  let s' := { s with drv := { s.drv with events := [] } }
  match winner s.drv.st evs with
  | none => s'
  | some (m, e) => preempt (enter s' m e.cause)

/-- STATE_EVENT_EVALUATION (R96). -/
def execStateEventEvaluation (s : State) : Host.Outcome State Fault Refusal :=
  if serving s || (s.drv.st != .off && s.drv.st != .boot && s.icp.dbg) then .next (evaluate s) else .next s

/-- An ageing site at a reset: MNOW and PREERR read 0 again (R552). -/
def AgeSite.reload (a : AgeSite) : AgeSite := { a with word := setBit (setFld a.word 47 40 0) 18 false }

/-- HP_CTRL after a reset: CRC_EN = 1 and HOSTWD as the fuses hold it (R11, R45, R473). -/
def resetHpCtrl (f : Fuses) : W32 := setFld (2 : W32) 31 16 (if f.safetySet then fld (f.safety.at 8) 31 16 else 0)

/-- The reset of every domain but the always-on logic: flash and fuses stay, everything else takes its reset value (R95,
R539); record numbers count on from the flash log's (R82). -/
def coldReset (s : State) : State :=
  { State.reset with
    pending := s.pending, aon := s.aon, free := s.free
    nv := { s.nv with age := s.nv.age.map AgeSite.reload }
    io := { State.reset.io with logNum := (s.nv.flashLog.head?.map FaultRec.num).getD 0, hpCtrl := resetHpCtrl s.nv.fuses }
    sup := { railOut := s.sup.railOut, released := s.sup.released, extRef := s.sup.extRef } }

/-- A command that changes the state (R69, R70, R95, R96): an event that outranks it, or came before it, takes the module
elsewhere, and the command completes with ST_PREEMPTED; otherwise it is applied, the state changes and it completes. -/
def stateJob (op : Nat) (r : Req) (s : State) (dst : Mode) (result : List Byte) (apply : State → State) : State :=
  match winner s.drv.st (s.drv.events ++ persistent s) with
  | some _ => complete (evaluate s) op r stPreempted []
  | none => preempt (complete (enter (apply { s with drv := { s.drv with events := [] } }) dst (BitVec.ofNat 16 op)) op r stOk result)

/-- The application of a state-changing job, behind the checks of `runJob`. -/
def runStateJob (op : Nat) (r : Req) (s : State) (dst : Mode) (check : Option (W16 × List Byte)) (apply : State → State) : State :=
  if !serving s then s
  else if !legal s.drv.st op then
    if (jobOf s op r).isSome then complete s op r stPreempted []
    else complete s op r stState [BitVec.ofNat 8 s.drv.st.code]
  else if !myTurn s op r then s
  else match check with
    | some (st, result) => complete s op r st result
    | none => stateJob op r s dst [] apply

/-- An escalation to chip level that takes the drive to SAFE_STOP and signals Blackthorn (R33). -/
def escalate (s : State) (cause : W16) : State :=
  arrive { s with saf := { s.saf with stoEscal := true } } .stopReq cause

end Sys2Proof.Machine
end

