-- ==== Sys2Proof/Machine/Crc.lean ====
section
/-! DEFINITION. Cyclic redundancy checks: the check units' CRC of R640, the frame CRC of R43 and the CRC-32 of R473. -/

namespace Sys2Proof.Machine

/-- The `w` low bits of a number in reverse order. -/
def revBits : Nat → Nat → Nat
  | 0, _ => 0
  | w + 1, v => (v % 2) * 2 ^ w + revBits w (v / 2)

/-- One of the eight shifts of R640. -/
def crcShift (w poly crc : Nat) : Nat :=
  if crc / 2 ^ (w - 1) % 2 = 1 then (crc * 2 % 2 ^ w) ^^^ poly else crc * 2 % 2 ^ w

/-- One byte of a frame (R640). -/
def crcByte (w poly : Nat) (refIn : Bool) (crc : Nat) (b : Byte) : Nat :=
  let v := if refIn then revBits 8 b.toNat else b.toNat
  Nat.repeat (crcShift w poly) 8 (crc ^^^ (v * 2 ^ (w - 8)))

/-- A frame's bytes folded into a running CRC. -/
def crcBytes (w poly : Nat) (refIn : Bool) (crc : Nat) (l : List Byte) : Nat := l.foldl (crcByte w poly refIn) crc

/-- RESULT of R640. -/
def crcEnd (w : Nat) (refOut : Bool) (xorout crc : Nat) : Nat :=
  (if refOut then revBits w crc else crc) ^^^ xorout

/-- CRC-16 of the host port: polynomial 0x1021, initial value 0xFFFF, no reflection, no final XOR (R43). -/
def crc16 (l : List Byte) : W16 := BitVec.ofNat 16 (crcBytes 16 0x1021 false 0xFFFF l)

/-- The CRC-32 of R473: the reset values of R639. -/
def crc32 (l : List Byte) : W32 :=
  BitVec.ofNat 32 (crcEnd 32 true 0xFFFFFFFF (crcBytes 32 0x04C11DB7 true 0xFFFFFFFF l))

end Sys2Proof.Machine
end

