-- ==== Sys2Proof/Machine/Operands.lean ====
section
/-! DEFINITION. The operands of a command: its payload fields by descriptor offset (R54), and the checks that every
payload has (R12, R64). -/

namespace Sys2Proof.Machine

/-- The field of `n` bytes at descriptor offset `o` (R7, R54). -/
def fieldAt (r : Req) (o n : Nat) : Nat := leNat r.pay (o - 8) n

/-- The `n` bytes at descriptor offset `o` are all 0 (R12). -/
def zeroAt (r : Req) (o n : Nat) : Bool := (List.range n).all fun k => byteAt r.pay (o - 8 + k) == 0

/-- The bytes at descriptor offset `o`. -/
def bytesAt (r : Req) (o n : Nat) : List Byte := padTo n ((r.pay.drop (o - 8)).take n)

/-- CLASS, reserved FLAGS and the length that the command states (R55, R64). -/
def formOk (r : Req) (len : Nat) : Bool :=
  decide (r.cls ≤ 4) && fld r.flags 7 3 == 0 && r.len == len && r.pay.length == len

/-- As `formOk` for a command whose payload starts with the operation byte OP. -/
def opForm (r : Req) (len op : Nat) : Bool := formOk r len && fieldAt r 8 1 == op

end Sys2Proof.Machine
end

