-- ==== Sys2Proof/Machine/Check.lean ====
section
/-! DEFINITION. The check units (chapter 20): what a unit takes from its source, how a frame closes, and CFG_CHK. -/

namespace Sys2Proof.Machine

/-- One item of a snooped source: its address tag, its sequence tag and its data bytes (R636). -/
structure Item where
  addr : Nat
  seq : Nat
  data : List Byte

/-- CRC width in bits (R638). -/
def Chk.w (u : Chk) : Nat := 8 * 2 ^ fld u.cfg 53 52

/-- SRC and CLOSE (R638). -/
def Chk.src (u : Chk) : Nat := fld u.cfg 62 56
def Chk.close (u : Chk) : Nat := fld u.cfg 49 48

/-- The result of the open frame (R640). -/
def Chk.value (u : Chk) : W32 := BitVec.ofNat 32 (crcEnd u.w (bit u.cfg 50) u.xorout.toNat u.crc.toNat)

/-- A frame close: RESULT and ITEMS latched, FNUM and NEWR, OVWR where a result was not read, MISM where it differs
from EXP, and the next frame starts from INIT (R641, R642). -/
def Chk.closed (u : Chk) : Chk :=
  let v := u.value
  let st := setFld u.stat 31 16 (fld u.stat 31 16 + 1)
  let st := if bit st 3 then setBit st 2 true else setBit st 3 true
  let st := if bit u.cfg 31 && v != u.exp then setBit st 1 true else st
  { u with result := v, items := BitVec.ofNat 32 u.count, stat := st, crc := u.init, count := 0 }

/-- One item folded in, if its address tag lies from LO to HI; the COUNT-th item closes a frame of CLOSE = 0 (R637,
R640, R641). -/
def Chk.take (u : Chk) (i : Item) : Chk :=
  if decide (u.lo.toNat ≤ i.addr) && decide (i.addr ≤ u.hi.toNat) then
    let tag := if fld u.cfg 55 54 = 1 then leBytes 4 i.addr else if fld u.cfg 55 54 = 2 then leBytes 4 i.seq else []
    let u := { u with crc := BitVec.ofNat 32 (crcBytes u.w u.poly.toNat (bit u.cfg 51) u.crc.toNat (tag ++ i.data)), count := u.count + 1 }
    if u.close = 0 && u.count == fld u.cfg 47 32 then u.closed else u
  else u

/-- The items of one source in order, and the end of a transfer, which closes a frame of CLOSE = 1 that has taken an
item. -/
def Chk.snoop (u : Chk) (src : Nat) (items : List Item) (last : Bool) : Chk :=
  if bit u.cfg 63 && u.src == src then
    let u := items.foldl Chk.take u
    if last && u.close == 1 && u.count != 0 then u.closed else u
  else u

/-- A unit replaced, with fault 0xD001 where MISM changes from 0 to 1 (R642). -/
def putChk (s : State) (k : Nat) (u : Chk) : State :=
  let old := s.chk.at k
  let s := { s with chk := s.chk.put k u }
  if !bit old.stat 1 && bit u.stat 1 then record s 0xD001 k u.stat else s

/-- The units run in STANDBY and every later state (R635). -/
def fromStandbyOn (m : Mode) : Bool := fromStandby.contains m

/-- What passes on a source is taken by every unit that snoops it (R635). -/
def snoop (s : State) (src : Nat) (items : List Item) (last : Bool) : State :=
  if fromStandbyOn s.drv.st then
    (List.range 8).foldl (fun s k => putChk s k ((s.chk.at k).snoop src items last)) s
  else s

/-- A unit that snoops the configuration controller's writes (SRC 0x20) after one Icsis job: the spec gives the job's writes no
addresses, so that what the unit then holds is open (R636; log entry 2). -/
def Chk.openJob (u : Chk) (v : Nat → Nat) : Chk :=
  if bit u.cfg 63 && u.src == 0x20 then
    let st := setFld u.stat 31 16 (v 0)
    let st := setBit (setBit st 3 (bit st 3 || v 1 % 2 == 1)) 2 (bit st 2 || v 2 % 2 == 1)
    { u with crc := BitVec.ofNat 32 (v 3), count := v 4 % 65536, result := BitVec.ofNat 32 (v 5), items := BitVec.ofNat 32 (v 6)
             stat := setBit st 1 (bit st 1 || (bit u.cfg 31 && v 7 % 2 == 1)) }
  else u

/-- An Icsis job that has written through the configuration controller passes on SRC 0x20 (R636). -/
def snoopConfig (s : State) : State :=
  if fromStandbyOn s.drv.st then
    let t := (List.range 8).foldl (fun t k => putChk t k ((t.chk.at k).openJob fun i => Config.freeNat (s.free + 8 * k + i))) s
    { t with free := s.free + 64 }
  else s

/-- A unit's read by QRY_TELEMETRY: a unit with CLOSE = 2 closes its frame, and NEWR is cleared (R641, R646). -/
def Chk.read (u : Chk) : Chk :=
  let u := if bit u.cfg 63 && u.close == 2 then u.closed else u
  { u with stat := setBit u.stat 3 false }

/-- RECORD of CFG_CHK UNIT within its ranges (R636 to R639). -/
def chkRecordOk (cfg : W64) (poly init xorout exp lo hi : W32) : Bool :=
  let w := 8 * 2 ^ fld cfg 53 52
  let src := fld cfg 62 56
  let narrow (x : W32) : Bool := decide (x.toNat < 2 ^ w)
  let srcs := [0x00, 1, 2, 3, 4, 0x10, 0x20, 0x30, 0x40, 0x50, 0x51, 0x52, 0x53]
  let seqSrcs := [1, 2, 3, 4, 0x20, 0x40]
  srcs.contains src && fld cfg 55 54 != 3 && fld cfg 53 52 != 3 && fld cfg 49 48 != 3
    && !(fld cfg 49 48 == 0 && fld cfg 47 32 == 0) && fld cfg 30 0 == 0
    && narrow poly && narrow init && narrow xorout && narrow exp
    && !(fld cfg 55 54 == 2 && !seqSrcs.contains src) && !(fld cfg 49 48 == 1 && decide (1 ≤ src) && decide (src ≤ 4))
    && decide (lo.toNat ≤ hi.toNat)

/-- CFG_CHK (R637 to R643, R645): UNIT restarts the unit with its new record. -/
def execCfgChkUnit (r : Req) (s : State) : Host.Outcome State Fault Refusal :=
  let k := fieldAt r 9 1
  let cfg : W64 := BitVec.ofNat 64 (fieldAt r 16 8)
  let w (i : Nat) : W32 := BitVec.ofNat 32 (fieldAt r (24 + 4 * i) 4)
  .next (runJob 0x1028 r s
    (guardSt (opForm r 40 0 && decide (k < 8) && zeroAt r 10 6 && chkRecordOk cfg (w 0) (w 1) (w 2) (w 3) (w 4) (w 5)) stRange
      (ok { s with chk := s.chk.upd k fun u =>
        { u with cfg := cfg, poly := w 0, init := w 1, xorout := w 2, exp := w 3, lo := w 4, hi := w 5,
                 crc := w 1, count := 0, stat := setBit (setFld u.stat 31 16 0) 3 false } })))

/-- CFG_CHK with OP = STATUS_CLR: the W1C mask on CHK_STAT[2:1] (R644, R645). -/
def execCfgChkStatusClr (r : Req) (s : State) : Host.Outcome State Fault Refusal :=
  let k := fieldAt r 9 1
  let mask : W32 := BitVec.ofNat 32 (fieldAt r 12 4)
  .next (runJob 0x1028 r s
    (guardSt (opForm r 8 1 && decide (k < 8) && zeroAt r 10 2 && mask &&& 0xFFFF_FFF9 == 0) stRange
      (ok { s with chk := s.chk.upd k fun u => { u with stat := w1c u.stat mask } })))

end Sys2Proof.Machine
end

