-- ==== Sys2Proof/Machine/Pwm.lean ====
section
/-! DEFINITION. The PWM generator (chapter 10): shadows and load-all, reloads, triggers, cut-off, network lock, the force
path, CFG_PWM, and the cell operations WCMP and LDALL. -/

namespace Sys2Proof.Machine

/-- PWM_STAT (R376). -/
def PwmUnit.stat (u : PwmUnit) : W32 :=
  BitVec.ofNat 32 (u.cbcCnt * 2 ^ 24 + b2n u.locked * 2 ^ 23 + b2n u.hold * 2 ^ 22 + u.fmode * 2 ^ 17 + b2n u.lda * 2 ^ 16
    + u.flags.toNat)

/-- A fault record of a unit, with its status word (R82, R376). -/
def recUnit (s : State) (u : Nat) (code : W16) : State := record s code u (s.pwm.units.at u).stat

/-- A W1C flag of PWM_STAT set; a code for its change from 0 is recorded with the unit number (R376, R379). -/
def pwmFlag (s : State) (u i : Nat) (code : W16) : State :=
  let old := (s.pwm.units.at u).flags
  let s := updUnit s u fun x => { x with flags := setBit x.flags i true }
  if bit old i then s else recUnit s u code

/-- A shadow written by its number (R343). -/
def putShadow (s : State) (k : Nat) (v : W18) : State :=
  if k < 0x18 then
    updUnit s (k / 4) fun x =>
      if k % 4 = 0 then { x with shCmp := v.toNat } else if k % 4 = 1 then { x with shPrd := v.toNat } else x
  else if 0x20 ≤ k ∧ k < 0x30 then
    { s with pwm := { s.pwm with aux := s.pwm.aux.upd ((k - 0x20) / 2) fun a =>
      if k % 2 = 0 then { a with shA := v.toNat } else { a with shB := v.toNat } } }
  else if k = 0x30 then { s with pwm := { s.pwm with shVec := v.setWidth 6 } }
  else s

/-- The shadow write of one writer as the check units see it (R636, SRC 0x10). -/
def shadowItem (k : Nat) (v : W18) : Item := { addr := k, seq := 0, data := leBytes 4 v.toNat }

/-- Load-all set for the units of a mask (R346), by a context or by the force path (R359). -/
def setLda (s : State) (mask : Nat) (byCtx : Bool) : State :=
  mapUnits s fun i x => if mask.testBit i then { x with lda := true, ldaCtx := x.ldaCtx || byCtx } else x

/-- WCMP and LDALL act: in RUNNING, in a context with OUT_PWM, and while its outputs are not suppressed (R29, R124). -/
def pwmWrites (s : State) (c : Nat) : Bool :=
  s.drv.st == .running && (ctxAt s c).outPwm && !((ctxAt s c).act.getD {}).suppressed

/-- WCMP (R119, R124, R343). -/
def execOpWcmp (c : CellSel) (w : W64) (s : State) : Host.Outcome State Fault Refusal :=
  match slotRuns 0x2C c w s with
  | none => .next s
  | some (b, p, _) =>
    let cell := ((s.thk.blocks.at b).cells).at p
    if condMet w cell && pwmWrites s c.ctx.val then
      let k := fld w 32 25
      let v := cell.x.at (fld w 51 47)
      .next (snoop (putShadow (slotDone s c w false) k v) 0x10 [shadowItem k v] false)
    else .next (slotDone s c w false)

/-- LDALL (R119, R124, R346); it ends a transfer of SRC 0x10 (R636). -/
def execOpLdall (c : CellSel) (w : W64) (s : State) : Host.Outcome State Fault Refusal :=
  match slotRuns 0x2D c w s with
  | none => .next s
  | some (b, p, _) =>
    if condMet w (((s.thk.blocks.at b).cells).at p) && pwmWrites s c.ctx.val then
      .next (snoop (setLda (slotDone s c w false) (fld w 7 0) true) 0x10 [] true)
    else .next (slotDone s c w false)

/-- RW fields of PWM_UCFG (FRZ, CBCEN, BLANK) and of PWM_UTIM (CMAX), and the reserved bits of both (R373, R374). -/
def ucfgRw : W64 := 0x0018_0000_0000_00FF
def utimRw : W64 := 0x0000_0000_0FF0_0000

/-- The records take effect at a reload (R378): all of them, or the RW fields alone while a restart waits. -/
def PwmUnit.takeRw (u : PwmUnit) : PwmUnit :=
  if u.restart then { u with eff := (u.eff &&& ~~~ucfgRw) ||| (u.cfg &&& ucfgRw)
                             effTim := (u.effTim &&& ~~~utimRw) ||| (u.tim &&& utimRw) }
  else { u with eff := u.cfg, effTim := u.tim }

/-- The copy at a reload with load-all set (R346, R349, R359). -/
def copyShadows (s : State) (u : Nat) : State :=
  let x := s.pwm.units.at u
  let r := x.inForce
  let low := r.varprd && decide (x.shPrd < r.pmin)
  let s := { s with pwm := { s.pwm with aux := s.pwm.aux.map fun a => if fld a.cfg 62 60 = u then { a with a := a.shA, b := a.shB } else a } }
  let s := updUnit s u fun x =>
    { x with cmp := x.shCmp, p := if r.varprd then max r.pmin x.shPrd else x.p, vec := bit s.pwm.shVec u,
             lda := false, ldaCtx := false, hold := if s.drv.st == .running && x.ldaCtx then false else x.hold }
  if low then pwmFlag s u 1 0x8002 else s

/-- A bootstrap refresh pulse at a reload (R393, R394): in RUNNING, under an early warning of the upper channel, with the
upper command on under priority 7. -/
def refresh (s : State) (u : Nat) (t : Int) : State :=
  if s.drv.st == .running && bit (s.gdv.at (2 * u)).stat 8 && outputPriority s u == 7 && upperOn s u t then
    { updUnit s u fun x => { x with refreshAt := some t } with gdv := s.gdv.upd (2 * u) fun g => { g with stat := setBit (incSat g.stat 31 24) 1 true } }
  else s

/-- A reload instant of unit `u` at its peak or its valley (R347). -/
def reloads (s : State) (u : Nat) (peak : Bool) : Bool :=
  let r := (s.pwm.units.at u).inForce
  unitCounts s u && (if peak then r.centre && bit r.cfg 61 else bit r.cfg 60)

/-- The machine whose current loop writes unit `u` (R190, R344). -/
def unitMachine (s : State) (u : Nat) : Option Nat :=
  (placed s).findSome? fun i => (i.laws.find? fun l => l.legs.contains u).map LawInst.machine

/-- The reload that covers the load-all of a current loop in stage 3 of a catch begins stage 4 (R247). -/
def beginRamp (s : State) (u : Nat) : State :=
  match unitMachine s u with
  | some m =>
    let c := s.dmd.catch_.at m
    if c.sync && c.stage == 3 then { s with dmd := { s.dmd with catch_ := s.dmd.catch_.put m { c with stage := 4, sync := false } } } else s
  | none => s

/-- PWM_RELOAD (R346 to R350, R359, R364, R371, R378, R393): what waits for a reload takes effect, and with load-all set
the shadows are copied; with that of a catch in stage 3, stage 4 begins (R247). -/
def execPwmReload (u : Fin 6) (peak : Bool) (s : State) : Host.Outcome State Fault Refusal :=
  if reloads s u.val peak then
    let s := placeAt s u.val peak
    let t := (s.pwm.units.at u.val).origin + (if peak then (activeP s u.val : Int) * stepU s u.val else 0)
    let s := updUnit (noteGroup s u.val t) u.val fun x =>
      { x.takeRw with cutoff := false, refreshAt := none, fmode := x.fpend.getD x.fmode, fpend := none,
                      cbcMark := if peak then x.cbcMark else false }
    let byCtx := (s.pwm.units.at u.val).ldaCtx
    let s := if (s.pwm.units.at u.val).lda then copyShadows s u.val else s
    let s := if byCtx then beginRamp s u.val else s
    let s := if !(s.pwm.units.at u.val).inForce.omode && decide (activeP s u.val < (s.pwm.units.at u.val).cmp)
      then pwmFlag s u.val 1 0x8002 else s
    .next (refresh s u.val t)
  else .next s

/-- A trigger source fires at an instant of the time base. -/
def fire (s : State) (k t : Nat) : State := { s with pwm := { s.pwm with trigAt := s.pwm.trigAt.put k (some t) } }

/-- SAMPLE_TRIGGER (R351): source 0x01 + n fires SMPOFS cycles after the valley or peak that SMPSEL selects. The line's edge is the
hold edge of the groups that it triggers (`edgeTick`). -/
def execSampleTrigger (u : Fin 6) (peak : Bool) (s : State) : Host.Outcome State Fault Refusal :=
  let r := (s.pwm.units.at u.val).inForce
  if unitCounts s u.val && (if peak then r.centre && bit r.cfg 59 else bit r.cfg 58) then
    .next (fire (placeAt s u.val peak) (1 + u.val) (s.clk.tb + 5 * r.smpofs))
  else .next s

/-- AUX_EVENT (R361, R362): source 0x11 + m fires, where the channel's values and its unit's position give an event. -/
def execAuxEvent (m : Fin 8) (s : State) : Host.Outcome State Fault Refusal :=
  let a := s.pwm.aux.at m.val
  if bit a.cfg 63 && unitCounts s (fld a.cfg 62 60) && auxFires s m.val (fineNow s) then .next (fire s (0x11 + m.val) s.clk.tb) else .next s

/-- OVERLAP_LOCKOUT (R355). -/
def execOverlapLockout (u : Fin 6) (s : State) : Host.Outcome State Fault Refusal :=
  if unitCounts s u.val then
    .next (recUnit (updUnit (noteUnits s) u.val fun x => { x with overlap := true, flags := setBit x.flags 2 true }) u.val 0x8001)
  else .next s

/-- CBC_CUTOFF (R364, R433): an enabled line that is active outside the blanking window cuts the unit off until its next reload.
`ofs` places the instant within the time base's step (log entry 41). -/
def execCbcCutoff (u : Fin 6) (line : Fin 4) (ofs : Fin 52) (s : State) : Host.Outcome State Fault Refusal :=
  let x := s.pwm.units.at u.val
  let r := x.inForce
  let t := fineNow s + (ofs.val : Int)
  if unitCounts s u.val && r.cbcen.testBit line.val && bit s.prt.cbcLine line.val && !blanked s u.val t && !x.cutoff then
    .next (pwmFlag (updUnit (noteGroup s u.val t) u.val fun x =>
      { x with cutoff := true, cbcMark := true, cbcCnt := if x.cbcMark then x.cbcCnt else satInc 255 x.cbcCnt }) u.val 4 0x8003)
  else .next s

/-- An error in fine ticks wrapped into −Tc/2 to Tc/2 (R367). -/
def wrapErr (e : Int) (tc : Nat) : Int :=
  let m := e % tc
  if 2 * m > tc then m - tc else m

/-- The distance in fine ticks from the nearest target instant of a network-locked unit to `t`, on the local clock (R366, R367). -/
def targetErr (s : State) (u : Nat) (t : Int) : Int :=
  let tc : Int := (carrier s u * 5 / 32 : Nat)
  let ns : Rat := (s.clk.ns.toNat : Rat) + (s.clk.frac.toNat : Rat) / 2 ^ 32 + ((t - fineNow s : Int) : Rat) * 5 / 32
  let target := rndDiv ((s.pwm.units.at u).inForce.phs * tc) 65536
  wrapErr (rndRat ((ns - target) * 32 / 5)) (carrier s u)

/-- What the CLK_PWM copy of the local clock may be off by: 2 ns, in fine ticks (R595). -/
def copyErr (err : Int) : Int := clampI (-12) 12 err

/-- The lock measurement of a network-locked unit at its valley (R367, R368). -/
def lockStep (s : State) (u : Nat) (err : Int) : State :=
  let x := s.pwm.units.at u
  let e := wrapErr err (carrier s u)
  let m : Int := x.inForce.cmax
  let good := if |e| ≤ 64 then satInc 16 x.good else 0
  let s' := updUnit s u fun x => { x with corr := clampI (-m) m (rndDiv (-4 * e) 5), good := good }
  if |e| > 320 then
    if x.locked then recUnit (updUnit s' u fun x => { x with locked := false, flags := setBit x.flags 6 true }) u 0x8004 else s'
  else if good = 16 then updUnit s' u fun x => { x with locked := true } else s'

/-- The units that follow `u` take at its valley the position that it had PHS / 65,536 of the period before, so that their valleys come
that much after its own (R365; log entry 41). -/
def resync (s : State) (u : Nat) : State :=
  let o := (s.pwm.units.at u).origin
  let t : Int := carrier s u
  mapUnits s fun n x =>
    if n != u && masterOf (effRecs s) n == u then
      let d := t * x.inForce.phs / 65536
      { x with origin := if d = 0 then o else o + d - t, corr := 0 }
    else x

/-- What ends and begins at a valley (R355, R364, R369): the overlap lock-out ends, a cut-off that goes on counts in the new period too,
and a counter frozen with FRZ = 2 stops. -/
def PwmUnit.atValley (x : PwmUnit) : PwmUnit :=
  let on := x.cutoff && x.inForce.rld == 2
  { x with overlap := false, cbcMark := on, cbcCnt := if on then satInc 255 x.cbcCnt else x.cbcCnt,
           stopped := x.frozen && x.inForce.frz == 2 }

/-- The first valley of a network-locked unit, at a target instant (R367). -/
def firstValley (s : State) (u : Nat) (err : Int) : State :=
  let e := targetErr s u (fineNow s)
  updUnit s u fun x => { x with waiting := false, origin := fineNow s - e + err }

/-- CARRIER_VALLEY (R355, R365, R367, R369): the period ends, the units that follow are placed, and a network-locked unit measures its
error against the nearest target instant; `err` is the error of the clock copy on which it does so (R595; log entry 41). -/
def execCarrierValley (u : Fin 6) (err : Int) (s : State) : Host.Outcome State Fault Refusal :=
  let x := s.pwm.units.at u.val
  let first := x.waiting && countState s.drv.st && bit x.eff 63 && !x.stopped
  if unitCounts s u.val || first then
    let s := if first then firstValley s u.val (copyErr err) else placeAt s u.val false
    let t := (s.pwm.units.at u.val).origin
    let s := updUnit (noteGroup s u.val t) u.val PwmUnit.atValley
    let s := if (s.pwm.units.at u.val).inForce.sync = 9 then lockStep s u.val (targetErr s u.val t + copyErr err) else s
    .next (resync s u.val)
  else .next s

/-- A unit restarts (R365, R367, R378): its records take effect, its load-all is cleared, its lock begins anew; its counter stands at the
valley, and a network-locked one that was not counting waits for a target instant. -/
def PwmUnit.restarted (u : PwmUnit) (t : Int) (wait : Bool) : PwmUnit :=
  { u with eff := u.cfg, effTim := u.tim, restart := false, lda := false, ldaCtx := false, corr := 0, good := 0, locked := false,
           origin := t, refreshAt := none, waiting := wait && (UnitRec.mk u.cfg u.tim).sync == 9 }

/-- A unit and its followers restart. -/
def restartUnit (s : State) (u : Nat) (wait : Bool) : State :=
  let t := fineNow s
  let s := noteUnits s
  { s with pwm := { s.pwm with units := s.pwm.units.map fun x =>
      if (UnitRec.mk x.cfg x.tim).sync = u + 1 then x.restarted t wait else x } } |> (updUnit · u fun x => x.restarted t wait)

/-- PWM_UNIT_RESTART (R378): at the unit's next valley, or at its next target instant. -/
def execPwmUnitRestart (u : Fin 6) (s : State) : Host.Outcome State Fault Refusal :=
  if (s.pwm.units.at u.val).restart then .next (restartUnit s u.val false) else .next s

/-- One unit's records within the ranges of R373 and R374. -/
def unitRecOk (n : Nat) (r : UnitRec) : Bool :=
  let fol := decide (1 ≤ r.sync) && decide (r.sync ≤ 6)
  r.cfg &&& 0x0007_0000_0000_0000 == 0 && r.tim &&& 0x0000_0000_000F_0000 == 0
    && r.rld != 0 && (r.centre || (r.rld == 1 && decide (r.smpsel ≤ 1))) && decide (r.csh ≤ 5) && r.frz != 3
    && (r.sync == 0 || r.sync == 9 || (fol && r.sync != n + 1)) && (decide (r.blank ≤ 7) || r.blank == 15)
    && r.cmax != 0 && decide (2 ≤ r.prd) && !(r.varprd && decide (r.prd < r.pmin))

/-- The rules that bind the units together: the carrier limit of R340, followers (R365) and the network lock (R366). -/
def unitsOk (us : Tab 6 UnitRec) : Bool :=
  (List.range 6).all fun n =>
    let r := us.at n
    let m := us.at (masterOf us n)
    let fol := decide (1 ≤ r.sync) && decide (r.sync ≤ 6)
    let t := 5 * shortest us n
    decide (32000 ≤ shortest us n)
      && (!fol || (m.centre == r.centre && m.csh == r.csh && !r.varprd && !(decide (1 ≤ m.sync) && decide (m.sync ≤ 6))))
      && (r.sync != 9 || (!r.varprd && t % 32 == 0 && 1000000000 % (t / 32) == 0))

/-- The overvoltage filter and the largest dead time leave the trip its bound (R425); times in fine ticks. -/
def tripTimeOk (us : Tab 6 UnitRec) (ovfilt : Nat) : Bool :=
  decide (ovfilt * 320 + us.toList.foldl (fun a r => max a (max r.dtu r.dtl)) 320 ≤ 11520)

/-- OVFILT (R440). -/
def ovfilt (s : State) : Nat := fld s.prt.dcl 19 14

/-- The record of CFG_PWM UNIT at offset 16. -/
def unitReq (r : Req) : UnitRec := { cfg := BitVec.ofNat 64 (fieldAt r 16 8), tim := BitVec.ofNat 64 (fieldAt r 24 8) }

/-- A UNIT record changes an RWA field (R374, R378). -/
def changesRwa (x : PwmUnit) (n : UnitRec) : Bool :=
  !sameOutside ucfgRw x.cfg n.cfg || !sameOutside utimRw x.tim n.tim

/-- The statuses with which a CFG_PWM UNIT is refused, in the order of R69. -/
def unitCheck (s : State) (r : Req) : Option W16 :=
  let u := fieldAt r 9 1
  let n := unitReq r
  let us := (unitRecs s).put u n
  if !(opForm r 24 0 && decide (u < 6) && zeroAt r 10 6 && unitRecOk u n && unitsOk us && tripTimeOk us (ovfilt s)
      && shadowsOk us (placed s)) then some stRange
  else if boundChecks us (auxRecs s) (specs s) = some stRange then some stRange
  else if changesRwa (s.pwm.units.at u) n && s.drv.st != .standby && s.drv.st != .configured then some stState
  else boundChecks us (auxRecs s) (specs s)

/-- A UNIT record applied (R374, R378): with a changed RWA field, P and CMP are loaded and the unit restarts, at once where
its counter does not run. A changed CMAX moves the trigger interval too, so the maintained words follow in every case (R195, R352). -/
def applyUnit (s : State) (u : Nat) (n : UnitRec) : State :=
  if changesRwa (s.pwm.units.at u) n then
    let runs := unitCounts s u
    let s := updUnit s u fun x =>
      { x with cfg := n.cfg, tim := n.tim, p := n.prd, shPrd := n.prd, cmp := 0, shCmp := 0, lda := false, ldaCtx := false, restart := true }
    writeMaintained (if runs then s else restartUnit s u true)
  else writeMaintained (updUnit s u fun x => { x with cfg := n.cfg, tim := n.tim })

/-- CFG_PWM UNIT (R337, R340, R343, R352, R353, R365, R366, R373, R374, R377, R378). -/
def execCfgPwmUnit (r : Req) (s : State) : Host.Outcome State Fault Refusal :=
  .next (runJob 0x1023 r s
    (match unitCheck s r with
     | some st => .refuse st
     | none => ok (applyUnit s (fieldAt r 9 1) (unitReq r))))

/-- PWM_AUX within its ranges (R361, R375). -/
def auxRecOk (us : Tab 6 UnitRec) (c : W64) : Bool :=
  let dir := fld c 58 57
  fld c 19 0 == 0 && decide (fld c 62 60 < 6) && dir != 0 && ((us.at (fld c 62 60)).centre || dir != 2)
    && (bit c 59 || decide (fld c 55 38 < fld c 37 20))

/-- An auxiliary record applied: A and B are loaded as the active and the shadow values (R375). -/
def putAux (s : State) (m : Nat) (c : W64) : State :=
  let a : PwmAux := { cfg := c, a := fld c 55 38, b := fld c 37 20, shA := fld c 55 38, shB := fld c 37 20 }
  { s with pwm := { s.pwm with aux := s.pwm.aux.put m a } }

/-- CFG_PWM AUX (R375, R377), with the bound checks that a changed trigger interval brings (R153). A record repeated where RWA fields
are fixed changes nothing (R8, R17). -/
def execCfgPwmAux (r : Req) (s : State) : Host.Outcome State Fault Refusal :=
  let m := fieldAt r 9 1
  let c : W64 := BitVec.ofNat 64 (fieldAt r 16 8)
  let bs := boundChecks (unitRecs s) ((auxRecs s).set m c) (specs s)
  .next (runJob 0x1023 r s
    (guardSt (opForm r 16 1 && decide (m < 8) && zeroAt r 10 6 && auxRecOk (unitRecs s) c && bs != some stRange
        && shadowsOk (unitRecs s) (placed s)) stRange
      (guardSt (c == (s.pwm.aux.at m).cfg || s.drv.st == .standby || s.drv.st == .configured) stState
        (guardSt (bs == none) stBound
          (ok (if s.drv.st == .standby || s.drv.st == .configured then writeMaintained (putAux s m c) else s))))))

/-- CFG_PWM STATUS_CLR (R376, R377): clearing CBC clears CBC_CNT. -/
def execCfgPwmStatusClr (r : Req) (s : State) : Host.Outcome State Fault Refusal :=
  let u := fieldAt r 9 1
  let mask := fieldAt r 12 4
  .next (runJob 0x1023 r s
    (guardSt (opForm r 8 2 && decide (u < 6) && zeroAt r 10 2 && BitVec.ofNat 32 mask &&& 0xFFFF_FF81 == 0) stRange
      (ok (updUnit s u fun x =>
        { x with flags := w1c x.flags (BitVec.ofNat 7 mask), cbcCnt := if mask.testBit 4 then 0 else x.cbcCnt }))))

/-- UNITS, MODE and the reserved bytes of CTL_FORCE (R370, R371); a mode other than 0 and 1 only in CONFIGURED and
RUNNING. -/
def forceOk (r : Req) (s : State) (mode : Nat) : Bool :=
  decide (fieldAt r 8 1 < 64) && fieldAt r 9 1 == mode && zeroAt r 12 4 && (decide (mode ≤ 1) || s.drv.st != .armed)

/-- A force mode set for the selected units: mode 1 at once, the others at the next reload (R371). -/
def force (s : State) (units mode : Nat) : State :=
  mapUnits (noteUnits s) fun i x =>
    if units.testBit i then (if mode = 1 then { x with fmode := 1, fpend := none } else { x with fpend := some mode }) else x

/-- CTL_FORCE with one of the modes 0 to 3; refused while the pair is split (R370, R371, R502). -/
def forceMode (mode : Nat) (r : Req) (s : State) : State :=
  runJob 0x2020 r s
    (guardSt (formOk r 8 && forceOk r s mode && zeroAt r 10 2) stRange
      (guardSt (!s.icp.split) stBusy (ok (force s (fieldAt r 8 1) mode))))

/-- CTL_FORCE release (R371). -/
def execCtlForceRelease (r : Req) (s : State) : Host.Outcome State Fault Refusal := .next (forceMode 0 r s)

/-- CTL_FORCE both off (R371). -/
def execCtlForceBothOff (r : Req) (s : State) : Host.Outcome State Fault Refusal := .next (forceMode 1 r s)

/-- CTL_FORCE lower on (R371). -/
def execCtlForceLowerOn (r : Req) (s : State) : Host.Outcome State Fault Refusal := .next (forceMode 2 r s)

/-- CTL_FORCE upper on (R371). -/
def execCtlForceUpperOn (r : Req) (s : State) : Host.Outcome State Fault Refusal := .next (forceMode 3 r s)

/-- The writes of CTL_FORCE mode 4 (R370). -/
def forceWrites (r : Req) : List (Nat × Nat × Nat) :=
  (List.range (fieldAt r 11 1)).map fun i =>
    (fieldAt r (16 + 8 * i) 1, fieldAt r (17 + 8 * i) 3, fieldAt r (20 + 8 * i) 4)

/-- A write of mode 4 is well formed: a shadow that R343 names, reserved bytes 0, and a value of 18 bits. -/
def forceWriteOk (us : Tab 6 UnitRec) (w : Nat × Nat × Nat) : Bool :=
  shadowOk us w.1 && w.2.1 == 0 && decide (w.2.2 < 2 ^ 18)

/-- CTL_FORCE shadow write (R343, R370, R371, R372): the shadows are written and then load-all is set, in one cycle. -/
def execCtlForceShadowWrite (r : Req) (s : State) : Host.Outcome State Fault Refusal :=
  let n := fieldAt r 11 1
  let ws := forceWrites r
  .next (runJob 0x2020 r s
    (guardSt (formOk r (8 + 8 * n) && forceOk r s 4 && fieldAt r 8 1 == 0 && decide (fieldAt r 10 1 < 64) && decide (1 ≤ n)
        && decide (n ≤ 12) && ws.all (forceWriteOk (unitRecs s))) stRange
      (guardSt (!s.icp.split) stBusy
        (ok (snoop (setLda (ws.foldl (fun s w => putShadow s w.1 (BitVec.ofNat 18 w.2.2)) s) (fieldAt r 10 1) false) 0x10
          (ws.map fun w => shadowItem w.1 (BitVec.ofNat 18 w.2.2)) true)))))

end Sys2Proof.Machine
end

