-- ==== Sys2Proof/Machine/Trips.lean ====
section
/-! DEFINITION. What the protection block does at a trip (R412 to R422), at a chopper fault (R429 to R431) and at a fault of
the switches of PWM7 (R434, R437), and the delivery of a stream entry (R136). -/

namespace Sys2Proof.Machine

/-- A driver channel changed. -/
def updGdv (s : State) (ch : Nat) (f : GdvChan → GdvChan) : State := { s with gdv := s.gdv.upd ch f }

/-- A fault record of a driver channel, with GDV_STAT (R82, R408). -/
def recGdv (s : State) (ch : Nat) (code : W16) : State := record s code ch (gdvStat s ch)

/-- The protection block changed. -/
def updPrt (s : State) (f : Prt → Prt) : State := { s with prt := f s.prt }

/-- PRT_STAT (R444). -/
def prtStat (s : State) : W32 :=
  s.prt.flags ||| BitVec.ofNat 32 (pat s 1 * 2 ^ 24 + pat s 0 * 2 ^ 22 + b2n (s.prt.dis != .idle) * 2 ^ 21
    + b2n s.prt.chAct * 2 ^ 18)

/-- A fault record of the protection block (R82, R446). -/
def recPrt (s : State) (unit : Nat) (code : W16) : State := record s code unit (prtStat s)

/-- A stream entry written to one region, with the item that the check units take from it (R136, R636). -/
def putStream (s : State) (g slot : Nat) (v flag : W18) : State :=
  let m := memSet (memSet (s.thk.rmem.at g) (2 * slot) v) (2 * slot + 1) flag
  snoop { s with thk := { s.thk with rmem := s.thk.rmem.put g m } } (1 + g)
    [{ addr := 2 * slot, seq := fld flag 7 0, data := leBytes 4 v.toNat ++ leBytes 4 flag.toNat }] false

/-- A stream entry written to every region of a route (R16). -/
def deliver (s : State) (route slot : Nat) (v flag : W18) : State :=
  (List.range 4).foldl (fun s g => if route.testBit g then putStream s g slot v flag else s) s

/-- Regions that hold a DMD context (R431). -/
def dmdRegions (s : State) : Nat :=
  (List.range 4).foldl (fun a g =>
    if (placed s).any (fun i => hasDmd i && (ctxAt s i.num).region == g) then a + 2 ^ g else a) 0

/-- REGEN_LIM (R431). -/
def regenLim (s : State) : W18 := if bit s.prt.flags 17 then 0 else 131071

/-- REGEN_LIM published as stream entry RGSLOT; SEQ counts its publications (R431; log entry 10). -/
def publishRegen (s : State) : State :=
  let s := updPrt s fun p => { p with rgSeq := p.rgSeq + 1 }
  deliver s (dmdRegions s) (fld s.prt.ctl 56 48) (regenLim s) (BitVec.ofNat 18 s.prt.rgSeq.toNat)

/-- A chopper fault (R430): both channels of PWM6 off, CHFLT, the record and the new REGEN_LIM. -/
def chopperFault (s : State) : State :=
  if bit s.prt.flags 17 then s
  else publishRegen (recPrt (updPrt s fun p => { p with flags := setBit p.flags 17 true, chAct := false, ovHold := false })
    noUnit 0x2012)

/-- A fault of GD15 clears AUXON (R434). -/
def auxFault (s : State) : State := recPrt (updPrt s fun p => { p with ctl := setBit p.ctl 57 false }) noUnit 0x2015

/-- A discharge whose switch is on ends with DFAIL and a code (R437). -/
def dischargeFail (s : State) (code : W16) : State :=
  if s.prt.dis != .on then s
  else recPrt (updPrt s fun p => { p with dis := .idle, flags := setBit p.flags 19 true }) noUnit code

/-- The trip paths are armed (R415). -/
def tripsArmed (m : Mode) : Bool := m == .armed || m == .running || m == .safeStop || m == .fault

/-- The trip paths act now: armed by the state, or around an injection (R90, R415). -/
def pathsArmed (s : State) : Bool := tripsArmed s.drv.st || s.io.inj

/-- The safe pattern of a machine acts from the instant of a trip (R418). -/
def actPattern (s : State) (m : Nat) : State := updPrt (noteUnits s) fun p => { p with act := p.act.put m true }

/-- A desaturation or overcurrent trip of phase leg `k`: LEGTRIP, the safe pattern for a desaturation, and FAULT with
0x2002 for a second trip within 10 s or a trip while ASC acts (R412, R419, R421, R422). An injected trip does not count (R90). -/
def legTrip (s : State) (k : Nat) (code : W16) : State :=
  let m := machineOf s.drv.arrange k
  let during := pat s m == 2
  let again := match s.prt.lastTrip.at k with | some t => !s.io.inj && decide (s.clk.tb ≤ t + 40000000000) | none => false
  let s := updPrt (noteUnits s) fun p =>
    { p with flags := setBit p.flags (8 + k) true, lastTrip := if s.io.inj then p.lastTrip else p.lastTrip.put k (some s.clk.tb),
             fwOnly := if during then p.fwOnly.put m true else p.fwOnly }
  let s := if during || again then recPrt s k 0x2002 else s
  arrive s .trip code

/-- A leg fault (R392): both commands of the leg's unit off, the record, and SAFE_STOP as R33 does. -/
def legFault (s : State) (ch : Nat) (code : W16) : State :=
  let s := recGdv (updUnit (noteUnits s) (ch / 2) fun u => { u with legHold := true }) ch code
  arrive { s with saf := { s.saf with stoEscal := true } } .trip code

/-- ARMED or RUNNING. -/
def driving (m : Mode) : Bool := m == .armed || m == .running

/-- A lock-out or a lost link of a channel reaches the block (R392, R429, R434, R437). -/
def channelLost (s : State) (ch : Nat) (code : W16) : State :=
  if ch < 12 then (if driving s.drv.st then legFault s ch code else s)
  else if ch < 14 then (if driving s.drv.st && bit s.prt.chop 63 then chopperFault s else s)
  else if ch = 14 then dischargeFail s 0x2022
  else auxFault s

end Sys2Proof.Machine
end

