-- ==== Sys2Proof/Machine/Gdv.lean ====
section
/-! DEFINITION. The gate drivers (chapter 11): lock-out, early warning, desaturation, cross-check, the isolation link, the
indicators, and CFG_GDV. -/

namespace Sys2Proof.Machine

/-- Fields of GDV_CFG (R405). -/
def GdvChan.en (g : GdvChan) : Bool := bit g.cfg 63
def GdvChan.vnsel (g : GdvChan) : Nat := fld g.cfg 60 57
def GdvChan.dsen (g : GdvChan) : Bool := bit g.cfg 56
def GdvChan.onsen (g : GdvChan) : Bool := bit g.cfg 35

/-- GDV_STAT with the part of BLOCK that the die holds (R399): either rail locked out, soft turn-off, or SOFF. -/
def GdvChan.blocked (g : GdvChan) : GdvChan :=
  { g with stat := setBit g.stat 5 (bit g.stat 7 || bit g.stat 6 || g.soft || bit g.stat 0) }

/-- DRIVER_LOCKOUT (R390 to R392, R429, R434, R437): a rail has lain below lock-out for 1 µs. Outside ARMED and RUNNING no
GDV_UV record is written. -/
def execDriverLockout (ch : Fin 16) (negRail : Bool) (s : State) : Host.Outcome State Fault Refusal :=
  let g := s.gdv.at ch.val
  if !g.en || (negRail && g.vnsel == 0) || s.drv.st == .off then .next s
  else
    let s := updGdv s ch.val fun g => { g with stat := setBit (setBit g.stat (if negRail then 7 else 6) true) 4 true }.blocked
    let s := if driving s.drv.st && decide (12 ≤ ch.val) then recGdv s ch.val 0x1001 else s
    .next (channelLost s ch.val 0x1001)

/-- LOCKOUT_RELEASE (R391): both rails have stayed above release for 1 µs. -/
def execLockoutRelease (ch : Fin 16) (s : State) : Host.Outcome State Fault Refusal :=
  .next (updGdv s ch.val fun g => { g with stat := setBit (setBit g.stat 7 false) 6 false }.blocked)

/-- EARLY_WARNING (R390, R393): EW, with fault 0x1005 where it changes from 0. -/
def execEarlyWarning (ch : Fin 16) (s : State) : Host.Outcome State Fault Refusal :=
  let g := s.gdv.at ch.val
  if g.en && !bit g.stat 8 && s.drv.st != .off then
    .next (recGdv (updGdv s ch.val fun g => { g with stat := setBit g.stat 8 true }) ch.val 0x1005)
  else .next s

/-- EARLY_WARNING_CLEAR (R390, R393). -/
def execEarlyWarningClear (ch : Fin 16) (s : State) : Host.Outcome State Fault Refusal :=
  .next (updGdv s ch.val fun g => { g with stat := setBit g.stat 8 false })

/-- A desaturation of a phase channel at the protection block, in an armed state: the other bank for ASC, the safe pattern on
the machine, and the leg's trip (R412, R419). -/
def phaseDesat (s : State) (ch : Nat) : State :=
  if pathsArmed s then
    let m := machineOf s.drv.arrange (ch / 2)
    let s := legTrip s (ch / 2) 0x1002
    actPattern (updPrt (noteUnits s) fun p => { p with otherBank := p.otherBank.put m (b2n (ch % 2 == 0) == ascBank s) }) m
  else s

/-- DESATURATION (R395 to R398, R412, R421, R429, R434, R437): soft turn-off begins; SOFF, DESAT and BLOCK are set, and the
protection block reacts. -/
def execDesaturation (ch : Fin 16) (s : State) : Host.Outcome State Fault Refusal :=
  let g := s.gdv.at ch.val
  if !g.en || !g.dsen || bit g.stat 0 || s.drv.st == .off then .next s
  else
    let s := updGdv s ch.val fun g =>
      { g with soft := true, stat := setBit (setBit (incSat g.stat 23 16) 3 true) 0 true }.blocked
    let s := recGdv s ch.val 0x1002
    if ch.val < 12 then .next (phaseDesat s ch.val)
    else if ch.val < 14 then
      .next (if b2n (ch.val == 12) == b2n (bit s.prt.ctl 58) then chopperFault s else s)
    else if ch.val = 14 then .next (dischargeFail s 0x2022)
    else .next (auxFault s)

/-- SOFT_TURNOFF_END (R396, R398): the full sink is on; SOFF and BLOCK stay. -/
def execSoftTurnoffEnd (ch : Fin 16) (s : State) : Host.Outcome State Fault Refusal :=
  .next (updGdv s ch.val fun g => { g with soft := false }.blocked)

/-- CROSSCHECK_REFUSAL (R356, R400): XREF and fault 0x1003; a unit's commands are both held off until the valley with XDRV
and XCMD, and the pair of PWM6 until the chopper is commanded off. -/
def execCrosscheckRefusal (ch : Fin 16) (s : State) : Host.Outcome State Fault Refusal :=
  if 14 ≤ ch.val || !(s.gdv.at ch.val).en || s.drv.st == .off then .next s
  else
    let s := recGdv (updGdv s ch.val fun g => { g with stat := setBit g.stat 2 true }) ch.val 0x1003
    if ch.val < 12 then
      .next (recUnit (updUnit (noteUnits s) (ch.val / 2) fun u => { u with overlap := true, flags := setBit (setBit u.flags 3 true) 2 true })
        (ch.val / 2) 0x8001)
    else .next (updPrt s fun p => { p with chXref := true })

/-- DRIVER_LINK_SILENCE (R384): a die that sees no link activity for 1 µs turns its gate off. -/
def execDriverLinkSilence (ch : Fin 16) (s : State) : Host.Outcome State Fault Refusal :=
  .next (updGdv s ch.val fun g => { g with silent := true, offHold := true, resumedAt := none })

/-- LINK_ACTIVITY_RESUMED (R384): activity has resumed for 10 µs; the gate may turn on again once the command reads off (`heldOff`). -/
def execLinkActivityResumed (ch : Fin 16) (s : State) : Host.Outcome State Fault Refusal :=
  .next (updGdv s ch.val fun g => { g with silent := false, linkLost := false, resumedAt := some (fineNow s) })

/-- A temperature sensor becomes broken (R529). -/
def sensorBroken (s : State) (n : Nat) : State :=
  if bit s.thm.broken n then s
  else
    let s := { s with thm := { s.thm with broken := setBit s.thm.broken n true } }
    record s 0x9011 n s.thm.stat

/-- GDV_LINK (R384, R392, R429, R434, R437, R529): no status word for 2 µs. -/
def execGdvLink (ch : Fin 16) (s : State) : Host.Outcome State Fault Refusal :=
  if (s.gdv.at ch.val).linkLost || s.drv.st == .off then .next s
  else
    let s := updGdv s ch.val fun g => { g with linkLost := true, stat := setBit g.stat 9 true }
    let s := if ch.val < 12 && driving s.drv.st then s else recGdv s ch.val 0x1004
    .next (sensorBroken (channelLost s ch.val 0x1004) (16 + ch.val))

/-- ON_STATE_SAMPLE (R401, R402): VSNS and the current word beside it. -/
def execOnStateSample (ch : Fin 16) (vsns : BitVec 12) (s : State) : Host.Outcome State Fault Refusal :=
  let g := s.gdv.at ch.val
  if g.en && g.onsen && s.drv.st != .off then
    let w := memGet (s.thk.rmem.at (fld g.ind 53 52)) (2 * fld g.ind 62 54)
    let iref := s18 (BitVec.ofNat 18 (fld g.ind 49 32))
    let small := decide (50 * |s18 w| < iref)
    .next (updGdv s ch.val fun g =>
      { g with vsns := vsns.toNat, pairs := g.pairs ++ [(vsns.toNat, w)],
               zeros := if small then (vsns.toNat :: g.zeros).take 64 else g.zeros })
  else .next s

/-- Forward current word of a pair, with the sign of IPOL (R402, R406). -/
def forward (ind : W64) (w : W18) : Int := if bit ind 51 then s18 w else -s18 w

/-- VOFS_eff in 2.5 mV units (R402). -/
def vofsEff (g : GdvChan) : Rat :=
  if !bit g.ind 50 && g.zeros.length == 64 then (g.zeros.foldl (· + ·) 0 : Nat) / 64 else (fld g.ind 31 20 : Nat)

/-- Ron in 10 µΩ for a voltage in 2.5 mV units and a current word (R402). -/
def ronOf (g : GdvChan) (ibase : Rat) (v : Rat) (i : Rat) : Rat := 250 * (v - vofsEff g) * 131072 / (i * ibase)

/-- A value that the spec does not say how to round: one of its two neighbours, by a free value (log entry 5). -/
def freeRound (q : Rat) (n : Nat) : Int := q.floor + (if q.den = 1 then 0 else ((n % 2 : Nat) : Int))

/-- Temperature in °C by the Ron table with linear interpolation; outside 25 °C to 200 °C the nearer end (R403, R407). -/
def invertRon (t : Tab 8 W16) (q : Rat) : Rat :=
  let v (i : Nat) : Rat := (t.at i).toNat
  if q ≤ v 0 then 25 else
    match (List.range 7).find? fun i => decide (q ≤ v (i + 1)) with
    | some i => 25 + 25 * i + 25 * (q - v i) / (v (i + 1) - v i)
    | none => 200

/-- Ron of the table at a temperature in 0.1 °C, interpolated, with the ends beyond 25 °C and 200 °C (R404). -/
def ronAt (t : Tab 8 W16) (d : Int) : Rat :=
  let v (i : Nat) : Rat := (t.at i).toNat
  let x := (clampI 250 2000 d - 250).toNat
  if x = 1750 then v 7 else v (x / 250) + (v (x / 250 + 1) - v (x / 250)) * (x % 250 : Nat) / 250

/-- The middle of a sorted list; of an even number of values, the mean of the middle two. -/
def median (l : List Nat) : Rat :=
  let r := l.mergeSort
  ((r.getD ((r.length - 1) / 2) 0 + r.getD (r.length / 2) 0 : Nat) : Rat) / 2

/-- Cold samples among the pairs of the interval, as Ron in 1/1,000 of 10 µΩ (R404). -/
def coldOf (s : State) (g : GdvChan) (ibase : Rat) : List Nat :=
  let iref := s18 (BitVec.ofNat 18 (fld g.ind 49 32))
  if s.drv.st == .running && s.drv.coldRun && decide (s.clk.tb ≤ s.drv.runAt + 800000000) then
    (g.pairs.filter fun p => decide (9 * iref ≤ 10 * forward g.ind p.2) && decide (10 * forward g.ind p.2 ≤ 11 * iref)).map fun p =>
      (1000 * ronOf g ibase p.1 (forward g.ind p.2)).floor.toNat
  else []

/-- WEAR from the cold samples of an entry into RUNNING once its first 200 ms have passed (R404). -/
def wearUpdate (s : State) (ch : Nat) (n : Nat) : State :=
  let g := s.gdv.at ch
  if decide (16 ≤ g.cold.length) && decide (s.drv.runAt + 800000000 < s.clk.tb) then
    let base := ronAt g.ron g.tcool
    let w := if base = 0 then 0 else (freeRound (median g.cold / 1000 / base * 16384) n).toNat
    updGdv { s with nv := { s.nv with wear := if base = 0 then s.nv.wear else s.nv.wear.put ch (w % 65536) } } ch fun g => { g with cold := [] }
  else s

/-- INDICATOR_UPDATE (R402 to R404): Ron from the interval's pairs, TJ from the table, the alarm, and WEAR. -/
def execIndicatorUpdate (ch : Fin 16) (s : State) : Host.Outcome State Fault Refusal :=
  let g := s.gdv.at ch.val
  match f32Rat g.ibase with
  | none => .next (updGdv s ch.val fun g => { g with pairs := [] })
  | some ibase =>
    if !bit g.ind 63 || s.drv.st == .off || ibase ≤ 0 then .next (updGdv s ch.val fun g => { g with pairs := [] })
    else
      let iref := s18 (BitVec.ofNat 18 (fld g.ind 49 32))
      let use := g.pairs.filter fun p => decide (iref ≤ 4 * forward g.ind p.2) && decide (0 < forward g.ind p.2)
      let cold := g.cold ++ coldOf s g ibase
      let n := freeVal s
      let m := freeVal (freeTaken s)
      let s := freeTaken (freeTaken (freeTaken s))
      if use.isEmpty then .next (wearUpdate (updGdv s ch.val fun g => { g with pairs := [], cold := cold }) ch.val n)
      else
        let k : Rat := use.length
        let v : Rat := (use.foldl (fun a p => a + p.1) 0 : Nat) / k
        let i : Rat := (use.foldl (fun a p => a + forward g.ind p.2) 0 : Int) / k
        let ron := ronOf g ibase v i
        let tj := invertRon g.ron (ron * 16384 / (s.nv.wear.at ch.val : Nat))
        let high := fld g.ind 19 8 != 0 && decide ((fld g.ind 19 8 : Nat) < 10 * tj)
        let cnt := if high then satInc 10 g.tjCount else 0
        let s := updGdv s ch.val fun g =>
          { g with pairs := [], cold := cold, ronVal := (freeRound ron n).toNat % 65536, tj := freeRound (16 * tj) m, tjCount := cnt }
        let s := if cnt = 10 && g.tjCount == 9 then
            recGdv (updGdv s ch.val fun g => { g with stat := setBit g.stat 10 true }) ch.val 0x1006 else s
        .next (wearUpdate s ch.val n)

/-- GDV_CFG within its ranges (R390, R395, R405). -/
def gdvCfgOk (s : State) (ch : Nat) (c : W64) : Bool :=
  fld c 26 0 == 0 && fld c 62 61 != 3 && (fld c 60 57 == 0 || (decide (2 ≤ fld c 60 57) && decide (fld c 60 57 ≤ 8)))
    && decide (fld c 55 50 ≤ 32) && decide (4 ≤ fld c 49 42) && decide (fld c 49 42 ≤ 200)
    && (bit c 56 || !(decide (ch < 14) && channelUsed s ch))

/-- Whether a command that changes RWA fields is refused with ST_STATE (R8). -/
def rwaState (s : State) : Bool := s.drv.st == .standby || s.drv.st == .configured

/-- CFG_GDV CHANNEL (R381, R405, R409): RW fields are ONSEN and SDLY. A channel out of use reports no lock-out. -/
def execCfgGdvChannel (r : Req) (s : State) : Host.Outcome State Fault Refusal :=
  let ch := fieldAt r 9 1
  let c : W64 := BitVec.ofNat 64 (fieldAt r 16 8)
  .next (runJob 0x1024 r s
    (guardSt (opForm r 16 0 && decide (ch < 16) && zeroAt r 10 6 && gdvCfgOk s ch c) stRange
      (guardSt (sameOutside 0x0000_000F_F800_0000 c (s.gdv.at ch).cfg || rwaState s) stState
        (ok (updGdv s ch fun g =>
          { g with cfg := c, stat := if bit c 63 then g.stat else setBit (setBit g.stat 7 false) 6 false }.blocked)))))

/-- CFG_GDV IND (R406, R409). -/
def execCfgGdvInd (r : Req) (s : State) : Host.Outcome State Fault Refusal :=
  let ch := fieldAt r 9 1
  let c : W64 := BitVec.ofNat 64 (fieldAt r 16 8)
  .next (runJob 0x1024 r s
    (guardSt (opForm r 16 1 && decide (ch < 16) && zeroAt r 10 6 && fld c 7 0 == 0) stRange
      (ok (updGdv s ch fun g => { g with ind := c }))))

/-- The Ron table of CFG_GDV TABLE: IBASE from 1 to 65,535 A and strictly ascending values (R407). -/
def ronTabOk (ibase : W32) (v : Nat → Nat) : Bool :=
  (match f32Rat ibase with | some q => decide (1 ≤ q) && decide (q ≤ 65535) | none => false)
    && (List.range 7).all fun i => decide (v i < v (i + 1))

/-- CFG_GDV TABLE (R407, R409). -/
def execCfgGdvTable (r : Req) (s : State) : Host.Outcome State Fault Refusal :=
  let ch := fieldAt r 9 1
  let ib : W32 := BitVec.ofNat 32 (fieldAt r 16 4)
  let v (i : Nat) : Nat := fieldAt r (20 + 2 * i) 2
  .next (runJob 0x1024 r s
    (guardSt (opForm r 28 2 && decide (ch < 16) && zeroAt r 10 6 && ronTabOk ib v) stRange
      (ok (updGdv s ch fun g => { g with ibase := ib, ron := Vector.ofFn fun i : Fin 8 => BitVec.ofNat 16 (v i.val) }))))

/-- CFG_GDV TCOOL (R404, R409). -/
def execCfgGdvTcool (r : Req) (s : State) : Host.Outcome State Fault Refusal :=
  let ch := fieldAt r 9 1
  let w : W32 := BitVec.ofNat 32 (fieldAt r 12 4)
  .next (runJob 0x1024 r s
    (guardSt (opForm r 8 3 && decide (ch < 16) && zeroAt r 10 2 && w == BitVec.signExtend 32 (w.setWidth 16)) stRange
      (ok (updGdv s ch fun g => { g with tcool := w.toInt }))))

/-- CFG_GDV STATUS_CLR (R408, R409): clearing DESAT or REFR clears its count. -/
def execCfgGdvStatusClr (r : Req) (s : State) : Host.Outcome State Fault Refusal :=
  let ch := fieldAt r 9 1
  let mask : W32 := BitVec.ofNat 32 (fieldAt r 12 4)
  .next (runJob 0x1024 r s
    (guardSt (opForm r 8 4 && decide (ch < 16) && zeroAt r 10 2 && mask &&& 0xFFFF_F9E1 == 0) stRange
      (ok (updGdv s ch fun g =>
        let st := w1c g.stat mask
        let st := if bit mask 3 then setFld st 23 16 0 else st
        { g with stat := if bit mask 1 then setFld st 31 24 0 else st }))))

end Sys2Proof.Machine
end

