-- ==== Sys2Proof/Machine/Prt.lean ====
section
/-! DEFINITION. Fast protection, the brake chopper and the discharge (chapter 12): the trips on the DC link, the chopper,
CTL_DISCHARGE, and CFG_PRT but for OP = CTL. -/

namespace Sys2Proof.Machine

/-- Fields of PRT_DCL and PRT_CHOP (R440, R441). -/
def ovt (s : State) : Nat := fld s.prt.dcl 63 53
def uvt (s : State) : Nat := fld s.prt.dcl 52 42
def chon (s : State) : Nat := fld s.prt.dcl 41 31
def choff (s : State) : Nat := fld s.prt.dcl 30 20
def chopEn (s : State) : Bool := bit s.prt.chop 63

/-- The chopper commanded on or off, with the instant (R428); commanding it off ends the hold of R400. -/
def Prt.chopper (p : Prt) (on : Bool) (tb : Nat) : Prt :=
  { p with chAct := on, chAt := some tb, ovHold := on && p.ovHold, chXref := on && p.chXref }

/-- A DCSNS value (R445). -/
def sense (s : State) (volts : Nat) : State := updPrt s fun p => { p with dcsns := volts }

/-- The reaction to an overvoltage: the chopper on at once, OV, the safe pattern on every machine, SAFE_STOP (R412, R424). -/
def ovReact (s : State) : State :=
  let s := updPrt s fun p =>
    let p := if bit p.chop 63 && !bit p.flags 17 then { p.chopper true s.clk.tb with ovHold := true } else p
    { p with flags := setBit p.flags 16 true }
  arrive (actPattern (actPattern (recPrt s noUnit 0x2010) 0) 1) .trip 0x2010

/-- The reaction to an under-voltage: UV, the safe pattern on every machine, SAFE_STOP (R412, R426). -/
def uvReact (s : State) : State :=
  let s := updPrt s fun p => { p with flags := setBit p.flags 15 true }
  arrive (actPattern (actPattern (recPrt s noUnit 0x2011) 0) 1) .trip 0x2011

/-- OVERVOLTAGE_TRIP (R412, R415, R424): the chopper on at once, the safe pattern on every machine, OV and SAFE_STOP. -/
def execOvervoltageTrip (volts : Nat) (s : State) : Host.Outcome State Fault Refusal :=
  let s := sense s volts
  .next (if ovt s != 0 && decide (ovt s < volts) && tripsArmed s.drv.st then ovReact s else s)

/-- UNDERVOLTAGE_TRIP (R412, R426): in ARMED and RUNNING, the safe pattern on every machine, UV and SAFE_STOP. -/
def execUndervoltageTrip (volts : Nat) (s : State) : Host.Outcome State Fault Refusal :=
  let s := sense s volts
  .next (if uvt s != 0 && decide (volts < uvt s) && driving s.drv.st then uvReact s else s)

/-- A trip line mapped to a leg is asserted (R412, R442). -/
def legLine (s : State) (leg : Nat) : Bool :=
  (List.range 12).any fun i => bit s.prt.tripLine i && fld s.prt.trip (19 + 4 * i) (16 + 4 * i) == leg

/-- LEG_REJOIN (R419): 5 µs after its trip line the leg joins the pattern again. -/
def execLegRejoin (leg : Fin 6) (s : State) : Host.Outcome State Fault Refusal :=
  if legLine s leg.val then .next s else .next (updPrt (noteUnits s) fun p => { p with legOff := p.legOff.put leg.val false })

/-- A time in µs has passed since the chopper last switched; the time base counts quarters of a nanosecond. -/
def chopperFree (s : State) (us : Nat) : Bool :=
  match s.prt.chAt with | some t => decide (t + 4000 * us ≤ s.clk.tb) | none => true

/-- CHOPPER_SWITCHING (R424, R428, R430): on above CHON, off below CHOFF, within the minimum times. -/
def execChopperSwitching (volts : Nat) (s : State) : Host.Outcome State Fault Refusal :=
  let s := sense s volts
  if chopEn s && !bit s.prt.flags 17 && tripsArmed s.drv.st then
    if !s.prt.chAct then
      (if chon s < volts && chopperFree s (fld s.prt.chop 55 49) then .next (updPrt s fun p => p.chopper true s.clk.tb) else .next s)
    else if volts < choff s && (s.prt.ovHold || chopperFree s (fld s.prt.chop 62 56)) then
      .next (updPrt s fun p => p.chopper false s.clk.tb)
    else .next s
  else .next s

/-- The chopper has been commanded as it is for CHDLY (R429, R441). -/
def chopperSettled (s : State) : Bool := chopperFree s (fld s.prt.chop 26 19)

/-- The magnitude of the chopper current's sinc2 output, and CHIMIN (R429, R441). -/
def chopperCurrent (s : State) : Nat := (s.acq.dsm.at (fld s.prt.chop 48 45)).fast.natAbs
def chimin (s : State) : Nat := fld s.prt.chop 44 27

/-- CHOPPER_FAULT (R429, R430): each cause under its own condition. -/
def execChopperFault (cause : ChopCause) (s : State) : Host.Outcome State Fault Refusal :=
  let named := fld s.prt.chop 48 45 != 15
  let holds := match cause with
    | .desat => true
    | .noCurrent => named && s.prt.chAct && chopperSettled s && decide (chopperCurrent s < chimin s)
    | .shorted => named && !s.prt.chAct && chopperSettled s && decide (chimin s < chopperCurrent s)
    | .lockout => driving s.drv.st
    | .link => driving s.drv.st
  if chopEn s && holds then .next (chopperFault s) else .next s

/-- GD14 has locked out, is held off after a desaturation, or has lost its link. -/
def gd14Bad (s : State) : Bool :=
  let g := s.gdv.at 14
  bit g.stat 7 || bit g.stat 6 || bit g.stat 0 || g.linkLost

/-- DISCHARGE_SWITCH_ON (R437): after the wait GD14 turns on, and CTL_DISCHARGE completes with ST_OK; a faulty switch ends
the discharge at once. -/
def execDischargeSwitchOn (s : State) : Host.Outcome State Fault Refusal :=
  if s.prt.dis == .waiting then
    let q := s.prt.disReq
    let s := updGdv (updPrt s fun p => { p with dis := .on, disReq := none }) 14 fun g => { g with offHold := g.offHold && g.silent }
    let s := match q with | some r => complete s 0x2021 r stOk [] | none => s
    .next (if gd14Bad s then dischargeFail s 0x2022 else s)
  else .next s

/-- DISCHARGE_DONE (R437): DCSNS has lain at or below VTGT for 1 ms. -/
def execDischargeDone (volts : Nat) (s : State) : Host.Outcome State Fault Refusal :=
  let s := sense s volts
  if s.prt.dis == .on && decide (volts ≤ s.prt.vtgt) then
    .next (updPrt s fun p => { p with dis := .idle, flags := setBit p.flags 20 true })
  else .next s

/-- DISCHARGE_TIMEOUT (R437). -/
def execDischargeTimeout (s : State) : Host.Outcome State Fault Refusal :=
  if s.prt.dis == .on then .next (dischargeFail s 0x2020) else .next s

/-- DISCHARGE_NOT_FALLING (R437). -/
def execDischargeNotFalling (s : State) : Host.Outcome State Fault Refusal :=
  if s.prt.dis == .on then .next (dischargeFail s 0x2021) else .next s

/-- A discharge applied (R437, R438): GD15 and AUXON off, DRUN, the outcome flags cleared, a desaturation of GD14
released. -/
def startDischarge (s : State) (r : Req) : State :=
  updPrt (updGdv s 14 fun g => { g with stat := setBit g.stat 0 false }.blocked) fun p =>
    { p with ctl := setBit p.ctl 57 false, flags := setBit (setBit p.flags 20 false) 19 false, dis := .waiting,
             vtgt := fieldAt r 8 2, tmax := fieldAt r 10 2, disReq := some r }

/-- The checks of CTL_DISCHARGE (R435, R436). -/
def dischargeCheck (s : State) (r : Req) : Option W16 :=
  if !(formOk r 8 && decide (fieldAt r 8 2 ≤ 2047) && decide (1 ≤ fieldAt r 10 2) && zeroAt r 12 4) then some stRange
  else if s.prt.dis != .idle || s.pwm.units.toList.any (fun u => decide (2 ≤ u.fmode)) then some stBusy
  else none

/-- CTL_DISCHARGE (R435 to R438): applied behind the checks of `runJob`; its completion comes with DISCHARGE_SWITCH_ON. -/
def execCtlDischarge (r : Req) (s : State) : Host.Outcome State Fault Refusal :=
  if jobRuns s 0x2021 r && dischargeCheck s r == none then .next (sealCp (startDischarge s r))
  else .next (runJob 0x2021 r s (match dischargeCheck s r with | some st => .refuse st | none => ok s))

/-- TMEN (R473). -/
def tmen (s : State) : Bool := bit (sfWord s 9) 15

/-- No DMD context is slower than 400 µs while the chopper is enabled or the torque monitor is on (R432, R470). -/
def dmdOk (s : State) (chen : Bool) : Bool :=
  !(dmdLimited (tmen s) chen && slowDmd (unitRecs s) (auxRecs s) (specs s) (placed s))

/-- CFG_PRT's form: LEN, OP, INST and the bytes an OP does not use (R445). -/
def prtForm (s : State) (r : Req) (len op : Nat) : Bool :=
  opForm r len op && (op == 4 || fieldAt r 9 1 == 0) && zeroAt r 10 2 && (op == 5 || zeroAt r 12 4) && dmdOk s (chopEn s)

/-- PRT_DCL and DCK within their ranges (R425, R440). -/
def dclOk (s : State) (d : W64) (dck : W32) : Bool :=
  let o := fld d 63 53
  let u := fld d 52 42
  let on := fld d 41 31
  let off := fld d 30 20
  fld d 7 0 == 0 && fld d 13 8 != 0 && (u == 0 || decide (u < off)) && decide (off < on) && (o == 0 || decide (on < o))
    && (match f32Rat dck with | some q => decide (100 ≤ q) && decide (q ≤ 4000) | none => false)
    && tripTimeOk (unitRecs s) (fld d 19 14)

/-- CFG_PRT DCL (R425, R440, R445): OVT is TO, the rest RWA. -/
def execCfgPrtDcl (r : Req) (s : State) : Host.Outcome State Fault Refusal :=
  let d : W64 := BitVec.ofNat 64 (fieldAt r 16 8)
  let k : W32 := BitVec.ofNat 32 (fieldAt r 24 4)
  .next (runJob 0x1025 r s
    (guardSt (prtForm s r 20 1 && dclOk s d k) stRange
      (guardSt ((sameOutside 0xFFE0_0000_0000_0000 d s.prt.dcl && k == s.prt.dck) || rwaState s) stState
        (guardSt (tighterDown (ovt s) (fld d 63 53)) stTighten
          (ok (updPrt s fun p => { p with dcl := d, dck := k }))))))

/-- CFG_PRT CHOP (R432, R441, R445). -/
def execCfgPrtChop (r : Req) (s : State) : Host.Outcome State Fault Refusal :=
  let c : W64 := BitVec.ofNat 64 (fieldAt r 16 8)
  .next (runJob 0x1025 r s
    (guardSt (prtForm s r 16 2 && fld c 18 0 == 0 && fld c 62 56 != 0 && fld c 55 49 != 0 && fld c 26 19 != 0
        && (decide (fld c 48 45 ≤ 11) || fld c 48 45 == 15) && dmdOk s (bit c 63)) stRange
      (guardSt (c == s.prt.chop || rwaState s) stState (ok (updPrt s fun p => { p with chop := c })))))

/-- CFG_PRT TRIP (R442, R445). -/
def execCfgPrtTrip (r : Req) (s : State) : Host.Outcome State Fault Refusal :=
  let c : W64 := BitVec.ofNat 64 (fieldAt r 16 8)
  .next (runJob 0x1025 r s
    (guardSt (prtForm s r 16 3 && fld c 15 0 == 0
        && (List.range 12).all fun i => decide (fld c (19 + 4 * i) (16 + 4 * i) ≤ 6) || fld c (19 + 4 * i) (16 + 4 * i) == 15) stRange
      (guardSt (c == s.prt.trip || rwaState s) stState (ok (updPrt s fun p => { p with trip := c })))))

/-- CFG_PRT CBC (R443, R445): a changed line is active again when its comparator says so (R433). -/
def execCfgPrtCbc (r : Req) (s : State) : Host.Outcome State Fault Refusal :=
  let c : W32 := BitVec.ofNat 32 (fieldAt r 16 4)
  .next (runJob 0x1025 r s
    (guardSt (prtForm s r 12 4 && decide (fieldAt r 9 1 < 4) && fld c 8 0 == 0 && decide (fld c 30 27 ≤ 11)) stRange
      (ok (updPrt s fun p =>
        { p with cbc := p.cbc.put (fieldAt r 9 1) c, cbcLine := setBit p.cbcLine (fieldAt r 9 1) (bit p.cbcLine (fieldAt r 9 1) && c == p.cbc.at (fieldAt r 9 1)) }))))

/-- CFG_PRT STATUS_CLR (R430, R444, R445): bit 17 clears CHFLT and SOFF of the chopper channels, outside ARMED and RUNNING only;
REGEN_LIM is published where CHFLT was set (R431). -/
def execCfgPrtStatusClr (r : Req) (s : State) : Host.Outcome State Fault Refusal :=
  let m : W32 := BitVec.ofNat 32 (fieldAt r 12 4)
  let clr (s : State) : State := updPrt s fun p => { p with flags := w1c p.flags m }
  let soff (s : State) (ch : Nat) : State := updGdv s ch fun g => { g with stat := setBit g.stat 0 false }.blocked
  .next (runJob 0x1025 r s
    (guardSt (prtForm s r 8 5 && m &&& 0xFFE0_00FF == 0) stRange
      (guardSt (!(bit m 17 && driving s.drv.st)) stState
        (ok (let t := if bit m 17 then soff (soff (clr s) 12) 13 else clr s
             if bit m 17 && bit s.prt.flags 17 then publishRegen t else t)))))

end Sys2Proof.Machine
end

