-- ==== Sys2Proof/Machine/Slots.lean ====
section
/-! DEFINITION. The stream entries and the sources that fill them (R16, R20, R257, R280, R284, R330, R439), and the trigger
sources of R265. -/

namespace Sys2Proof.Machine

/-- Fields that ACQ_SEQ and ACQ_INJ share (R255, R280). -/
def entStream (e : W64) : Bool := bit e 31
def entSlot (e : W64) : Nat := fld e 30 22
def entCore (e : W64) : Nat := fld e 59 58
def entStageB (e : W64) : Bool := bit e 57
def entInput (e : W64) : Nat := fld e 55 52
def entDiff (e : W64) : Bool := bit e 60

/-- TRIG_SRC and LAST of a group (R279), TRIG_SRC of an injected entry (R280). -/
def gTrig (g : W32) : Nat := fld g 31 24
def gLast (g : W32) : Nat := fld g 21 16
def jTrig (e : W64) : Nat := fld e 51 44

/-- The configuration that a group is to run: what waits for its boundary, or what is in force. -/
def AcqGroup.want (g : AcqGroup) : W32 × Tab 64 W64 × Tab 4 W64 := g.next.getD (g.gcfg, g.seq, g.inj)

/-- Stream entries of a group's configuration: sequence entries 0 to LAST and the injected entries in use. -/
def groupSlots (c : W32 × Tab 64 W64 × Tab 4 W64) : List Nat :=
  (((List.range (gLast c.1 + 1)).map fun i => c.2.1.at i).filter entStream ++
    (c.2.2.toList.filter fun e => jTrig e != 0 && entStream e)).map entSlot

/-- Stream entry of a DSM input (R284). -/
def dsmSlots (d : W64) : List Nat := if bit d 63 && bit d 52 then [fld d 51 43] else []

/-- Stream entries of an observer (R330). -/
def obsSlots (a b : W64) : List Nat :=
  if bit a 63 then
    (if bit b 63 then [fld b 62 54] else []) ++ (if bit b 53 then [fld b 52 44] else [])
      ++ (if bit b 43 then [fld b 42 34] else []) ++ (if bit b 33 then [fld b 32 24] else [])
  else []

/-- REGEN_LIM's entry counts once the block uses it: RGSLOT set, the chopper enabled, or a DMD context committed (R431; log
entry 12). -/
def regenSlots (s : State) : List Nat :=
  if fld s.prt.ctl 56 48 != 0 || chopEn s || dmdRegions s != 0 then [fld s.prt.ctl 56 48] else []

/-- EN and MEMBER of CRD_CFG: the module is a member of an allocation group (R629). -/
def crdMember (s : State) : Bool := bit s.crd.cfg 63 && bit s.crd.cfg 62

/-- Machines that take part in the allocation (R615). -/
def crdMachines (s : State) : List Nat := if s.drv.arrange = 0 && bit s.crd.par 45 then [0, 1] else [0]

/-- ASLOT of a machine (R630). -/
def aslot (par : W64) (m : Nat) : Nat := if m = 0 then fld par 44 36 else fld par 35 27

/-- The allocation's entries while the module is a member (R257, R630). -/
def crdSlots (s : State) : List Nat := if crdMember s then (crdMachines s).map (aslot s.crd.par) else []

/-- Every stream entry in use. -/
def allSlots (s : State) : List Nat :=
  (s.acq.groups.toList.flatMap fun g => groupSlots g.want) ++ (s.acq.dsm.toList.flatMap fun d => dsmSlots d.cfg)
    ++ (s.pos.obs.toList.flatMap fun o => obsSlots o.cfgA o.cfgB) ++ regenSlots s ++ crdSlots s

/-- No entry is used twice (R257). -/
def slotsOk (s : State) : Bool := decide (allSlots s).Nodup

/-- Routes of the sources (R18). -/
def routeAcq (s : State) (g : Nat) : Nat := fld s.drv.routeAcq (4 * g + 3) (4 * g)
def routePos (s : State) (o : Nat) : Nat := fld s.drv.routePos (4 * o + 3) (4 * o)
def routeDsm (s : State) (i : Nat) : Nat := fld s.drv.routeDsm (4 * i + 3) (4 * i)

/-- The regions that a stream entry is fed in, by the source that fills it (R16, R20). -/
def slotRoute (s : State) (slot : Nat) : Option Nat :=
  let a := (List.range 4).find? fun g => (groupSlots (s.acq.groups.at g).want).contains slot
  let d := (List.range 12).find? fun i => (dsmSlots (s.acq.dsm.at i).cfg).contains slot
  let o := (List.range 4).find? fun k => (obsSlots (s.pos.obs.at k).cfgA (s.pos.obs.at k).cfgB).contains slot
  match a, d, o with
  | some g, _, _ => some (routeAcq s g)
  | none, some i, _ => some (routeDsm s i)
  | none, none, some k => some (routePos s k)
  | none, none, none => if fld s.prt.ctl 56 48 = slot then some 15 else none

/-- Values of a trigger selector (R265). -/
def trigOk (v : Nat) : Bool :=
  v == 0 || (decide (1 ≤ v) && decide (v ≤ 8)) || (decide (0x11 ≤ v) && decide (v ≤ 0x18)) || v == 0x21 || v == 0x22
    || (decide (0x31 ≤ v) && decide (v ≤ 0x34)) || v == 0x40

/-- The states in which enabled groups, units of the position block and counters run: from CONFIGURED on (R94, R254,
R294). -/
def unitsRun (s : State) : Bool := countState s.drv.st

/-- A context with OUT_PWM in one of the regions of a mask. -/
def feedsPwm (s : State) (mask : Nat) : Bool :=
  (placed s).any fun i => mask.testBit (ctxAt s i.num).region && (ctxAt s i.num).outPwm

end Sys2Proof.Machine
end

