-- ==== Sys2Proof/Machine/Acq.lean ====
section
/-! DEFINITION. The converter groups (R249 to R282): triggers, holds, conversions, calibration, and CFG_ACQ. -/

namespace Sys2Proof.Machine

/-- A group changed. -/
def updGroup (s : State) (g : Nat) (f : AcqGroup → AcqGroup) : State :=
  { s with acq := { s.acq with groups := s.acq.groups.upd g f } }

/-- Entries of the run that starts at entry `i`: itself and the linked entries after it up to LAST (R256). -/
def runFrom (seq : Tab 64 W64) (last : Nat) : Nat → Nat → List Nat
  | 0, _ => []
  | fuel + 1, i => i :: (if i < last && bit (seq.at (i + 1)) 62 then runFrom seq last fuel (i + 1) else [])

/-- The run at the group's place. -/
def AcqGroup.run (g : AcqGroup) : List Nat := runFrom g.seq (gLast g.gcfg) 64 g.pos

/-- The group stands at a WAIT entry that has not started; it does not while it calibrates or a test slice holds it (R516). -/
def AcqGroup.waits (g : AcqGroup) : Bool :=
  g.boundary && bit (g.seq.at g.pos) 63 && !g.started && g.rep == 0 && !g.calBusy && !g.test

/-- The group is idle at a WAIT entry: nothing is pending that would hold next (R259, R266, R268). -/
def AcqGroup.idle (g : AcqGroup) : Bool := g.waits && !g.pend && g.jpend == 0

/-- A WAIT entry reached with a trigger pending: the trigger is consumed and the entry has started, to be held
synchronously (R267). -/
def AcqGroup.takePend (g : AcqGroup) : AcqGroup :=
  if g.waits && g.pend then { g with pend := false, started := true, seqCount := g.seqCount + 1 } else g

/-- ACQ_GSTAT (R281). -/
def AcqGroup.gstat (g : AcqGroup) : W32 :=
  g.stat ||| BitVec.ofNat 32 (g.pos * 1024 + b2n g.calBusy * 512 + b2n g.pend * 256)

/-- A fault record of a group. -/
def recGroup (s : State) (g : Nat) (code : W16) : State := record s code g (s.acq.groups.at g).gstat

/-- A W1C flag of ACQ_GSTAT set, with a record where it changes from 0. -/
def acqFlag (s : State) (g i : Nat) (code : W16) : State :=
  let old := bit (s.acq.groups.at g).stat i
  let s := updGroup s g fun x => { x with stat := setBit x.stat i true }
  if old then s else recGroup s g code

/-- The run at the group's place held at an instant (R256, R259). -/
def AcqGroup.hold (g : AcqGroup) (t : Nat) (direct : Bool) : AcqGroup :=
  { g with held := some { idx := g.run, tsamp := t, cal := g.calBusy, direct := direct }, started := true, startAt := none, first := false }

/-- Injected entry `j` held at an instant (R268). -/
def AcqGroup.holdInj (g : AcqGroup) (j t : Nat) (direct : Bool) : AcqGroup :=
  { g with held := some { inj := true, idx := [j], tsamp := t, cal := g.calBusy, direct := direct }, jpend := setBit g.jpend j false }

/-- The CLK_PWM tick of the edge of trigger source `k` that arrives now: a sample trigger's line may still have its SMPOFS to
run (R351). -/
def edgeTick (s : State) (k : Nat) : Nat :=
  match s.pwm.trigAt.at k with
  | some t => s.clk.cycles + (t - s.clk.tb) / 5
  | none => s.clk.cycles

/-- The CLK_ACQ cycle of a CLK_PWM tick: five ticks each. -/
def acqCycle (tick : Nat) : Nat := tick / 5

/-- An injected entry held directly in the present CLK_ACQ cycle gives way to the WAIT run, and is pending again (R269). -/
def AcqGroup.yieldInj (g : AcqGroup) (cyc : Nat) : AcqGroup :=
  match g.held with
  | some h => if h.inj && h.direct && acqCycle h.tsamp == cyc then
      { g with held := none, jpend := h.idx.foldl (fun p j => setBit p j true) g.jpend, first := true } else g
  | none => g

/-- The group runs: enabled, in a state from CONFIGURED on (R254). -/
def groupRuns (s : State) (g : Nat) : Bool := bit (s.acq.groups.at g).gcfg 7 && unitsRun s

/-- A sequence trigger (R259, R266): it starts the waiting entry, with a direct hold where DELAY is 0, is held pending, or is
dropped. An injected trigger that reached the idle group in the same CLK_ACQ cycle waits behind the run (R269). -/
def seqTrigger (s : State) (g : Nat) : State :=
  let x := s.acq.groups.at g
  let t := edgeTick s (gTrig x.gcfg)
  let y := x.yieldInj (acqCycle t)
  if !groupRuns s g || gTrig x.gcfg == 0 then s
  else if x.idle || (y.first && y.waits && !y.pend) then
    updGroup s g fun _ =>
      let y := { y with seqCount := y.seqCount + 1 }
      if fld (y.seq.at y.pos) 43 32 = 0 then y.hold t true else { y with started := true, startAt := some (acqCycle t) }
  else if x.pend then acqFlag (updGroup s g fun x => { x with stat := incSat x.stat 31 24 }) g 1 0x6001
  else updGroup s g fun x => { x with pend := true }

/-- SEQUENCE_TRIGGER (R266). -/
def execSequenceTrigger (g : Fin 4) (s : State) : Host.Outcome State Fault Refusal := .next (seqTrigger s g.val)

/-- An injected trigger (R268): held directly by an idle group, pending, or dropped; one that comes in the CLK_ACQ cycle that
started a waiting entry waits for that entry's run (R269). -/
def injTrigger (s : State) (g j : Nat) : State :=
  let x := s.acq.groups.at g
  if !groupRuns s g || jTrig (x.inj.at j) == 0 then s
  else if bit x.jpend j then acqFlag (updGroup s g fun x => { x with stat := incSat x.stat 23 16 }) g 2 0x6002
  else
    let t := edgeTick s (jTrig (x.inj.at j))
    if x.idle then updGroup s g fun x => x.holdInj j t true
    else updGroup s g fun x => { x with jpend := setBit x.jpend j true, first := x.first || x.startAt == some (acqCycle t) }

/-- INJECTED_TRIGGER (R268). -/
def execInjectedTrigger (g : Fin 4) (j : Fin 4) (s : State) : Host.Outcome State Fault Refusal :=
  .next (injTrigger s g.val j.val)

/-- The pending injected entry that holds next: the lowest, unless the WAIT run goes first (R268, R269). -/
def AcqGroup.nextInj (g : AcqGroup) : Option Nat := if g.first then none else (List.range 4).find? fun j => bit g.jpend j

/-- RUN_HOLD (R256, R260, R261, R267 to R269, R276): a synchronous hold at a conversion boundary; pending injected entries
come first, and during a calibration alone. TSAMP lies within 2 ticks of the hold (R271), by a free value. -/
def execRunHold (g : Fin 4) (s : State) : Host.Outcome State Fault Refusal :=
  let x := (s.acq.groups.at g.val).adopt
  if !groupRuns s g.val || !x.boundary || x.test then .next s
  else
    let t := s.clk.cycles + freeVal s % 5 - 2
    let s := updGroup (freeTaken s) g.val fun _ => x
    match x.nextInj with
    | some j => .next (updGroup s g.val fun x => x.holdInj j t false)
    | none =>
      if x.calBusy then .next s
      else if !bit (x.takePend.seq.at x.pos) 63 || x.takePend.started then .next (updGroup s g.val fun x => x.takePend.hold t false)
      else .next s

/-- Word 0 of a result entry (R270). -/
def resultWord (e : W64) (code : W18) : W32 :=
  if bit e 61 then BitVec.ofNat 32 (code.toNat * 2 ^ 14) else if entDiff e then BitVec.signExtend 32 code else code.zeroExtend 32

/-- The tag of a result entry (R270). -/
def resultTag (ovr inj cal : Bool) (idx grp tsamp : Nat) : W32 :=
  BitVec.ofNat 32 (b2n ovr * 2 ^ 31 + b2n inj * 2 ^ 30 + b2n cal * 2 ^ 29 + idx * 2 ^ 23 + grp * 2 ^ 21 + tsamp % 2 ^ 21)

/-- W of R274 before its limits. -/
def scaled (sc : W64) (x : Int) : Int :=
  let ofs := (BitVec.ofNat 19 (fld sc 57 39)).toInt
  rndDiv ((x - ofs) * s18 (BitVec.ofNat 18 (fld sc 17 0)) * 2 ^ fld sc 60 58) (2 ^ 17)

/-- The flag word of a delivery (R136). -/
def flagWord (ovr inj cal : Bool) (idx seq : Nat) : W18 :=
  BitVec.ofNat 18 (b2n ovr * 2 ^ 17 + b2n inj * 2 ^ 16 + b2n cal * 2 ^ 15 + idx * 2 ^ 8 + seq)

/-- Result-table numbers of what a hold converts: a run's entries, or an injected entry. -/
def AcqGroup.heldEntries (g : AcqGroup) (h : Held) : List Nat := if h.inj then h.idx.map (64 + ·) else g.run

/-- The end of a conversion in a group: the value is no longer held; after the last one the run's entries are shown, a
repetition is counted or the sequence moves to its next run, a waiting configuration takes effect, and a trigger pending for
the entry reached is consumed (R254, R258, R261, R267, R272). -/
def AcqGroup.converted (g : AcqGroup) (h : Held) (i : Nat) : AcqGroup :=
  let left := h.idx.filter fun k => k != i
  if !left.isEmpty then { g with held := some { h with idx := left } }
  else
    let g := { g with held := none, shown := (g.heldEntries h).foldl (fun t k => t.put k (g.results.at k)) g.shown }
    let g := if h.inj then g
      else if g.rep < fld (g.seq.at g.pos) 51 44 then { g with rep := g.rep + 1 }
      else
        let nxt := g.pos + g.run.length
        { g with pos := if gLast g.gcfg < nxt then 0 else nxt, rep := 0, started := false }
    g.adopt.takePend

/-- A stage-B value waits until the stage-A values of its run are converted (R260). -/
def stageReady (g : AcqGroup) (h : Held) (i : Nat) : Bool :=
  h.inj || !entStageB (g.seq.at i) || h.idx.all fun k => entStageB (g.seq.at k)

/-- CONVERSION_COMPLETE (R262, R270 to R274): the result entry, OVR, and the delivery to the stream entry. -/
def execConversionComplete (g : Fin 4) (inj : Bool) (idx : Fin 64) (code : W18) (ovr : Bool) (s : State) :
    Host.Outcome State Fault Refusal :=
  let x := s.acq.groups.at g.val
  match x.held with
  | none => .next s
  | some h =>
    if h.inj != inj || !h.idx.contains idx.val || !stageReady x h idx.val then .next s
    else
      let e := if inj then x.inj.at idx.val else x.seq.at idx.val
      let k := if inj then 64 + idx.val else idx.val
      let w := scaled (x.scale.at k) (if entDiff e then s18 code else code.toNat)
      let s := updGroup s g.val fun x =>
        { { x with results := x.results.put k (resultWord e code, resultTag ovr inj h.cal idx.val g.val h.tsamp) }.converted h idx.val with
          stat := setBit (setBit x.stat 0 (bit x.stat 0 || ovr)) 4 (bit x.stat 4 || (entStream e && sats18 w)) }
      if entStream e then
        .next (deliver s (routeAcq s g.val) (entSlot e) (w18 (sat18 w)) (flagWord ovr inj h.cal idx.val x.seqCount.toNat))
      else .next s

/-- A periodic calibration of the group is deferred: in ARMED and RUNNING, for a group that streams into a region with a
context that writes PWM shadows (R277). -/
def calDeferred (s : State) (g : Nat) : Bool :=
  driving s.drv.st && !(groupSlots (s.acq.groups.at g).want).isEmpty && feedsPwm s (routeAcq s g)

/-- CALIBRATION_START (R276, R277): at a conversion boundary without a pending injected entry, where a calibration has been
asked for or CAL_PERIOD gives one; a deferred one stays due. -/
def execCalibrationStart (g : Fin 4) (s : State) : Host.Outcome State Fault Refusal :=
  let x := s.acq.groups.at g.val
  if !(x.calDue || fld x.gcfg 15 8 != 0) || x.calBusy || s.drv.st == .off then .next s
  else if calDeferred s g.val then .next (updGroup s g.val fun x => { x with calDue := true })
  else if x.boundary && x.jpend == 0 && !x.test then .next (updGroup s g.val fun x => { x with calBusy := true, calDue := false })
  else .next s

/-- CALIBRATION_COMPLETE (R275, R276, R278): new coefficients, or CALFAIL with the old ones in force. -/
def execCalibrationComplete (g : Fin 4) (inBand : Bool) (s : State) : Host.Outcome State Fault Refusal :=
  if (s.acq.groups.at g.val).calBusy then
    let s := updGroup s g.val fun x => { x with calBusy := false, calGen := if inBand then x.calGen + 1 else x.calGen }.takePend
    .next (if inBand then s else recGroup (updGroup s g.val fun x => { x with stat := setBit x.stat 3 true }) g.val 0x6003)
  else .next s

/-- Pins that an entry uses, within its group (R250). -/
def entPins (e : W64) : List Nat := if entDiff e then [2 * entInput e, 2 * entInput e + 1] else [entInput e]

/-- INPUT in its range (R257). -/
def inputOk (e : W64) : Bool := decide (entInput e ≤ (if entDiff e then 5 else 11))

/-- The rules of R257 on one run. -/
def runOk (seq : Tab 64 W64) (r : List Nat) : Bool :=
  decide (r.length ≤ 8) && decide (r.map fun i => (entCore (seq.at i), entStageB (seq.at i))).Nodup
    && decide (r.flatMap fun i => entPins (seq.at i)).Nodup

/-- The rules of R257 but for SLOT on a group's configuration. -/
def tableOk (c : W32 × Tab 64 W64 × Tab 4 W64) : Bool :=
  let last := gLast c.1
  let es := (List.range (last + 1)).map fun i => c.2.1.at i
  let heads := (List.range (last + 1)).filter fun i => !bit (c.2.1.at i) 62
  let waits := es.any fun e => bit e 63
  !bit (c.2.1.at 0) 62 && es.all (fun e => inputOk e && (!bit e 62 || (!bit e 63 && fld e 51 44 == 0 && fld e 43 32 == 0)))
    && heads.all (fun i => runOk c.2.1 (runFrom c.2.1 last 64 i)) && waits == (gTrig c.1 != 0)
    && c.2.2.toList.all fun e => jTrig e == 0 || inputOk e

/-- Entries of a group 3 configuration that a resolver's cores or pins collide with; a group that is not enabled uses none
(R253; DEDUCED, log entry 11). -/
def rsvClash (c : W32 × Tab 64 W64 × Tab 4 W64) (u : Nat) : Bool :=
  let hits (e : W64) : Bool :=
    (entPins e).any (fun p => decide (4 * u ≤ p) && decide (p < 4 * u + 4)) || entCore e == 2 * u || entCore e == 2 * u + 1
  bit c.1 7 && ((List.range (gLast c.1 + 1)).any (fun i => hits (c.2.1.at i)) || c.2.2.toList.any fun e => jTrig e != 0 && hits e)

/-- A group's configuration may be used: R257 with SLOT over the whole module, and R253 for group 3. -/
def groupOk (s : State) (g : Nat) (c : W32 × Tab 64 W64 × Tab 4 W64) : Bool :=
  tableOk c && slotsOk (updGroup s g fun x => { x with next := some c })
    && (g != 3 || (List.range 2).all fun u => !(bit (s.pos.rsv.at u).cfg 63 && rsvClash c u))

/-- A configuration asked for: it waits for the group's boundary, and a group that does not run takes it at once (R258). -/
def setGroup (s : State) (g : Nat) (c : W32 × Tab 64 W64 × Tab 4 W64) : State :=
  if c == (s.acq.groups.at g).want then s else updGroup s g fun x => { x with next := some c }.adopt

/-- The record of ACQ_GCFG, ACQ_SEQ or ACQ_INJ has its reserved bits 0 and a trigger of R265. -/
def gcfgOk (c : W32) : Bool := trigOk (gTrig c) && fld c 23 22 == 0 && fld c 6 0 == 0
def seqOk (e : W64) : Bool := !bit e 56 && fld e 21 0 == 0
def injOk (e : W64) : Bool := fld e 63 62 == 0 && !bit e 56 && fld e 43 32 == 0 && fld e 21 0 == 0 && trigOk (jTrig e)

/-- CFG_ACQ GROUP (R257, R258, R279, R280, R282): CAL_PERIOD is RW, the rest RWA. -/
def execCfgAcqGroup (r : Req) (s : State) : Host.Outcome State Fault Refusal :=
  let g := fieldAt r 9 1
  let w : W32 := BitVec.ofNat 32 (fieldAt r 12 4)
  let inj : Tab 4 W64 := Vector.ofFn fun i : Fin 4 => BitVec.ofNat 64 (fieldAt r (16 + 8 * i.val) 8)
  let old := (s.acq.groups.at g).want
  let c := (w, old.2.1, inj)
  .next (runJob 0x1020 r s
    (guardSt (opForm r 40 0 && decide (g < 4) && zeroAt r 10 2 && gcfgOk w && inj.toList.all injOk && groupOk s g c) stRange
      (guardSt ((sameOutside 0x0000_FF00 w old.1 && inj == old.2.2) || rwaState s) stState (ok (setGroup s g c)))))

/-- CFG_ACQ SEQ (R255 to R258, R282). -/
def execCfgAcqSeq (r : Req) (s : State) : Host.Outcome State Fault Refusal :=
  let g := fieldAt r 9 1
  let f := fieldAt r 10 1
  let n := fieldAt r 11 1
  let old := (s.acq.groups.at g).want
  let es : List W64 := (List.range n).map fun i => BitVec.ofNat 64 (fieldAt r (16 + 8 * i) 8)
  let seq := es.zipIdx.foldl (fun t p => t.put (f + p.2) p.1) old.2.1
  let c := (old.1, seq, old.2.2)
  .next (runJob 0x1020 r s
    (guardSt (opForm r (8 + 8 * n) 1 && decide (g < 4) && decide (1 ≤ n) && decide (f + n ≤ 64) && zeroAt r 12 4 && es.all seqOk
        && groupOk s g c) stRange
      (guardSt (c == old || rwaState s) stState (ok (setGroup s g c)))))

/-- CFG_ACQ SCALE (R273, R274, R282). -/
def execCfgAcqScale (r : Req) (s : State) : Host.Outcome State Fault Refusal :=
  let g := fieldAt r 9 1
  let f := fieldAt r 10 1
  let n := fieldAt r 11 1
  let es : List W64 := (List.range n).map fun i => BitVec.ofNat 64 (fieldAt r (16 + 8 * i) 8)
  .next (runJob 0x1020 r s
    (guardSt (opForm r (8 + 8 * n) 2 && decide (g < 4) && decide (1 ≤ n) && decide (f + n ≤ 68) && zeroAt r 12 4
        && es.all fun e => fld e 63 61 == 0 && fld e 38 18 == 0) stRange
      (ok (updGroup s g fun x => { x with scale := es.zipIdx.foldl (fun t p => t.put (f + p.2) p.1) x.scale }))))

/-- CFG_ACQ CAL (R276, R277, R282). -/
def execCfgAcqCal (r : Req) (s : State) : Host.Outcome State Fault Refusal :=
  let m := fieldAt r 9 1
  let gs := (List.range 4).filter fun g => m.testBit g
  .next (runJob 0x1020 r s
    (guardSt (opForm r 8 3 && decide (m < 16) && zeroAt r 10 6) stRange
      (guardSt (!(gs.any (calDeferred s))) stBusy
        (ok (gs.foldl (fun s g => updGroup s g fun x => { x with calDue := true }) s)))))

/-- CFG_ACQ STATUS_CLR (R281, R282): clearing OVERRUN or INJDROP clears its count. -/
def execCfgAcqStatusClr (r : Req) (s : State) : Host.Outcome State Fault Refusal :=
  let g := fieldAt r 9 1
  let m : W32 := BitVec.ofNat 32 (fieldAt r 12 4)
  .next (runJob 0x1020 r s
    (guardSt (opForm r 8 4 && decide (g < 4) && zeroAt r 10 2 && m &&& 0xFFFF_FFE0 == 0) stRange
      (ok (updGroup s g fun x =>
        let st := w1c x.stat m
        let st := if bit m 1 then setFld st 31 24 0 else st
        { x with stat := if bit m 2 then setFld st 23 16 0 else st }))))

/-- CFG_ACQ SWTRIG (R265, R269, R282): sequence triggers before injected ones, each only where TRIG_SRC is 0x40. -/
def execCfgAcqSwtrig (r : Req) (s : State) : Host.Outcome State Fault Refusal :=
  let w := fieldAt r 12 4
  let seqs (s : State) : State := (List.range 4).foldl (fun s g =>
    if w.testBit g && gTrig (s.acq.groups.at g).gcfg == 0x40 then seqTrigger s g else s) s
  let injs (s : State) : State := (List.range 16).foldl (fun s k =>
    if w.testBit (k + 4) && jTrig ((s.acq.groups.at (k / 4)).inj.at (k % 4)) == 0x40 then injTrigger s (k / 4) (k % 4) else s) s
  .next (runJob 0x1020 r s (guardSt (opForm r 8 5 && zeroAt r 9 3) stRange (ok (injs (seqs s)))))

end Sys2Proof.Machine
end

