-- ==== Sys2Proof/Machine/Consts.lean ====
section
/-! DEFINITION. The constants of a law instance as QRY_CONFIG returns them (R86, R163, R188, R226). -/

namespace Sys2Proof.Machine

/-- A word constant, sign-extended. -/
def constWord (v : Int) : Nat := (BitVec.ofInt 32 v).toNat

/-- A table of `n` words. -/
def constTab (n : Nat) (l : List Int) : List Nat := (List.range n).map fun i => constWord (l.getD i 0)

/-- The constants of R163 but ULIM_SRC; SHKD belongs to PID only. -/
def loopWords (l : LawInst) : List Nat :=
  [l.shkp, l.nki] ++ (if l.kind = .pid then [l.shkd] else []) ++ [l.awm, l.nsets, l.schedSrc]
    ++ l.srcs.flatMap fun p => [p.refSrc, p.measSrc]

/-- The constants of R188 that every current loop has. -/
def machineWords (l : LawInst) : List Nat :=
  [l.mtype, constWord l.psi, l.shpsi, constWord l.ld, constWord l.lq, l.shl, constWord l.rs, constWord l.kt, l.shkt, constWord l.lm,
   constWord l.tr, l.shm] ++ constTab 65 l.mtpaId ++ constTab 65 l.mtpaIq ++ constTab 33 l.fluxTab
    ++ [constWord l.vfw, l.nfw, l.ovm] ++ constTab 33 l.ovmTab ++ [constWord l.vdcMin]

/-- The constants of R226; the word that stands for an absent ANG_SRC is open (log entry 21). -/
def demandWords (l : LawInst) (absent : Nat → Nat) : List Nat :=
  [l.nrmp, l.spdSrc, l.angSrc.getD (absent 2)] ++ ((List.range 6).map fun i => l.vphSrc.getD i 0) ++ [l.catchWin, l.alignT]

/-- ULIM_SRC of each axis of PI_DQ, one word each; the word that stands for none is open (R86, R163, R191; log entry 21). -/
def ulimConst (l : LawInst) (absent : Nat → Nat) : List Nat := (List.range 2).map fun i => l.ulimSrc.getD i (absent i)

/-- The constants of one law instance, in the order of the tables; `absent` gives what stands for an absent source (log entry 21). -/
def lawWords (l : LawInst) (absent : Nat → Nat) : List Nat :=
  let share := [constWord l.kCc, constWord l.ccMax]
  let xy := [constWord l.kpXy, constWord l.kiXy, constWord l.xyLim]
  let axes := [constWord l.lAb, constWord l.lXy, l.shlx]
  match l.kind with
  | .piSch => loopWords l
  | .pid => loopWords l
  | .notch3 => loopWords l
  | .foc3 => loopWords l ++ ulimConst l absent ++ machineWords l ++ share
  | .foc6 => loopWords l ++ ulimConst l absent ++ machineWords l ++ xy ++ share
  | .fcs6 => machineWords l ++ axes ++ share
  | .harm => (List.range 4).map (fun i => l.hord.getD i 1) ++ [l.hscale, constWord l.hrate]
  | .dmd => demandWords l absent

end Sys2Proof.Machine
end

