-- ==== Sys2Proof/Machine/Costs.lean ====
section
/-! DEFINITION. What a descriptor costs and how long its result can be (R62, R67, R691), and the largest LEN of each
opcode (R64). -/

namespace Sys2Proof.Machine

/-- The largest LEN of an opcode: the longest of the lengths that its chapter states. -/
def maxLen (op : Nat) : Nat :=
  match op with
  | 0x1001 => 8 | 0x1002 => 8 | 0x1010 => 28 | 0x1011 => 3584 | 0x1012 => 48 | 0x1020 => 552 | 0x1021 => 32
  | 0x1022 => 28 | 0x1023 => 24 | 0x1024 => 28 | 0x1025 => 20 | 0x1026 => 276 | 0x1027 => 8 | 0x1028 => 40
  | 0x1030 => 264 | 0x1031 => 32 | 0x1032 => 28 | 0x1040 => 20 | 0x1050 => 1 | 0x1051 => 0
  | 0x2001 => 0 | 0x2002 => 0 | 0x2003 => 0 | 0x2004 => 2 | 0x2010 => 4 | 0x2011 => 8 | 0x2020 => 104 | 0x2021 => 8
  | 0x2030 => 4 | 0x2031 => 0
  | 0x3001 => 0 | 0x3002 => 0 | 0x3003 => 5 | 0x3004 => 3 | 0x3005 => 0 | 0x3006 => 24 | 0x3007 => 8 | 0x3008 => 40
  | 0x4001 => 0 | 0x4002 => 0 | 0x4003 => 0 | 0x4004 => 0
  | 0x5001 => 3584 | 0x5002 => 1 | 0x5003 => 1 | 0x5010 => 84 | 0x5011 => 1 | 0x5012 => 0
  | 0x6001 => 8 | 0x6002 => 48 | 0x6003 => 8 | 0x6004 => 8
  | _ => 0

/-- Bytes of the longest result of QRY_TELEMETRY with a SEL, FIRST and COUNT; none where they are refused (R686 and the rules it
names). -/
def telemetryLen (sel first count : Nat) : Option Nat :=
  match sel with
  | 0x10 => some 192 | 0x20 => some 10 | 0x30 => some 20 | 0x40 => some 12 | 0x60 => some 552 | 0x61 => some 552 | 0x62 => some 552
  | 0x63 => some 552 | 0x64 => some 112 | 0x70 => some 160 | 0x80 => some 72 | 0x90 => some 76 | 0xA0 => some 64 | 0xA1 => some 160
  | 0xD0 => some 128
  | _ =>
    if 0xB0 ≤ sel ∧ sel ≤ 0xB3 ∧ count ≤ 16 ∧ first + count ≤ 128 then some (40 + 76 * count) else none

/-- A length where its condition holds. -/
def lenIf (c : Bool) (n : Nat) : Option Nat := if c then some n else none

/-- Bytes from offset 12 on of the payload that a WHAT of QRY_CONFIG from 0x20 on names, by the arguments (R86); none where the table
has no such OP or instance. -/
def recordLen (what op a b c : Nat) : Option Nat :=
  let only (o : Option Nat) : Option Nat := if b = 0 ∧ c = 0 then o else none
  match what with
  | 0x20 =>
    if 4 ≤ a then none
    else if op = 0 then lenIf (b == 0 && c == 0) 36
    else if op = 1 then lenIf (decide (1 ≤ c) && decide (b + c ≤ 64)) (4 + 8 * c)
    else if op = 2 then lenIf (decide (1 ≤ c) && decide (b + c ≤ 68)) (4 + 8 * c)
    else none
  | 0x21 => only (if op = 0 then lenIf (a == 0) 20 else lenIf (op == 1 && decide (a < 12)) 28)
  | 0x22 => only (if op = 3 then lenIf (decide (a < 2)) 8 else if op = 4 then lenIf (decide (a < 4)) 24
      else if op = 0 ∨ op = 5 then lenIf (decide (a < 2)) 12 else lenIf (decide (op ≤ 2) && decide (a < 4)) 12)
  | 0x23 => only (if op = 0 then lenIf (decide (a < 6)) 20 else lenIf (op == 1 && decide (a < 8)) 12)
  | 0x24 => only (if op = 2 then lenIf (decide (a < 16)) 24 else if op = 3 then lenIf (decide (a < 16)) 4
      else lenIf (decide (op ≤ 1) && decide (a < 16)) 12)
  | 0x25 => only (if op = 4 then lenIf (decide (a < 4)) 8 else if op = 1 then lenIf (a == 0) 16 else lenIf (decide (op ≤ 3) && a == 0) 12)
  | 0x26 => lenIf (decide (op < 4) && decide (a < 4) && decide (b + 256 * c < (if a.testBit 0 then 8 else 512))) 272
  | 0x27 => only (lenIf (op == 0 && a == 0) 4)
  | 0x28 => only (lenIf (op == 0 && decide (a < 8)) 36)
  | 0x30 =>
    if 4 ≤ a then none
    else if op = 0 then lenIf (b == 0 && c == 0) 12
    else lenIf (op == 1 && decide (1 ≤ c) && decide (c ≤ 16) && decide (b + c ≤ 128)) (4 + 16 * c)
  | 0x31 => only (if op = 1 then lenIf (decide (a < 8)) 4 else if op = 0 then lenIf (a == 0) 12 else if op = 2 then lenIf (a == 0) 28
      else lenIf (op == 3 && a == 0) 24)
  | 0x32 => only (if op = 0 then lenIf (a == 0) 12 else lenIf (op == 1 && a == 0) 24)
  | 0x40 => lenIf (decide (op < 64) && decide (a ≤ (if op % 16 = 0 then 0 else 1)) && decide (b ≤ (if op.testBit 5 then 7 else 0))
      && c == 0) 16
  | _ => none

/-- Entries that the running firmware allows the constants of a context's law instances, at most a whole chain (R60, R62, R86; log
entry 56). -/
def lawEntries (c : Nat) : Nat := 1 + Config.lawEntries c % 64

/-- Bytes of a result that fills a number of entries (R60). -/
def chainBytes (k : Nat) : Nat := 40 + 56 * (k - 1)

/-- Bytes of the longest result of QRY_CONFIG by WHAT and ARG0 to ARG3 (R86); none where they are refused. -/
def configLen (what a b c d : Nat) : Option Nat :=
  let alone (n lim : Nat) : Option Nat := lenIf (decide (a < lim) && b == 0 && c == 0 && d == 0) n
  match what with
  | 0 => alone 28 1
  | 1 => alone 84 1
  | 2 => alone 52 160
  | 3 => alone 16 16
  | 4 => alone (chainBytes (lawEntries a)) 160
  | _ => recordLen what a b c d

/-- Bytes of the longest result that a descriptor can produce, from its opcode, LEN and selector bytes alone (R62, R67); none where
a refusal is all that it can produce, since those bytes are refused (R88). A READ of a capture may have eight channels, and its
chain ends at 64 entries (R60, R89). -/
def longestBytes (op : Nat) (r : Req) : Option Nat :=
  match op with
  | 0x3003 => if r.len = 5 then configLen (fieldAt r 8 1) (fieldAt r 9 1) (fieldAt r 10 1) (fieldAt r 11 1) (fieldAt r 12 1) else none
  | 0x3004 =>
    let can := decide (0xB0 ≤ fieldAt r 8 1) && decide (fieldAt r 8 1 ≤ 0xB3)
    if r.len = (if can then 3 else 1) then
      telemetryLen (fieldAt r 8 1) (if can then fieldAt r 9 1 else 0) (if can then fieldAt r 10 1 else 0)
    else none
  | 0x3007 =>
    lenIf (r.len == 8 && decide (fieldAt r 8 1 ≤ 2) && decide (1 ≤ fieldAt r 9 1) && decide (fieldAt r 9 1 ≤ 64) && zeroAt r 10 2)
      (8 + 32 * fieldAt r 9 1)
  | 0x3008 => lenIf (r.len == 40 && decide (fieldAt r 8 1 ≤ 1)) (if fieldAt r 8 1 = 0 then 320 else 104)
  | 0x6001 => lenIf (fieldAt r 8 1 == 0) 64
  | 0x6002 =>
    lenIf (r.len == 16 && fieldAt r 8 1 % 128 == 2 && decide (1 ≤ fieldAt r 20 2)) (min (chainBytes 64) (8 + 32 * fieldAt r 20 2))
  | 0x6004 => lenIf (r.len == 8) 96
  | _ => none

/-- Entries of the longest result; a refusal takes one (R60, R62, R88). -/
def longest (op : Nat) (r : Req) : Nat := entriesOf ((longestBytes op r).getD 0)

/-- Selector bytes of MNT_FW_WRITE that the command does not refuse (R654). -/
def fwSelOk (r : Req) : Bool :=
  let n := fieldAt r 12 4
  decide (fieldAt r 9 1 < 2) && zeroAt r 10 2 &&
    (if fieldAt r 8 1 = 0 then r.len == 8 && decide (192 ≤ n) && decide (n ≤ 1572864) && n % 8 == 0
     else fieldAt r 8 1 == 1 && decide (16 ≤ r.len) && decide (r.len ≤ 3584) && r.len % 8 == 0)

/-- The cost in ns that the spec itself gives a descriptor (R654, R655); none where its selector bytes are refused (R88). -/
def statedCost (op : Nat) (r : Req) : Option Nat :=
  if op = 0x5001 then (if fwSelOk r then some (if fieldAt r 8 1 = 0 then 400000000 else 4000000) else none)
  else if op = 0x5002 then lenIf (r.len == 1 && decide (fieldAt r 8 1 < 2)) 80000000
  else none

/-- Offsets, from 8 on, of the bytes that select the operation, the instance and the amount of work; the others of offsets 8 to 23
hold data, with which the cost does not vary (R67; log entry 57). -/
def selOffsets (op sub : Nat) : List Nat :=
  if op = 0x1011 ∨ op = 0x5001 then List.range 8
  else if op = 0x1001 then [0, 1, 2]
  else if op = 0x1010 ∨ op = 0x1002 ∨ (0x2001 ≤ op ∧ op ≤ 0x2011) ∨ op = 0x2030 then []
  else if op = 0x3003 then List.range 5
  else if op = 0x3004 then List.range 3
  else if op = 0x3006 then []
  else if op = 0x3007 then List.range 8
  else if op = 0x3008 ∨ op = 0x5002 ∨ op = 0x5003 ∨ op = 0x5011 ∨ op = 0x1050 then [0]
  else if op = 0x6002 then (if sub % 128 = 2 then [0, 1, 2, 3, 8, 9, 10, 11, 12, 13] else [0, 1, 2, 3])
  else List.range 4

/-- The selector bytes of a descriptor with those that hold data blanked (R67). -/
def selBytes (op : Nat) (r : Req) : List Byte :=
  (List.range 16).map fun i => if (selOffsets op (fieldAt r 8 1)).contains i then BitVec.ofNat 8 (byteAt r.pay i) else 0

/-- Opcodes that cost at most 10 µs in every firmware version (R691). -/
def cheapOps : List Nat := [0x3001, 0x3002, 0x3005, 0x3006, 0x4001]

/-- Worst-case cost of a descriptor in ns (R67, R691): the firmware's, within what R654, R655 and R691 state, and never 0,
since the writing of the completion is part of it (R68). -/
def costOf (op : Nat) (r : Req) : Nat :=
  let raw := Config.rawCost op r.len (selBytes op r) + 1
  match statedCost op r with
  | some c => c
  | none => if cheapOps.contains op then min 10000 raw else raw

/-- The lowest class at which a job would pass the admission test now, or 0xFF (R65, R88). -/
def lowestClass (jobs : List Job) (t : Nat) (j : Job) : Nat :=
  ((List.range 5).find? fun c => admits jobs t { j with due := t + 4 * classBound c }).getD 0xFF

end Sys2Proof.Machine
end

