-- ==== Sys2Proof/Machine/Take.lean ====
section
/-! DEFINITION. Taking descriptors from the submission rings (R56, R57, R61, R62, R64, R68). -/

namespace Sys2Proof.Machine

/-- The bytes of slot `k` of queue `n`. -/
def slotBytes (io : Io) (n k : Nat) : List Byte := memRead io.qsram (slotAddr n k) 64

/-- How the chain at the head of a submission ring stands (R56): nothing to take yet, a whole chain of entries, or a
malformed one of `k` entries that is refused and consumed. -/
inductive Chain where
  | wait
  | whole (entries : List (List Byte))
  | bad (entries : List (List Byte))

/-- The covered entries from the head on, up to and including the first with CONT clear. -/
def chainOf : List (List Byte) → List (List Byte)
  | [] => []
  | e :: t => if byteAt e 5 % 2 = 1 then e :: chainOf t else [e]

/-- The entries that the doorbell covers, in order. -/
def coveredEntries (io : Io) (n : Nat) : List (List Byte) :=
  let q := io.q n
  (List.range q.held).map fun i => slotBytes io n ((q.icsisPtr + i) % q.n)

/-- A continuation entry repeats SEQ, with OPCODE 0 and CLASS, FLAGS[7:1] and LEN 0 (R56). -/
def contOk (seq : Nat) (e : List Byte) : Bool :=
  leNat e 0 2 == 0 && leNat e 2 2 == seq && byteAt e 4 == 0 && byteAt e 5 / 2 == 0 && leNat e 6 2 == 0

/-- LEN fits the entries: the payload needs exactly that many (R56). -/
def lenFits (len k : Nat) : Bool := decide (len ≤ 56 * k) && (k == 1 || decide (56 * (k - 1) < len))

/-- The chain at the head of ring `n` (R56). -/
def headChain (io : Io) (n : Nat) : Chain :=
  let q := io.q n
  let es := chainOf (coveredEntries io n)
  match es with
  | [] => .wait
  | h :: t =>
    let last := es.getLastD []
    let closed := byteAt last 5 % 2 == 0
    if decide (64 ≤ es.length) && !(closed && es.length == 64) then .bad (es.take 64)
    else if !closed then (if q.held + 1 = q.n then .bad es else .wait)
    else if leNat h 0 2 = 0 then .bad es
    else if lenFits (leNat h 6 2) es.length && t.all (contOk (leNat h 2 2)) then .whole es
    else .bad es

/-- The descriptor of a chain (R54). -/
def reqOf (n : Nat) (es : List (List Byte)) : Req :=
  let h := es.headD []
  let len := leNat h 6 2
  { ring := n, seq := BitVec.ofNat 16 (leNat h 2 2), cls := byteAt h 4, flags := BitVec.ofNat 8 (byteAt h 5), len := len,
    pay := (es.flatMap fun e => e.drop 8).take len }

/-- Bytes past LEN in the entries of a chain are 0 (R54, R64). -/
def tailZero (es : List (List Byte)) : Bool :=
  ((es.flatMap fun e => e.drop 8).drop (leNat (es.headD []) 6 2)).all fun b => b == 0

/-- Ring `n` has something to take: a chain at its head, not waiting on FENCE, and room in its paired ring for the
longest result, which counts as one entry where the ring can never hold it (R55, R61, R62). -/
def canTake (s : State) (n : Nat) : Bool :=
  let io := s.io
  let q := io.q n
  let room (k : Nat) : Bool := (io.q q.pairRing).isCpl && decide (io.reserved q.pairRing + k ≤ io.freeSlots q.pairRing)
  let fence (es : List (List Byte)) : Bool := bit (reqOf n es).flags 2 && io.jobs.any fun j => j.req.ring == n
  q.isSub &&
  match headChain io n with
  | .wait => false
  | .bad es => !fence es && room 1
  | .whole es =>
    let l := longest (leNat (es.headD []) 0 2) (reqOf n es)
    !fence es && room (if l ≤ (io.q q.pairRing).n - 1 then l else 1)

/-- The next ring of the rotation: the first after the one served last that has something to take (R61). -/
def nextRing (s : State) : Option Nat :=
  (((List.range 56).map fun i => 8 + (s.io.rr + 49 + i) % 56).find? fun n => canTake s n)

/-- The status with which a whole descriptor is refused at its take, in the order of R64; none if it is accepted. -/
def takeCheck (s : State) (n op : Nat) (r : Req) (tail : Bool) (j : Job) : Option W16 :=
  match opRow op with
  | none => some stOpcode
  | some row =>
    if (s.io.q n).source = 2 && !row.can then some stOpcode
    else if !row.states.contains s.drv.st then some stState
    else if decide (4 < r.cls) || fld r.flags 7 3 != 0 || decide (maxLen op < r.len) || !tail
        || decide ((s.io.q (s.io.q n).pairRing).n - 1 < longest op r) then some stRange
    else if !admits s.io.jobs s.clk.tb j then some stNotAdmitted
    else none

/-- ICSIS_PTR past `k` entries of ring `n`, and the rotation moved to it (R57, R61). -/
def advance (s : State) (n k : Nat) : State :=
  { s with io := { s.io.updQ n (fun q => { q with icsisPtr := (q.icsisPtr + k) % q.n }) with rr := n } }

/-- RESULT of a refusal at the take (R65). -/
def refusalResult (s : State) (st : W16) (j : Job) : List Byte :=
  if st = stState then [BitVec.ofNat 8 s.drv.st.code]
  else if st = stNotAdmitted then [BitVec.ofNat 8 (lowestClass s.io.jobs s.clk.tb j)]
  else []

/-- The demand at the horizon of each class, D0 to D4, of the jobs outstanding now (R87). -/
def demandsNow (s : State) : List Nat := (List.range 5).map fun c => demand s.io.jobs (s.clk.tb + 4 * classBound c)

/-- DESCRIPTOR_TAKE (R57, R61, R64): the next descriptor or chain is copied and either refused, with its completion, or
becomes an outstanding job. -/
def execDescriptorTake (s : State) : Host.Outcome State Fault Refusal :=
  if !serving s then .next s
  else match nextRing s with
    | none => .next s
    | some n =>
      match headChain s.io n with
      | .wait => .next s
      | .bad es =>
        let r := reqOf n es
        .next (refuseTake (advance s n es.length) (leNat (es.headD []) 0 2) r stFormat [])
      | .whole es =>
        let op := leNat (es.headD []) 0 2
        let r := reqOf n es
        let s' := advance s n es.length
        let j : Job := { opcode := BitVec.ofNat 16 op, req := r, tAcc := now s, cost := costOf op r, entries := longest op r,
                         due := s.clk.tb + 4 * classBound r.cls, demands := demandsNow s }
        match takeCheck s n op r (tailZero es) j with
        | some st => .next (refuseTake s' op r st (refusalResult s st j))
        | none => .next { s' with io := { s'.io with jobs := s'.io.jobs ++ [j] } }

end Sys2Proof.Machine
end

