-- ==== Sys2Proof/Machine/IcsisCmds.lean ====
section
/-! DEFINITION. The commands of the interface itself (R51, R52, R80 to R84, R87 to R89) and the copy of the fault log. -/

namespace Sys2Proof.Machine

/-- CFG_QUEUE's payload (R51). -/
structure QueueCfg where
  qnum : Nat
  cfg : QueueRec

/-- The payload of CFG_QUEUE within its ranges (R12, R51): a submission ring names an enabled completion ring of the same
source, and only a completion ring of the host port has interrupt fields. -/
def parseQueue (r : Req) (io : Io) : Option QueueCfg :=
  let qn := fieldAt r 8 1
  let dir := fieldAt r 9 1
  let dep := fieldAt r 10 1
  let src := fieldAt r 11 1
  let pr := fieldAt r 12 1
  let ic := fieldAt r 13 1
  let it := fieldAt r 14 2
  let pq := io.q pr
  if formOk r 8 && decide (8 ≤ qn) && decide (qn < 64) && decide (dir ≤ 2) && decide (dep ≤ 4) && decide (src ≤ 2)
      && (if dir = 1 then decide (8 ≤ pr) && decide (pr < 64) && pq.isCpl && pq.source == src else pr == 0)
      && ((dir == 2 && src == 0) || (ic == 0 && it == 0))
  then some { qnum := qn, cfg := { dir := dir, depth := dep, source := src, pairRing := pr, irqCount := ic, irqTime := it } }
  else none

/-- CFG_QUEUE finds the queue in use (R52, R81). -/
def queueBusy (io : Io) (n ring : Nat) : Bool :=
  let q := io.q n
  (q.isSub && q.held != 0) || (q.isCpl && q.held != 0)
    || (q.isSub && io.jobs.any fun j => j.req.ring == n && j.req.ring != ring) || (q.isCpl && io.reserved n != 0)
    || n == ring || n == (io.q ring).pairRing || (n != 0 && (List.range 3).any fun k => io.evRing.at k == n)

/-- CFG_QUEUE (R51, R52). -/
def execCfgQueue (r : Req) (s : State) : Host.Outcome State Fault Refusal :=
  .next (runJob 0x1001 r s
    (match parseQueue r s.io with
     | none => .refuse stRange
     | some c => guardSt (!queueBusy s.io c.qnum r.ring) stBusy (ok { s with io := s.io.updQ c.qnum fun _ => c.cfg })))

/-- A ring that CFG_EVENTS may name for a source: 0, or an enabled completion ring of that source (R81). -/
def eventRingOk (io : Io) (src n : Nat) : Bool := n == 0 || (decide (8 ≤ n) && decide (n < 64) && (io.q n).isCpl && (io.q n).source == src)

/-- CFG_EVENTS (R81). -/
def execCfgEvents (r : Req) (s : State) : Host.Outcome State Fault Refusal :=
  let a := fieldAt r 8 1
  let b := fieldAt r 9 1
  let c := fieldAt r 10 1
  .next (runJob 0x1002 r s
    (guardSt (formOk r 8 && zeroAt r 11 1 && zeroAt r 14 2 && eventRingOk s.io 0 a && eventRingOk s.io 1 b && eventRingOk s.io 2 c)
      stRange (ok { s with io := { s.io with evRing := #v[a, b, c], evMask := BitVec.ofNat 16 (fieldAt r 12 2) } })))

/-- A fault record in its 32 bytes (R82). -/
def FaultRec.bytes (f : FaultRec) : List Byte :=
  leBytes 2 f.code.toNat ++ [f.state, f.rflags] ++ leBytes 4 f.num.toNat ++ leBytes 8 f.time.toNat ++ leBytes 2 f.unit.toNat
    ++ [0, 0] ++ leBytes 4 f.data0.toNat ++ leBytes 4 f.data1.toNat ++ [0, 0, 0, 0]

/-- The records that QRY_FAULT_LOG returns from a log held newest first: from the one named on, `n` at most (R83). -/
def logFrom (l : List FaultRec) (start : W32) (n : Nat) : List FaultRec :=
  if start = 0xFFFFFFFF then l.take n else (l.dropWhile fun f => f.num != start).take n

/-- RESULT of QRY_FAULT_LOG (R83). -/
def logResult (l : List FaultRec) (start : W32) (n : Nat) : List Byte :=
  let rs := logFrom l start n
  leBytes 4 rs.length ++ leBytes 4 ((l.head?.map fun f => f.num.toNat).getD 0) ++ rs.flatMap FaultRec.bytes

/-- The log that SRC selects (R83, R104). -/
def logOf (s : State) (src : Nat) : List FaultRec :=
  if src = 0 then s.io.log else if src = 1 then s.nv.flashLog else s.nv.startLog

/-- QRY_FAULT_LOG (R83). -/
def execQryFaultLog (r : Req) (s : State) : Host.Outcome State Fault Refusal :=
  let n := fieldAt r 9 1
  .next (runJob 0x3007 r s
    (guardSt (formOk r 8 && decide (fieldAt r 8 1 ≤ 2) && decide (1 ≤ n) && decide (n ≤ 64) && zeroAt r 10 2) stRange
      (.done s stOk (logResult (logOf s (fieldAt r 8 1)) (BitVec.ofNat 32 (fieldAt r 12 4)) n))))

/-- Records of Icsis SRAM that the flash log lacks are copied to it, newest first, 65,536 kept (R82). -/
def copyLog (s : State) : State :=
  let fresh := (s.io.log.filter fun f => !f.copied).map fun f => { f with copied := true }
  { s with nv := { s.nv with flashLog := (fresh ++ s.nv.flashLog).take 65536 }
           io := { s.io with log := s.io.log.map fun f => { f with copied := true } } }

/-- FAULT_LOG_COPY (R82): the copy due within 1 s of a record. Without a flash die in its window nothing is written
(R537). -/
def execFaultLogCopy (s : State) : Host.Outcome State Fault Refusal :=
  if serving s && !bit s.sup.railOut 4 then .next (copyLog s) else .next s

/-- The demands that QRY_CAPACITY returns: those of its take instant, where the job itself was not yet outstanding (R87; log entry
58). -/
def capacityAt (s : State) (r : Req) : List Nat :=
  match jobOf s 0x3005 r with | some j => j.demands | none => demandsNow s

/-- Demand and allowed value of a class (R87). -/
def capacityOf (s : State) (r : Req) (c : Nat) : List Byte :=
  leBytes 4 ((capacityAt s r).getD c 0) ++ leBytes 4 ((classBound c - 10000) / 2)

/-- QRY_CAPACITY (R80, R87). -/
def execQryCapacity (r : Req) (s : State) : Host.Outcome State Fault Refusal :=
  .next (runJob 0x3005 r s (guardSt (formOk r 0) stRange (.done s stOk ((List.range 5).flatMap (capacityOf s r)))))

/-- The costed descriptor of QRY_CMD_COST (R88): only its opcode, LEN and selector bytes count (R67). -/
def costedReq (r : Req) : Req :=
  { ring := r.ring, seq := 0, cls := 0, flags := 0, len := fieldAt r 10 2, pay := bytesAt r 16 16 }

/-- QRY_CMD_COST (R88). -/
def execQryCmdCost (r : Req) (s : State) : Host.Outcome State Fault Refusal :=
  let op := fieldAt r 8 2
  let q := costedReq r
  let j : Job := { opcode := BitVec.ofNat 16 op, req := q, tAcc := now s, cost := costOf op q, entries := longest op q, due := 0 }
  .next (runJob 0x3006 r s
    (guardSt (formOk r 24 && (opRow op).isSome && decide (fieldAt r 10 2 ≤ maxLen op) && zeroAt r 12 4) stRange
      (.done s stOk (leBytes 4 j.cost ++ leBytes 2 j.entries ++ leBytes 1 (lowestClass [] s.clk.tb j)))))

end Sys2Proof.Machine
end

