-- ==== Sys2Proof/Machine/HostPort.lean ====
section
/-! DEFINITION. The host port (R42 to R48, R53, R74): frames, the directly written registers and the doorbells. -/

namespace Sys2Proof.Machine

/-- HP_CTRL.CRC_EN and HOSTWD (R45). -/
def Io.crcEn (io : Io) : Bool := bit io.hpCtrl 1
def Io.hostWd (io : Io) : Nat := fld io.hpCtrl 31 16

/-- HP_STATUS (R45, R494). -/
def hpStatus (s : State) : W32 :=
  BitVec.ofNat 32 (s.io.lastFault.toNat * 65536 + b2n (decide (2 ≤ s.drv.st.code) && !s.icp.dead) * 128 + b2n (stoAsserted s) * 64
    + s.drv.st.code)

/-- The HIRQ output (R74, R690): whether it is asserted, that is, low; none while the port does not drive it. -/
def hirq (s : State) : Option Bool := if portUp s then some s.io.irqPending else none

/-- The queue whose window or doorbell an address names. -/
def windowOf (a : Nat) : Nat := a / 0x4000

/-- The host port owns queue `n` as a submission ring of its own (R46). -/
def hostSub (io : Io) (n : Nat) : Bool := decide (8 ≤ n) && (io.q n).isSub && (io.q n).source == 0

/-- The host port owns queue `n`, in either direction (R46). -/
def hostOwns (io : Io) (n : Nat) : Bool := decide (8 ≤ n) && (io.q n).dir != 0 && (io.q n).source == 0

/-- QDB_n as it reads (R45, R46). -/
def doorbellWord (io : Io) (n : Nat) : W32 :=
  let q := io.q n
  if n < 8 || q.dir == 0 then 0 else BitVec.ofNat 32 (q.icsisPtr * 65536 + 256 + q.hostPtr)

/-- A new HOST_PTR is acceptable: below the depth, and not past slots that still hold entries the other side has not
consumed (R53). -/
def ptrOk (q : QueueRec) (v : Nat) : Bool :=
  decide (v < q.n) &&
    (if q.isSub then decide ((q.hostPtr + q.n - q.icsisPtr) % q.n ≤ (v + q.n - q.icsisPtr) % q.n)
     else decide ((v + q.n - q.hostPtr) % q.n ≤ q.held))

/-- A doorbell write (R46, R53): HOST_PTR moves, or HP_ERR.PTR is set. -/
def doorbell (s : State) (n : Nat) (w : W32) : State :=
  if hostOwns s.io n && ptrOk (s.io.q n) (fld w 7 0) then
    { s with io := s.io.updQ n fun q => { q with hostPtr := fld w 7 0, timed := if q.isCpl && q.hostPtr != fld w 7 0 then false else q.timed } }
  else { s with io := s.io.err 2 }

/-- A direct write refused under R8: REFUSED and LAST_STATUS (R12, R45). -/
def refuseDirect (s : State) (st : W16) : State :=
  { s with io := { (s.io.err 5) with hpErr := setFld (s.io.err 5).hpErr 31 16 st.toNat } }

/-- The reset of the frame logic: what the port drove in the last read frame is gone; registers and queues are unchanged (R45). -/
def portReset (s : State) : State := { s with io := { s.io with readData := [], readCrcs := [] } }

/-- A write of HP_CTRL: CRC_EN is RWA, HOSTWD is TO, PORT_RST = 1 resets the frame logic (R8, R12, R45). -/
def writeHpCtrl (s : State) (w : W32) : State :=
  let rwa := s.drv.st == .standby || s.drv.st == .configured
  if bit w 1 != s.io.crcEn && !rwa then refuseDirect s stState
  else if !tighterDown s.io.hostWd (fld w 31 16) then refuseDirect s stTighten
  else
    let s := { s with io := { s.io with hpCtrl := w &&& 0xFFFF_0002 } }
    if bit w 0 then portReset s else s

/-- A direct write of one word to a register of the port; an unmapped address sets HP_ERR.ADDR, a read-only register
ignores it (R8, R44, R45). -/
def writeReg (s : State) (a : Nat) (w : W32) : State :=
  if a = 0x100000 ∨ a = 0x100004 ∨ a = 0x100020 ∨ a = 0x100024 then s
  else if a = 0x100008 then writeHpCtrl s w
  else if a = 0x10000C then { s with io := { s.io with hpErr := w1c s.io.hpErr (w &&& 0x3F) } }
  else if a = 0x100010 then { s with io := { s.io with irqStat := w1c s.io.irqStat (w.zeroExtend 64) } }
  else if a = 0x100014 then { s with io := { s.io with irqStat := w1c s.io.irqStat (w.zeroExtend 64 <<< 32) } }
  else if a = 0x100018 then { s with io := { s.io with irqEn := setFld s.io.irqEn 31 0 w.toNat } }
  else if a = 0x10001C then { s with io := { s.io with irqEn := setFld s.io.irqEn 63 32 w.toNat } }
  else if 0x101000 ≤ a ∧ a < 0x101100 then doorbell s ((a - 0x101000) / 4) w
  else { s with io := s.io.err 4 }

/-- A word written through the port: into a queue window that the host owns, or to a register (R45, R46). -/
def writeWord (s : State) (a : Nat) (w : W32) : State :=
  if a < 0x100000 then
    if hostSub s.io (windowOf a) then { s with io := { s.io with qsram := memWrite s.io.qsram a (leBytes 4 w.toNat) } }
    else { s with io := s.io.err 3 }
  else writeReg s a w

/-- A frame's words written at rising addresses. -/
def writeWords (s : State) (a : Nat) : List W32 → State
  | [] => s
  | w :: t => writeWords (writeWord s a w) (a + 4) t

/-- A word as the port reads it; none at an unmapped address (R44, R45). -/
def readWord (s : State) (a : Nat) : Option W32 :=
  if a < 0x100000 then some (BitVec.ofNat 32 (leNat (memRead s.io.qsram a 4) 0 4))
  else if a = 0x100000 then some (BitVec.ofNat 32 (0x96400001 + Config.dieStep.toNat * 256))
  else if a = 0x100004 then some (hpStatus s)
  else if a = 0x100008 then some s.io.hpCtrl
  else if a = 0x10000C then some s.io.hpErr
  else if a = 0x100010 then some (s.io.irqStat.setWidth 32)
  else if a = 0x100014 then some ((s.io.irqStat >>> 32).setWidth 32)
  else if a = 0x100018 then some (s.io.irqEn.setWidth 32)
  else if a = 0x10001C then some ((s.io.irqEn >>> 32).setWidth 32)
  else if a = 0x100020 then some (s.clk.ns.zeroExtend 32)
  else if a = 0x100024 then some s.io.hpTimeSec
  else if 0x101000 ≤ a ∧ a < 0x101100 ∧ a % 4 = 0 then some (doorbellWord s.io ((a - 0x101000) / 4))
  else none

/-- SECONDS latched by a read of HP_TIME_NS (R48). -/
def latchSec (s : State) : State := { s with io := { s.io with hpTimeSec := s.clk.sec.setWidth 32 } }

/-- The address range of a frame of `k` words: it neither reaches 0x10_0000 from below nor passes 0xFF_FFFF (R44). -/
def rangeOk (a k : Nat) : Bool := !(decide (a < 0x100000) && decide (0x100000 < a + 4 * k)) && decide (a + 4 * k ≤ 0x1000000)

/-- A valid frame ends a silent spell (R47). -/
def hostAlive (s : State) : State := { s with io := { s.io with silent := false } }

/-- The bytes of a frame in the order in which they are sent (R42, R43). -/
def frameBytes (instr : Byte) (a : BitVec 24) (ws : List W32) : List Byte :=
  instr :: beBytes 3 a.toNat ++ ws.flatMap fun w => beBytes 4 w.toNat

/-- A word whose address lies from 0x10_0000 on is a direct write with effects of its own; the check units see every
data word of the frame (R636). -/
def frameItems (a : Nat) (ws : List W32) : List Item :=
  ws.zipIdx.map fun p => { addr := a + 4 * p.2, seq := 0, data := leBytes 4 p.1.toNat }

/-- HOST_WRITE_FRAME (R42 to R44, R689, R690): a frame that is not well formed sets HP_ERR.FRAME, one with a wrong CRC
sets HP_ERR.CRC, and neither writes anything; a good frame is applied word by word and seen by the check units. -/
def execHostWriteFrame (instr : Byte) (addr : BitVec 24) (words : List W32) (crc : Option W16) (clocks : Nat) (s : State) :
    Host.Outcome State Fault Refusal :=
  let k := words.length
  let en := s.io.crcEn
  let formed := instr == 0x38 && decide (1 ≤ k) && decide (k ≤ 64) && crc.isSome == en
    && clocks == 8 + 8 * k + (if en then 4 else 0) && addr.toNat % 4 == 0 && rangeOk addr.toNat k
  if !portUp s then .next s
  else if !formed then .next { s with io := s.io.err 0 }
  else if en && crc != some (crc16 (frameBytes instr addr words)) then .next { s with io := s.io.err 1 }
  else .next (snoop (writeWords (hostAlive s) addr.toNat words) 0x30 (frameItems addr.toNat words) true)

/-- The words of a read frame as the port drives them: from the first address at or beyond the end of the range, 0; an
unmapped address reads 0 and sets HP_ERR.ADDR; HP_TIME_NS latches the seconds (R44, R48). -/
def readWords (a : Nat) (lim : Nat) : Nat → State → List W32 × State
  | 0, s => ([], s)
  | k + 1, s =>
    if lim ≤ a then
      let r := readWords (a + 4) lim k s
      (0 :: r.1, r.2)
    else match readWord s a with
      | some w =>
        let r := readWords (a + 4) lim k (if a = 0x100020 then latchSec s else s)
        (w :: r.1, r.2)
      | none =>
        let r := readWords (a + 4) lim k { s with io := s.io.err 4 }
        (0 :: r.1, r.2)

/-- The CRC sent after each data word of a read frame (R43). -/
def readCrcs (instr : Byte) (a : BitVec 24) (ws : List W32) : List W16 :=
  (List.range ws.length).map fun i => crc16 (frameBytes instr a (ws.take (i + 1)))

/-- HOST_READ_FRAME (R42 to R44, R48, R689): `clocks` gives the number of words whose first clock has passed, which are
delivered even where the frame proves truncated. DESIGN CHOICE (log entry 59): of an over-long frame the port delivers 64 words and
none after them, and the CRC that follows a word at or beyond the end of the range is 0, as the word is. -/
def execHostReadFrame (instr : Byte) (addr : BitVec 24) (clocks : Nat) (s : State) : Host.Outcome State Fault Refusal :=
  let en := s.io.crcEn
  let per := if en then 12 else 8
  let k := (clocks - 16) / per
  let sent := min 64 ((clocks - 16 + per - 1) / per)
  let bad := instr != 0xEB || addr.toNat % 4 != 0
  let whole := decide (1 ≤ k) && decide (k ≤ 64) && clocks == 16 + per * k
  if !portUp s then .next s
  else if bad then .next { s with io := { s.io.err 0 with readData := List.replicate sent 0, readCrcs := if en then List.replicate sent 0 else [] } }
  else
    let lim := if addr.toNat < 0x100000 then 0x100000 else 0x1000000
    let r := readWords addr.toNat lim sent s
    let crcs := if en then (readCrcs instr addr r.1).zipIdx.map fun p => if lim ≤ addr.toNat + 4 * p.2 then 0 else p.1 else []
    let s' := { r.2 with io := { r.2.io with readData := r.1, readCrcs := crcs } }
    if whole && rangeOk addr.toNat k then .next (hostAlive s') else .next { s' with io := s'.io.err 0 }

/-- DIRECT_REGISTER_WRITE (R8, R12, R45): one word written to a register of the port. -/
def execDirectRegisterWrite (addr : BitVec 24) (w : W32) (s : State) : Host.Outcome State Fault Refusal :=
  if !portUp s then .next s
  else if addr.toNat % 4 != 0 || decide (addr.toNat < 0x100000) then .next { s with io := s.io.err 0 }
  else .next (writeReg (hostAlive s) addr.toNat w)

/-- PORT_RST (R45): the frame logic is reset; registers and queues are unchanged. -/
def execPortRst (s : State) : Host.Outcome State Fault Refusal :=
  if !portUp s then .next s
  else .next (portReset s)

/-- DOORBELL_WRITE (R46, R53). -/
def execDoorbellWrite (q : Fin 64) (w : W32) (s : State) : Host.Outcome State Fault Refusal :=
  if !portUp s then .next s else .next (doorbell (hostAlive s) q.val w)

/-- HP_TIME_NS_READ (R48): the port delivers NANOS and latches SECONDS[31:0] of the same instant. -/
def execHpTimeNsRead (s : State) : Host.Outcome State Fault Refusal :=
  if !portUp s then .next s
  else .next (latchSec { s with io := { s.io with readData := [s.clk.ns.zeroExtend 32], silent := false } })

/-- IRQ_TIME_EXPIRY (R73): the oldest pending completion of a ring has waited IRQ_TIME, once for each completion that
becomes the oldest. -/
def execIrqTimeExpiry (ring : Fin 64) (s : State) : Host.Outcome State Fault Refusal :=
  let q := s.io.q ring.val
  if q.isCpl && q.irqTime != 0 && q.held != 0 && !q.timed then
    .next { s with io := (s.io.updQ ring.val fun q => { q with timed := true }).raise ring.val }
  else .next s

end Sys2Proof.Machine
end

