-- ==== Sys2Proof/Machine/Crypto.lean ====
section
/-! DEFINITION. SHA-512 (FIPS 180-4) and Ed25519 (RFC 8032, pure form), the two algorithms that chapter 21 names. -/

namespace Sys2Proof.Machine

/-- The round constants of SHA-512: the first 64 bits of the fractional parts of the cube roots of the first 80 primes. -/
def shaK0 : List W64 :=
  [0x428A2F98D728AE22, 0x7137449123EF65CD, 0xB5C0FBCFEC4D3B2F, 0xE9B5DBA58189DBBC,
   0x3956C25BF348B538, 0x59F111F1B605D019, 0x923F82A4AF194F9B, 0xAB1C5ED5DA6D8118,
   0xD807AA98A3030242, 0x12835B0145706FBE, 0x243185BE4EE4B28C, 0x550C7DC3D5FFB4E2,
   0x72BE5D74F27B896F, 0x80DEB1FE3B1696B1, 0x9BDC06A725C71235, 0xC19BF174CF692694,
   0xE49B69C19EF14AD2, 0xEFBE4786384F25E3, 0x0FC19DC68B8CD5B5, 0x240CA1CC77AC9C65]

/-- Round constants 20 to 39. -/
def shaK1 : List W64 :=
  [0x2DE92C6F592B0275, 0x4A7484AA6EA6E483, 0x5CB0A9DCBD41FBD4, 0x76F988DA831153B5,
   0x983E5152EE66DFAB, 0xA831C66D2DB43210, 0xB00327C898FB213F, 0xBF597FC7BEEF0EE4,
   0xC6E00BF33DA88FC2, 0xD5A79147930AA725, 0x06CA6351E003826F, 0x142929670A0E6E70,
   0x27B70A8546D22FFC, 0x2E1B21385C26C926, 0x4D2C6DFC5AC42AED, 0x53380D139D95B3DF,
   0x650A73548BAF63DE, 0x766A0ABB3C77B2A8, 0x81C2C92E47EDAEE6, 0x92722C851482353B]

/-- Round constants 40 to 59. -/
def shaK2 : List W64 :=
  [0xA2BFE8A14CF10364, 0xA81A664BBC423001, 0xC24B8B70D0F89791, 0xC76C51A30654BE30,
   0xD192E819D6EF5218, 0xD69906245565A910, 0xF40E35855771202A, 0x106AA07032BBD1B8,
   0x19A4C116B8D2D0C8, 0x1E376C085141AB53, 0x2748774CDF8EEB99, 0x34B0BCB5E19B48A8,
   0x391C0CB3C5C95A63, 0x4ED8AA4AE3418ACB, 0x5B9CCA4F7763E373, 0x682E6FF3D6B2B8A3,
   0x748F82EE5DEFB2FC, 0x78A5636F43172F60, 0x84C87814A1F0AB72, 0x8CC702081A6439EC]

/-- Round constants 60 to 79. -/
def shaK3 : List W64 :=
  [0x90BEFFFA23631E28, 0xA4506CEBDE82BDE9, 0xBEF9A3F7B2C67915, 0xC67178F2E372532B,
   0xCA273ECEEA26619C, 0xD186B8C721C0C207, 0xEADA7DD6CDE0EB1E, 0xF57D4F7FEE6ED178,
   0x06F067AA72176FBA, 0x0A637DC5A2C898A6, 0x113F9804BEF90DAE, 0x1B710B35131C471B,
   0x28DB77F523047D84, 0x32CAAB7B40C72493, 0x3C9EBE0A15C9BEBC, 0x431D67C49C100D4C,
   0x4CC5D4BECB3E42B6, 0x597F299CFC657E2A, 0x5FCB6FAB3AD6FAEC, 0x6C44198C4A475817]

/-- All eighty round constants. -/
def shaK : List W64 := shaK0 ++ shaK1 ++ shaK2 ++ shaK3

/-- The initial hash value. -/
def shaInit : List W64 :=
  [0x6A09E667F3BCC908, 0xBB67AE8584CAA73B, 0x3C6EF372FE94F82B, 0xA54FF53A5F1D36F1,
   0x510E527FADE682D1, 0x9B05688C2B3E6C1F, 0x1F83D9ABFB41BD6B, 0x5BE0CD19137E2179]

/-- Functions of FIPS 180-4 on 64-bit words. -/
def shaCh (x y z : W64) : W64 := (x &&& y) ^^^ (~~~x &&& z)
def shaMaj (x y z : W64) : W64 := (x &&& y) ^^^ (x &&& z) ^^^ (y &&& z)
def shaBig0 (x : W64) : W64 := x.rotateRight 28 ^^^ x.rotateRight 34 ^^^ x.rotateRight 39
def shaBig1 (x : W64) : W64 := x.rotateRight 14 ^^^ x.rotateRight 18 ^^^ x.rotateRight 41
def shaSmall0 (x : W64) : W64 := x.rotateRight 1 ^^^ x.rotateRight 8 ^^^ (x >>> 7)
def shaSmall1 (x : W64) : W64 := x.rotateRight 19 ^^^ x.rotateRight 61 ^^^ (x >>> 6)

/-- A message as it is hashed: a 1 bit, zeros, and the length in bits as 16 bytes. -/
def shaPad (l : List Byte) : List Byte :=
  l ++ [0x80] ++ List.replicate ((239 - l.length % 128) % 128) 0 ++ beBytes 16 (8 * l.length)

/-- The message schedule of one block, newest word first: sixteen words of the block and `n` more. -/
def shaSchedule : Nat → List W64 → List W64
  | 0, w => w
  | n + 1, w =>
    let t := shaSmall1 (w.getD 1 0) + w.getD 6 0 + shaSmall0 (w.getD 14 0) + w.getD 15 0
    shaSchedule n (t :: w)

/-- One round on the eight working words. -/
def shaRound (v : List W64) (kw : W64) : List W64 :=
  match v with
  | [a, b, c, d, e, f, g, h] =>
    let t1 := h + shaBig1 e + shaCh e f g + kw
    let t2 := shaBig0 a + shaMaj a b c
    [t1 + t2, a, b, c, d + t1, e, f, g]
  | _ => v

/-- One block of 128 bytes. -/
def shaBlock (hv : List W64) (b : List Byte) : List W64 :=
  let w16 := ((List.range 16).map fun i => (BitVec.ofNat 64 (beNat b (8 * i) 8) : W64)).reverse
  let w := (shaSchedule 64 w16).reverse
  let v := (shaK.zip w).foldl (fun v p => shaRound v (p.1 + p.2)) hv
  (hv.zip v).map fun p => p.1 + p.2

/-- The blocks of a padded message. -/
def shaBlocks : Nat → List W64 → List Byte → List W64
  | 0, hv, _ => hv
  | n + 1, hv, l => shaBlocks n (shaBlock hv (l.take 128)) (l.drop 128)

/-- SHA-512 of a byte string: 64 bytes. -/
def sha512 (l : List Byte) : List Byte :=
  let p := shaPad l
  (shaBlocks (p.length / 128) shaInit p).flatMap fun w => beBytes 8 w.toNat

/-- The prime of the field, the order of the base point and the curve constant (RFC 8032, 5.1). -/
def edP : Nat := 2 ^ 255 - 19
def edL : Nat := 2 ^ 252 + 27742317777372353535851937790883648493
def edD : Nat := 37095705934669439343138083508754565189542113879843219016388785533085940283555

/-- A power modulo the prime, over the bits of the exponent from the top. -/
def edPow (b : Nat) (bits : List Bool) : Nat :=
  bits.foldl (fun a t => let q := a * a % edP; if t then q * b % edP else q) 1

/-- The lowest `n` bits of a number, highest first. -/
def bitsHigh (n v : Nat) : List Bool := ((List.range n).map v.testBit).reverse

/-- The inverse in the field. -/
def edInv (x : Nat) : Nat := edPow x (bitsHigh 255 (edP - 2))

/-- A point in extended homogeneous coordinates. -/
structure EdPoint where
  x : Nat
  y : Nat
  z : Nat
  t : Nat
  deriving DecidableEq, Repr, Inhabited

/-- A difference in the field. -/
def edSub (a b : Nat) : Nat := (a + edP - b % edP) % edP

/-- The sum of two points (RFC 8032, 5.1.4). -/
def EdPoint.plus (p q : EdPoint) : EdPoint :=
  let a := edSub p.y p.x * edSub q.y q.x % edP
  let b := (p.y + p.x) * (q.y + q.x) % edP
  let c := 2 * p.t * q.t * edD % edP
  let d := 2 * p.z * q.z % edP
  let e := edSub b a
  let f := edSub d c
  let g := (d + c) % edP
  let h := (b + a) % edP
  { x := e * f % edP, y := g * h % edP, z := f * g % edP, t := e * h % edP }

/-- The neutral point, and a multiple of a point by 256 bits of a scalar. -/
def edZero : EdPoint := { x := 0, y := 1, z := 1, t := 0 }
def edMul (k : Nat) (p : EdPoint) : EdPoint :=
  (bitsHigh 256 k).foldl (fun a t => let q := a.plus a; if t then q.plus p else q) edZero

/-- Equality of points. -/
def EdPoint.same (p q : EdPoint) : Bool := p.x * q.z % edP == q.x * p.z % edP && p.y * q.z % edP == q.y * p.z % edP

/-- The x coordinate of a y coordinate with a sign bit (RFC 8032, 5.1.3). -/
def edRecover (y : Nat) (sign : Bool) : Option Nat :=
  let u := edSub (y * y) 1
  let v := (edD * (y * y % edP) + 1) % edP
  let xx := u * edInv v % edP
  let r := edPow xx (bitsHigh 252 ((edP + 3) / 8))
  let r := if r * r % edP = xx then r else r * edPow 2 (bitsHigh 253 ((edP - 1) / 4)) % edP
  if r * r % edP ≠ xx then none
  else if r = 0 ∧ sign then none
  else some (if r.testBit 0 == sign then r else edP - r)

/-- The point that 32 bytes encode. -/
def edDecode (l : List Byte) : Option EdPoint :=
  let n := leNat l 0 32
  let y := n % 2 ^ 255
  if edP ≤ y then none
  else (edRecover y (n.testBit 255)).map fun x => { x := x, y := y, z := 1, t := x * y % edP }

/-- A point's encoding. -/
def EdPoint.bytes (p : EdPoint) : List Byte :=
  let zi := edInv p.z
  leBytes 32 (p.y * zi % edP + (if (p.x * zi % edP).testBit 0 then 2 ^ 255 else 0))

/-- The base point. -/
def edBase : EdPoint :=
  let y := 4 * edInv 5 % edP
  let x := (edRecover y false).getD 0
  { x := x, y := y, z := 1, t := x * y % edP }

/-- Verification of a 64-byte signature (RFC 8032, 5.1.7). -/
def edVerify (key sig msg : List Byte) : Bool :=
  let s := leNat sig 32 32
  let k := leNat (sha512 (sig.take 32 ++ key ++ msg)) 0 64 % edL
  if sig.length ≠ 64 ∨ edL ≤ s then false
  else match edDecode key, edDecode (sig.take 32) with
    | some a, some r => (edMul 8 (edMul s edBase)).same (edMul 8 (r.plus (edMul k a)))
    | _, _ => false

/-- The secret scalar of a seed. -/
def edScalar (seed : List Byte) : Nat :=
  let n := leNat (sha512 seed) 0 32
  n % 2 ^ 254 / 8 * 8 + 2 ^ 254

/-- The public key of a seed (RFC 8032, 5.1.5). -/
def edPublic (seed : List Byte) : List Byte := (edMul (edScalar seed) edBase).bytes

/-- A signature with a seed (RFC 8032, 5.1.6). -/
def edSign (seed msg : List Byte) : List Byte :=
  let r := leNat (sha512 ((sha512 seed).drop 32 ++ msg)) 0 64 % edL
  let rb := (edMul r edBase).bytes
  let k := leNat (sha512 (rb ++ edPublic seed ++ msg)) 0 64 % edL
  rb ++ leBytes 32 ((r + k * edScalar seed) % edL)

end Sys2Proof.Machine
end

