-- ==== Sys2Proof/Machine/LawState.lean ====
section
/-! DEFINITION. What the laws keep between activations, as words of the state area (R113, R135, R138, R165, R180, R235), and the
parameters of a context as words of its region memory (R135, R160). The spec leaves the places of the words to Drulis: the
layout is the model's (log entries 61 and 62). -/

namespace Sys2Proof.Machine

/-- A value as `n` words, the lowest first, the highest with the sign. -/
def splitInt : Nat → Int → List W18
  | 0, _ => []
  | n + 1, v => BitVec.ofInt 18 v :: splitInt n (v / 262144)

/-- The value that `n` words at `a` hold. -/
def joinInt (ld : Nat → W18) : Nat → Nat → Int
  | _, 0 => 0
  | a, 1 => s18 (ld a)
  | a, n + 1 => ((ld a).toNat : Int) + 262144 * joinInt ld (a + 1) n

/-- The loops of a law: PI_SCH and PID one, FOC3 two, FOC6 also the two of the xy plane (R162, R210). -/
def loopCount : LawKind → Nat
  | .piSch => 1 | .pid => 1 | .foc3 => 2 | .foc6 => 4 | _ => 0

/-- The values of one law with their widths in words, in the order of the layout: the integrator of each loop in two words (R165)
and its correction in one; the gain set and the KP in force; the delays of PID; field weakening, flux and slip; the
switching state and the torque reference; the ramps in two words each; the notch delays (R180); the harmonic set. -/
def runFields (x : LawRun) : List (Nat × Int) :=
  let loop (k : Nat) : List (Nat × Int) := let q := x.loops.getD k {}; [(2, q.i), (1, q.b)]
  let notch (k : Nat) : List (Nat × Int) := let q := x.notch.getD k {}; [(1, q.x1), (1, q.x2), (1, q.y1), (1, q.y2)]
  loop 0 ++ loop 1 ++ loop 2 ++ loop 3
    ++ [(1, (x.gset : Int)), (1, (x.kpLast.length : Int)), (1, x.kpLast.getD 0 0), (1, x.kpLast.getD 1 0),
        (3, x.dPrev), (1, x.yPrev), (1, (b2n x.started : Int)),
        (2, x.idFw), (3, x.psi), (1, (b2n x.fluxed : Int)), (2, x.slip), (1, (x.fcs : Int)), (1, x.tRef),
        (2, x.rT), (2, x.rW), (1, (b2n x.stopping : Int)), (1, (x.mode : Int)), (1, (x.src : Int)), (1, (x.srcArg : Int))]
    ++ x.curveOn.toList.map (fun b => (1, (b2n b : Int)))
    ++ notch 0 ++ notch 1 ++ notch 2 ++ (List.range 16).map fun k => (1, x.harm.getD k 0)

/-- The words of one law's state at the law's place. -/
def encRun (l : LawInst) (x : LawRun) : List (Nat × W18) :=
  ((runFields x).flatMap fun p => splitInt p.1 p.2).zipIdx.map fun p => (l.stBase + p.2, p.1)

/-- One law's state read from its words. -/
def decRun (l : LawInst) (ld : Nat → W18) : LawRun :=
  let at_ (o n : Nat) : Int := joinInt ld (l.stBase + o) n
  let flag (o : Nat) : Bool := at_ o 1 != 0
  let loop (k : Nat) : Loop := { i := at_ (3 * k) 2, b := at_ (3 * k + 2) 1 }
  let notch (k : Nat) : Notch := { x1 := at_ (43 + 4 * k) 1, x2 := at_ (44 + 4 * k) 1, y1 := at_ (45 + 4 * k) 1, y2 := at_ (46 + 4 * k) 1 }
  { loops := (List.range (loopCount l.kind)).map loop
    gset := (at_ 12 1).toNat
    kpLast := [at_ 14 1, at_ 15 1].take (at_ 13 1).toNat
    dPrev := at_ 16 3, yPrev := at_ 19 1, started := flag 20
    notch := if l.kind = .notch3 then (List.range 3).map notch else []
    idFw := at_ 21 2, psi := at_ 23 3, fluxed := flag 26, slip := at_ 27 2 % 2 ^ 36
    fcs := (at_ 29 1).toNat
    harm := if l.kind = .harm then (List.range 16).map (fun k => at_ (55 + k) 1) else []
    tRef := at_ 30 1, rT := at_ 31 2, rW := at_ 33 2, stopping := flag 35, mode := (at_ 36 1).toNat, src := (at_ 37 1).toNat
    srcArg := (at_ 38 1).toNat
    curveOn := Vector.ofFn fun k : Fin 4 => flag (39 + k.val) }

/-- Words of a bank of a region memory written. -/
def putWords (s : State) (g : Nat) (b : Bool) (l : List (Nat × W18)) : State :=
  if b then { s with thk := { s.thk with rmemB := s.thk.rmemB.upd g fun m => memPuts m l } }
  else { s with thk := { s.thk with rmem := s.thk.rmem.upd g fun m => memPuts m l } }

/-- The word of a context's state area as its next activation reads it (R138). -/
def stateWord (s : State) (c a : Nat) : W18 := memGet (bankOf s.thk (ctxAt s c).region (ctxAt s c).stBank) a

/-- The laws' state of a context as its last normal completion left it. -/
def lawRuns (s : State) (i : CtxImg) : List LawRun := i.laws.map fun l => decRun l (stateWord s i.num)

/-- The laws' state of a context put into a bank of its state area. -/
def putLaws (s : State) (i : CtxImg) (b : Bool) (rs : List LawRun) : State :=
  putWords s (ctxAt s i.num).region b ((i.laws.zip rs).flatMap fun p => encRun p.1 p.2)

/-- The laws' state of one context changed: in the bank that its next activation reads, and in an activation under way. -/
def mapCtxLaws (f : LawInst → LawRun → LawRun) (s : State) (i : CtxImg) : State :=
  let g (l : List LawRun) : List LawRun := (i.laws.zip l).map fun p => f p.1 p.2
  let s := putLaws s i (ctxAt s i.num).stBank (g (lawRuns s i))
  updCtx s i.num fun x => { x with act := x.act.map fun a => { a with laws := g a.laws } }

/-- Every committed context's law state changed. -/
def mapLaws (s : State) (f : LawInst → LawRun → LawRun) : State := (placed s).foldl (mapCtxLaws f) s

/-- A parameter of a context: a word of its region memory (R135). -/
def paramAt (s : State) (c k : Nat) : W18 := stateWord s c ((ctxAt s c).parBase + k)

/-- Pending parameter values take effect: the words of both banks (R160). -/
def mergeParams (s : State) (c : Nat) : State :=
  let x := ctxAt s c
  let l := (List.range 16).filterMap fun k => (x.pend.at k).map fun v => (x.parBase + k, v)
  updCtx (putWords (putWords s x.region false l) x.region true l) c fun x => { x with pend := Vector.replicate 16 none }

/-- The parameters of a context as they would be with what is pending in a record (R160, R174). -/
def pendingParams (s : State) (c : Nat) (x : Ctx) (i : Nat) : Int := s18 ((x.pend.at i).getD (paramAt s c i))

end Sys2Proof.Machine
end

