-- ==== Sys2Proof/Machine/Dsm.lean ====
section
/-! DEFINITION. The delta-sigma inputs (R283 to R291): results, deliveries, the fast path with its trip and cut-off lines, and
CFG_DSM. -/

namespace Sys2Proof.Machine

/-- A delta-sigma input changed. -/
def updDsm (s : State) (i : Nat) (f : Dsm → Dsm) : State := { s with acq := { s.acq with dsm := s.acq.dsm.upd i f } }

/-- Fields of DSM_ICFG (R284). -/
def Dsm.en (d : Dsm) : Bool := bit d.cfg 63
def dsmClk (c : W64) : Nat := fld c 62 61
def dsmR (c : W64) : Nat := 16 * 2 ^ fld c 55 53
def dsmFcnt (c : W64) : Nat := fld c 32 29

/-- DIV of the clock of an input (R283). -/
def dsmDiv (clks : Tab 4 W32) (c : W64) : Nat := fld (clks.at (dsmClk c)) 5 0

/-- DSM_STAT (R290). -/
def Dsm.status (d : Dsm) : Byte := setBit d.stat 3 (d.settle != 0)

/-- A fault record of an input. -/
def recDsm (s : State) (i : Nat) (code : W16) : State := record s code i ((s.acq.dsm.at i).status.zeroExtend 32)

/-- The input runs: enabled, its clock output running (R283), in a state from CONFIGURED on. -/
def dsmRuns (s : State) (i : Nat) : Bool :=
  (s.acq.dsm.at i).en && bit (s.acq.clks.at (dsmClk (s.acq.dsm.at i).cfg)) 31 && unitsRun s

/-- A transition of the data input has been seen: STUCK clears (R289). -/
def Dsm.moves (d : Dsm) : Dsm := if d.stuck then { d with stuck := false, stat := setBit d.stat 1 false } else d

/-- The latest result delivered to its stream entry (R287). -/
def dsmDeliver (s : State) (i : Nat) : State :=
  let d := s.acq.dsm.at i
  if bit d.cfg 52 then
    let w := scaled d.scale (s18 (d.word0.setWidth 18))
    deliver (updDsm s i fun d => { d with seq := d.seq + 1 }) (routeDsm s i) (fld d.cfg 51 43) (w18 (sat18 w))
      (flagWord (bit d.word1 31 || bit d.word1 30 || bit d.word1 29) false false 0 d.seq.toNat)
  else s

/-- DSM_RESULT (R285 to R287): a sinc3 sum becomes the result entry; with DTRIG = 0x00 it is delivered at once. Where the
result or the centre tick is no integer, a neighbour by a free value. -/
def execDsmResult (i : Fin 12) (sum : Int) (s : State) : Host.Outcome State Fault Refusal :=
  let d := s.acq.dsm.at i.val
  let r := dsmR d.cfg
  if !dsmRuns s i.val || decide (((r ^ 3 : Nat) : Int) < |sum|) then .next s
  else
    let v := min 131071 (freeRound ((sum : Rat) * 2 ^ 17 / (r : Rat) ^ 3) (freeVal s))
    let t := freeRound ((s.clk.cycles : Rat) - 15 * ((r - 1) * dsmDiv s.acq.clks d.cfg : Nat) / 2) (freeVal (freeTaken s))
    let full := |sum| == ((r ^ 3 : Nat) : Int)
    let stuck := d.stuck && full
    let tag := b2n full * 2 ^ 31 + b2n stuck * 2 ^ 30 + b2n (d.settle != 0) * 2 ^ 29 + i.val * 2 ^ 25 + (t % 2 ^ 21).toNat
    let s := updDsm (freeTaken (freeTaken s)) i.val fun d =>
      let d := if full then d else d.moves
      { d with word0 := BitVec.signExtend 32 (w18 v), word1 := BitVec.ofNat 32 tag, settle := d.settle - 1,
               stat := setBit d.stat 0 (bit d.stat 0 || full) }
    .next (if fld d.cfg 42 35 = 0 then dsmDeliver s i.val else s)

/-- DSM_DELIVERY (R287): a DTRIG event. -/
def execDsmDelivery (i : Fin 12) (s : State) : Host.Outcome State Fault Refusal :=
  if dsmRuns s i.val && fld (s.acq.dsm.at i.val).cfg 42 35 != 0 then .next (dsmDeliver s i.val) else .next s

/-- The leg that an input's trip line turns off (R442). -/
def tripLeg (s : State) (i : Nat) : Nat := fld s.prt.trip (19 + 4 * i) (16 + 4 * i)

/-- The trip line of an input asserted: in the armed states both channels of its phase leg go off, with the safe pattern on the
machine (R412, R418, R421), or the chopper is faulty (R442). -/
def assertTrip (s : State) (i : Nat) : State :=
  let s := updPrt s fun p => { p with tripLine := setBit p.tripLine i true }
  let k := tripLeg s i
  if !pathsArmed s then s
  else if k < 6 then
    let s := updPrt (noteUnits s) fun p => { p with legOff := p.legOff.put k true }
    actPattern (legTrip (recPrt s k 0x2001) k 0x2001) (machineOf s.drv.arrange k)
  else if k = 6 then chopperFault (updPrt s fun p => { p with flags := setBit p.flags 14 true })
  else s

/-- The cut-off lines that compare one sinc2 output of input `i` (R433, R443). -/
def cbcLines (s : State) (i : Nat) (out : Int) : BitVec 4 :=
  (List.range 4).foldl (fun l k =>
    let c := s.prt.cbc.at k
    if bit c 31 && fld c 30 27 == i then setBit l k (decide (((fld c 26 9 : Nat) : Int) < |out|)) else l) s.prt.cbcLine

/-- The sinc2 decimation Rf (R284). -/
def dsmRf (c : W64) : Nat := 4 * 2 ^ fld c 34 33

/-- A sinc2 sum normalised to 18 bits, R² in place of R³; 131,072 takes 131,071 (R285, R288). The division is exact. -/
def sinc2 (rf : Nat) (sum : Int) : Int := min 131071 (sum * 2 ^ 17 / (rf ^ 2 : Nat))

/-- One sinc2 sum of the fast path (R288); one that is not at full scale holds a transition (R289). -/
def fastOut (s : State) (i : Nat) (sum : Int) : State :=
  let rf := dsmRf (s.acq.dsm.at i).cfg
  let out := sinc2 rf sum
  let s := updDsm s i fun d => { (if |sum| == ((rf ^ 2 : Nat) : Int) then d else d.moves) with fast := out }
  let d := s.acq.dsm.at i
  let hi := s18 (BitVec.ofNat 18 (fld d.fth 35 18))
  let lo := s18 (BitVec.ofNat 18 (fld d.fth 17 0))
  let n := dsmFcnt d.cfg
  let s := updPrt s fun p => { p with cbcLine := cbcLines s i out }
  if hi < out || out < lo then
    let s := updDsm s i fun d => { d with count := satInc n d.count }
    if d.count < n ∧ n ≤ d.count + 1 then
      assertTrip (recDsm (updDsm s i fun d => { d with stat := setBit d.stat 2 true }) i 0x6011) i
    else s
  else
    updPrt (updDsm s i fun d => { d with count := 0 }) fun p => { p with tripLine := setBit p.tripLine i d.stuck }

/-- DSM_FAST_TRIP (R288, R433): sinc2 sums in order; the FCNT-th in a row whose output lies beyond a threshold trips. No sum of
the filter lies beyond Rf². -/
def execDsmFastTrip (i : Fin 12) (sums : List Int) (s : State) : Host.Outcome State Fault Refusal :=
  let rf := dsmRf (s.acq.dsm.at i.val).cfg
  if dsmRuns s i.val && dsmFcnt (s.acq.dsm.at i.val).cfg != 0 then
    .next ((sums.filter fun x => decide (|x| ≤ ((rf ^ 2 : Nat) : Int))).foldl (fun s x => fastOut s i.val x) s)
  else .next s

/-- DSM_STUCK (R289): no transition for 1,024 modulator periods; the fast path trips, and FTRIP is set with it (R288). -/
def execDsmStuck (i : Fin 12) (s : State) : Host.Outcome State Fault Refusal :=
  if dsmRuns s i.val && !(s.acq.dsm.at i.val).stuck then
    let s := recDsm (updDsm s i.val fun d => { d with stuck := true, stat := setBit d.stat 1 true }) i.val 0x6010
    .next (if dsmFcnt (s.acq.dsm.at i.val).cfg != 0
      then assertTrip (updDsm s i.val fun d => { d with stat := setBit d.stat 2 true }) i.val else s)
  else .next s

/-- The detection time of R288 keeps its bound, and SPT lies below DIV (R284). -/
def dsmTimeOk (clks : Tab 4 W32) (c : W64) : Bool :=
  let div := dsmDiv clks c
  decide (fld c 60 56 < div) && (dsmFcnt c == 0 || decide ((dsmFcnt c + 1) * (4 * 2 ^ fld c 34 33) * div ≤ 96))

/-- DSM_CLK in its range (R283). -/
def dsmClkOk (w : W32) : Bool := fld w 30 6 == 0 && decide (8 ≤ fld w 5 0) && decide (fld w 5 0 ≤ 32)

/-- CFG_DSM CLOCKS (R283, R285, R288, R291): an input whose clock changes settles anew. -/
def execCfgDsmClocks (r : Req) (s : State) : Host.Outcome State Fault Refusal :=
  let c : Tab 4 W32 := Vector.ofFn fun i : Fin 4 => BitVec.ofNat 32 (fieldAt r (16 + 4 * i.val) 4)
  let settle (d : Dsm) : Dsm := if d.en && c.at (dsmClk d.cfg) != s.acq.clks.at (dsmClk d.cfg) then { d with settle := 3 } else d
  .next (runJob 0x1021 r s
    (guardSt (opForm r 24 0 && zeroAt r 9 7 && c.toList.all dsmClkOk && s.acq.dsm.toList.all fun d => dsmTimeOk c d.cfg) stRange
      (guardSt (c == s.acq.clks || rwaState s) stState
        (ok { s with acq := { s.acq with clks := c, dsm := s.acq.dsm.map settle } }))))

/-- The records of CFG_DSM INPUT in their ranges (R273, R284, R288). -/
def dsmRecOk (s : State) (c f sc : W64) : Bool :=
  decide (fld c 55 53 ≤ 4) && trigOk (fld c 42 35) && fld c 28 0 == 0 && fld f 63 36 == 0
    && decide (s18 (BitVec.ofNat 18 (fld f 17 0)) < s18 (BitVec.ofNat 18 (fld f 35 18)))
    && fld sc 63 61 == 0 && fld sc 38 18 == 0 && dsmTimeOk s.acq.clks c

/-- CFG_DSM INPUT (R284, R285, R287, R288, R291). -/
def execCfgDsmInput (r : Req) (s : State) : Host.Outcome State Fault Refusal :=
  let i := fieldAt r 9 1
  let c : W64 := BitVec.ofNat 64 (fieldAt r 16 8)
  let f : W64 := BitVec.ofNat 64 (fieldAt r 24 8)
  let sc : W64 := BitVec.ofNat 64 (fieldAt r 32 8)
  let d := s.acq.dsm.at i
  let anew := bit c 63 && (!d.en || dsmClk c != dsmClk d.cfg)
  let s' := updDsm s i fun d =>
    { d with cfg := c, fth := f, scale := sc, settle := if anew then 3 else d.settle, count := if anew then 0 else d.count,
             stuck := if anew then false else d.stuck }
  .next (runJob 0x1021 r s
    (guardSt (opForm r 32 1 && decide (i < 12) && zeroAt r 10 6 && dsmRecOk s c f sc && slotsOk s') stRange
      (guardSt ((c == d.cfg && f == d.fth) || rwaState s) stState (ok s'))))

/-- CFG_DSM STATUS_CLR (R290, R291). -/
def execCfgDsmStatusClr (r : Req) (s : State) : Host.Outcome State Fault Refusal :=
  let i := fieldAt r 9 1
  let m := fieldAt r 12 4
  .next (runJob 0x1021 r s
    (guardSt (opForm r 8 2 && decide (i < 12) && zeroAt r 10 2 && decide (m < 8)) stRange
      (ok (updDsm s i fun d => { d with stat := w1c d.stat (BitVec.ofNat 8 m) }))))

end Sys2Proof.Machine
end

