-- ==== Sys2Proof/Machine/Pos.lean ====
section
/-! DEFINITION. Position and speed (chapter 09): resolvers, encoders with compare and index, Hall sets, the tracking
observers with the choice of the safe pattern, and the plausibility checks. -/

namespace Sys2Proof.Machine

/-- An encoder, a Hall set, an observer changed. -/
def updEnc (s : State) (e : Nat) (f : Enc → Enc) : State := { s with pos := { s.pos with enc := s.pos.enc.upd e f } }
def updHal (s : State) (h : Nat) (f : Hal → Hal) : State := { s with pos := { s.pos with hal := s.pos.hal.upd h f } }
def updObs (s : State) (o : Nat) (f : Obs → Obs) : State := { s with pos := { s.pos with obs := s.pos.obs.upd o f } }
def updRsv (s : State) (u : Nat) (f : Rsv → Rsv) : State := { s with pos := { s.pos with rsv := s.pos.rsv.upd u f } }

/-- Every observer changed. -/
def mapObs (s : State) (f : Obs → Obs) : State := { s with pos := { s.pos with obs := s.pos.obs.map f } }

/-- Fields of POS_OBSA (R330). -/
def Obs.en (o : Obs) : Bool := bit o.cfgA 63
def obsSrc (a : W64) : Nat := fld a 62 59
def obsEpp (a : W64) : Nat := fld a 58 52
def obsFallback (a : W64) : Nat := fld a 51 48
def obsBw (a : W64) : Nat := fld a 47 32
def obsLtrig (a : W64) : Nat := fld a 31 24
def obsOffset (a : W64) : W18 := BitVec.ofNat 18 (fld a 17 0)

/-- Fields of POS_ENC (R327). -/
def Enc.en (e : Enc) : Bool := bit e.cfg 63
def Enc.cpr (e : Enc) : Nat := fld e.cfg 52 32
def Enc.idxtol (e : Enc) : Nat := fld e.cfg 31 16

/-- The speed base of an observer in electrical Hz; 1 while none has been written. -/
def Obs.base (o : Obs) : Rat := match f32Rat o.wb with | some q => if q ≤ 0 then 1 else q | none => 1

/-- Amplitude of a resolver's pair, in 1/65,536 of full scale, one of its neighbours by a free value (R301). -/
def ampWord (q n : Nat) : Nat := min 65535 (isqrt (q / 4) + (if isqrt (q / 4) ^ 2 * 4 = q then 0 else n % 2))

/-- A measurement handed to every observer that follows a source; the latest one of an update is used (R318). -/
def measure (s : State) (src : Nat) (q : Rat) : State :=
  mapObs s fun o => if o.en && obsSrc o.cfgA == src then { o with meas := some (q.num, q.den, s.clk.tb) } else o

/-- RESOLVER_SAMPLE (R299 to R301): the amplitude check, LOS, and atan2(s, c) as a measurement, within 8 counts by a free
value. The instant is also trigger 0x21 or 0x22. -/
def execResolverSample (u : Fin 2) (sn cs : W18) (negPeak : Bool) (s : State) : Host.Outcome State Fault Refusal :=
  let x := s.pos.rsv.at u.val
  if !bit x.cfg 63 || !unitsRun s then .next s
  else
    let sg : Int := if negPeak then -1 else 1
    let a := sg * s18 sn
    let c := sg * s18 cs
    let q := (a * a + c * c).toNat
    let amin := fld x.cfg 31 24 * 512
    let amax := fld x.cfg 23 16 * 512
    let inside := decide (amin * amin ≤ q) && decide (q ≤ amax * amax)
    let good := if inside then satInc 16 x.good else 0
    let bad := if inside then 0 else satInc 2 x.bad
    let los := if x.los then decide (good < 16) else decide (bad = 2)
    let s' := fire (updRsv (freeTaken (freeTaken s)) u.val fun x =>
      { x with bad := bad, good := good, los := los, amp := ampWord q (freeVal s) }) (0x21 + u.val) s.clk.tb
    let s' := if los && !x.los then record s' 0x7010 u.val 0 else s'
    if inside && !los then
      let f := angleFloor c a
      .next (measure s' u.val (((within 8 ((f.1 : Int), f.2) (freeVal (freeTaken s)) % 262144 : Int) : Rat) / 262144))
    else .next s'

/-- ENC_STAT's W1C flag set, with a record where it changes from 0. -/
def encFlag (s : State) (e i : Nat) (code : W16) : State :=
  let old := bit (s.pos.enc.at e).stat i
  let s := updEnc s e fun x => { x with stat := setBit x.stat i true }
  if old then s else record s code e (s.pos.enc.at e).stat

/-- An encoder runs: enabled, in a state from CONFIGURED on (R294). -/
def encRuns (s : State) (e : Nat) : Bool := (s.pos.enc.at e).en && unitsRun s

/-- The source angle of a count boundary (R304). -/
def boundaryAngle (x : Enc) (b : Int) : Rat := (((b - x.idxRef) % x.cpr : Int) : Rat) / x.cpr

/-- The observer with the lowest number that follows an encoder (R306). -/
def followerOf (s : State) (e : Nat) : Option Obs :=
  s.pos.obs.toList.find? fun o => o.en && obsSrc o.cfgA == 2 + e

/-- EDGE_SPD for an interval in quarters of a nanosecond (R306): one count over the interval in pu of WB, signed by the
direction; saturated, and rounded by a free value. -/
def edgeSpeed (s : State) (e dt : Nat) (rev : Bool) (n : Nat) : Int :=
  if 5 * 2097152 < dt then 0 else
    match followerOf s e with
    | some o =>
      let q : Rat := (4000000000 : Rat) / ((max dt 5 : Nat) * (s.pos.enc.at e).cpr) * obsEpp o.cfgA / o.base * 131072
      sat18 (freeRound (if rev then -q else q) n)
    | none => (s.pos.enc.at e).edgeSpd

/-- Fields of POS_CMP (R328): the length of the compare lead's pulse in quarters of a nanosecond. -/
def pulseLen (c : W64) : Nat := (fld c 19 16 + 1) * 100

/-- A compare firing after a step (R311, R313, R314); one that falls within a pulse extends it. -/
def compareFire (s : State) (e : Nat) (rev : Bool) : State :=
  let x := s.pos.enc.at e
  if bit x.cmp 63 && fld x.cmp 59 40 == x.cnt then
    let stp := fld x.cmp 39 20
    let nxt := if rev then (fld x.cmp 59 40 + x.cpr - stp) % x.cpr else (fld x.cmp 59 40 + stp) % x.cpr
    let s := updEnc s e fun x =>
      { x with cmp := setBit (setFld x.cmp 59 40 nxt) 63 (!bit x.cmp 62), stat := setBit x.stat 3 true,
               pulseEnd := max x.pulseEnd (s.clk.tb + pulseLen x.cmp) }
    fire s (0x31 + e) s.clk.tb
  else s

/-- The compare lead is high (R294, R314). -/
def compareLead (s : State) (e : Nat) : Bool := encRuns s e && decide (s.clk.tb < (s.pos.enc.at e).pulseEnd)

/-- The pass-through leads of an encoder: A, B and Z (R294, R310). A level that the filter has not accepted is in no command, so
the raw lines read as the filtered ones (log entry 70). -/
def passLeads (s : State) (e : Nat) : Bool × Bool × Bool :=
  let x := s.pos.enc.at e
  if encRuns s e && fld x.cfg 55 54 != 0 then (x.lineA, x.lineB, x.lineZ) else (false, false, false)

/-- A resolver's excitation is driven; its frequency and amplitude are those of the record (R294, R298). -/
def excites (s : State) (u : Nat) : Bool := bit (s.pos.rsv.at u).cfg 63 && unitsRun s

/-- One accepted edge of A or B: ahead, A leads B (R303; log entry 70). -/
def Enc.edge (x : Enc) (ahead : Bool) : Enc :=
  if (x.lineA == x.lineB) == ahead then { x with lineA := !x.lineA } else { x with lineB := !x.lineB }

/-- A count step of an encoder (R303, R304, R306). -/
def countStep (s : State) (e : Nat) (rev : Bool) : State :=
  let x := s.pos.enc.at e
  let wrapUp := !rev && x.cnt + 1 == x.cpr
  let wrapDn := rev && x.cnt == 0
  let cnt := if wrapUp then 0 else if wrapDn then x.cpr - 1 else if rev then x.cnt - 1 else x.cnt + 1
  let revs := (BitVec.ofInt 16 (x.revs + (if wrapUp then 1 else 0) - (if wrapDn then 1 else 0))).toInt
  let spd := match x.lastEdge with
    | some (t, d) => if d == rev then edgeSpeed s e (s.clk.tb - t) rev (freeVal s) else x.edgeSpd
    | none => x.edgeSpd
  let s' := updEnc (freeTaken s) e fun x =>
    { x with cnt := cnt, revs := revs, edgeSpd := spd, lastEdge := some (s.clk.tb, rev), stat := setBit x.stat 5 rev }
  let b : Int := if rev then (cnt : Int) + 1 else cnt
  compareFire (measure s' (2 + e) (boundaryAngle x b)) e rev

/-- An encoder is not healthy after more than eight illegal transitions in 1 ms, until 10 ms have passed without one (R305). -/
def Enc.ill (x : Enc) (tb : Nat) : Bool := x.sick && decide (tb < x.illAt.headD 0 + 40000000)

/-- Simultaneous changes of A and B (R305). -/
def encIllegal (s : State) (e : Nat) : State :=
  let x := s.pos.enc.at e
  let ill := (s.clk.tb :: x.illAt).take 9
  let sick := x.ill s.clk.tb || (ill.length == 9 && decide (s.clk.tb ≤ ill.getD 8 0 + 4000000))
  encFlag (updEnc s e fun x =>
    { x with stat := incSat x.stat 31 24, illAt := ill, sick := sick, lineA := !x.lineA, lineB := !x.lineB }) e 1 0x7001

/-- ENCODER_COUNT_STEP (R303 to R306, R311 to R314). -/
def execEncoderCountStep (e : Fin 4) (up both : Bool) (s : State) : Host.Outcome State Fault Refusal :=
  if !encRuns s e.val then .next s
  else if both then .next (encIllegal s e.val)
  else .next (countStep (updEnc s e.val fun x => x.edge up) e.val (up == bit (s.pos.enc.at e.val).cfg 62))

/-- A new IDX_REF at the observers that follow the encoder: the source angle, and a measurement that waits, are counted from it,
and the offset of an observer aligned before it keeps θe continuous (R304, R323). -/
def indexShift (s : State) (e ref : Nat) : State :=
  let cpr := (s.pos.enc.at e).cpr
  let d := freeRound (((ref : Nat) : Rat) * 2 ^ 32 / cpr) (freeVal s)
  mapObs (freeTaken s) fun o =>
    if o.en && obsSrc o.cfgA == 2 + e then
      { o with th := BitVec.ofInt 32 (o.th.toNat - d)
               meas := o.meas.map fun p =>
                 let q : Rat := (p.1 : Rat) / p.2.1 - (ref : Rat) / cpr
                 (q.num, q.den, p.2.2)
               offset := if o.aligned then BitVec.ofInt 18 (o.offset.toNat + obsEpp o.cfgA * (d / 2 ^ 14)) else o.offset }
    else o

/-- INDEX_EDGE (R307, R308): CNT and REVS are latched; the first index gives IDX_REF, later ones in its direction are
checked. -/
def execIndexEdge (e : Fin 4) (falling aLevel bLevel : Bool) (s : State) : Host.Outcome State Fault Refusal :=
  let s := if encRuns s e.val then updEnc s e.val fun x => { x with lineA := aLevel, lineB := bLevel, lineZ := !falling } else s
  let x := s.pos.enc.at e.val
  let zq := fld x.cfg 61 60
  if !encRuns s e.val || falling != bit x.cfg 53 || (zq == 1 && !(aLevel && bLevel)) || (zq == 2 && (aLevel || bLevel)) then .next s
  else
    let s := updEnc s e.val fun x => { x with icnt := x.cnt, irevs := x.revs }
    let rev := bit x.stat 5
    if !bit x.stat 7 then
      .next (indexShift (updEnc s e.val fun x =>
        { x with idxRef := x.cnt, stat := setBit (setBit x.stat 6 rev) 7 true }) e.val x.cnt)
    else if rev == bit x.stat 6 then
      let h := x.cpr / 2
      let d : Int := (((x.cnt : Int) - x.idxRef + h) % x.cpr) - h
      if x.idxtol != 0 && decide ((x.idxtol : Int) < |d|) then
        let s := updEnc s e.val fun x => { x with stat := setBit (incSat x.stat 23 16) 2 true }
        .next (record s 0x7002 e.val (s.pos.enc.at e.val).stat)
      else .next s
    else .next s

/-- ENC_LINE (R309): a receiver fault has lasted 1 µs. -/
def execEncLine (e : Fin 4) (s : State) : Host.Outcome State Fault Refusal :=
  if encRuns s e.val && !bit (s.pos.enc.at e.val).stat 8 then
    let s := updEnc s e.val fun x => { x with stat := setBit x.stat 8 true }
    .next (record s 0x7003 e.val (s.pos.enc.at e.val).stat)
  else .next s

/-- ENC_LINE_CLEAR (R309): the fault has been absent for 100 µs. -/
def execEncLineClear (e : Fin 4) (s : State) : Host.Outcome State Fault Refusal :=
  .next (if encRuns s e.val then updEnc s e.val fun x => { x with stat := setBit x.stat 8 false } else s)

/-- The sector of a Hall state (R315, R329). -/
def hallSector (cfg : W32) (st : Nat) : Nat := fld cfg (3 * st + 4) (3 * st + 2)

/-- A Hall state is legal (R315). -/
def hallLegal (lines : BitVec 3) : Bool := lines != 0 && lines != 7

/-- An observer at the centre of Hall sector `k` (R316). -/
def Obs.centre (o : Obs) (k : Nat) : Obs := { o with th := BitVec.ofNat 32 ((2 * k + 1) * 2 ^ 32 / 12), ws := 0, acc := 0 }

/-- The observers that follow a Hall set, at the centre of its sector (R316). -/
def hallCentre (s : State) (h k : Nat) : State :=
  mapObs s fun o => if o.en && obsSrc o.cfgA == 6 + h then o.centre k else o

/-- HALL_CHANGE (R315 to R317): an adjacent sector gives a measurement at the boundary; an illegal state or a skip counts, and a
skip clears FINE. -/
def execHallChange (h : Fin 2) (lines : BitVec 3) (s : State) : Host.Outcome State Fault Refusal :=
  let x := s.pos.hal.at h.val
  if !bit x.cfg 31 || !unitsRun s then .next s
  else
    let illegal (s : State) : State :=
      let old := bit (s.pos.hal.at h.val).stat 1
      let s := updHal s h.val fun x => { x with stat := setBit (incSat x.stat 31 24) 1 true }
      if old then s else record s 0x7020 h.val (s.pos.hal.at h.val).stat
    let s := updHal s h.val fun x => { x with lines := lines }
    if !hallLegal lines then .next (illegal s)
    else
      let k := hallSector x.cfg lines.toNat
      let s := updHal s h.val fun x => { x with sector := some k }
      match x.sector with
      | none => .next (hallCentre s h.val k)
      | some j =>
        if k = j then .next s
        else if k = (j + 1) % 6 then .next (measure (updHal s h.val fun x => { x with fine := true }) (6 + h.val) ((k : Rat) / 6))
        else if j = (k + 1) % 6 then .next (measure (updHal s h.val fun x => { x with fine := true }) (6 + h.val) ((j : Rat) / 6))
        else .next (illegal (updHal s h.val fun x => { x with fine := false }))

/-- The source of an observer is enabled and healthy (R305, R309, R316, R317, R321). -/
def srcHealthy (s : State) (a : W64) : Bool :=
  let k := obsSrc a
  if k < 2 then bit (s.pos.rsv.at k).cfg 63 && !(s.pos.rsv.at k).los
  else if k < 6 then
    let e := s.pos.enc.at (k - 2)
    e.en && !bit e.stat 8 && !e.ill s.clk.tb
  else bit (s.pos.hal.at (k - 6)).cfg 31 && (s.pos.hal.at (k - 6)).sector.isSome && hallLegal (s.pos.hal.at (k - 6)).lines

/-- ABS of an observer whose VALID is `v` (R322). -/
def obsAbs (s : State) (o : Obs) (v : Bool) : Bool :=
  let k := obsSrc o.cfgA
  if k < 2 then v
  else if k < 6 then (s.pos.enc.at (k - 2)).en && (bit (s.pos.enc.at (k - 2)).stat 7 || o.aligned)
  else srcHealthy s o.cfgA

/-- A difference of angles in revolutions, wrapped into −1/2 to 1/2. -/
def wrapRev (q : Rat) : Rat := q - (q + 1 / 2).floor

/-- 2^32 as the scale of θs, ws and as. -/
def obsScale : Rat := 4294967296

/-- A Hall observer's prediction outside its sector widened by 1/72 takes the range edge as a measurement (R319). -/
def hallEdge (s : State) (o : Obs) (p : Rat) : Option Rat :=
  if obsSrc o.cfgA < 6 then none
  else match (s.pos.hal.at (obsSrc o.cfgA - 6)).sector with
    | none => none
    | some k =>
      let d := wrapRev (p - (2 * k + 1) / 12)
      if 7 / 72 < d then some ((2 * k + 1) / 12 + 7 / 72) else if d < -7 / 72 then some ((2 * k + 1) / 12 - 7 / 72) else none

/-- The tracking step of R318 to R321: prediction, correction, the tracking check and the count of measurements; the second
result says that a measurement lay beyond the limit of R320. `n` rounds the three state words, each a neighbour of its exact
value. -/
def Obs.track_ (s : State) (o : Obs) (n : Nat) : Obs × Bool :=
  let tu : Rat := 1 / 2500000
  let th : Rat := (o.th.toNat : Rat) / obsScale
  let ws : Rat := (o.ws : Rat) / obsScale
  let ac : Rat := (o.acc : Rat) / obsScale
  let tp := th + ws * tu + ac * tu * tu / 2
  let wp := ws + ac * tu
  let m : Option (Rat × Rat) := match hallEdge s o (tp - tp.floor), o.meas with
    | some q, _ => some (q, wrapRev (q - tp))
    | none, some (a, b, t) =>
      let q : Rat := (a : Rat) / b
      let dt : Rat := ((t : Rat) - o.tUpd) / 4000000000
      some (q, wrapRev (q - (th + ws * dt + ac * dt * dt / 2)))
    | none, none => none
  match m with
  | some (q, e) =>
    if o.fresh then
      ({ o with th := BitVec.ofInt 32 (freeRound (q * obsScale) n), ws := 0, acc := 0, fresh := false, mcount := 1, meas := none }, false)
    else
      let wn : Rat := 2 * (piScaled : Rat) / 2 ^ 64 * obsBw o.cfgA
      let err : Rat := obsEpp o.cfgA * |e| * 262144
      let lim : Rat := fld o.cfgB 23 16 * 256
      let on := fld o.cfgB 23 16 != 0
      let badNow := on && decide (lim < err)
      let good := if on && decide (2 * err < lim) then satInc 16 o.trkGood else 0
      ({ o with
          th := BitVec.ofInt 32 (freeRound ((tp + 3 * wn * tu * e) * obsScale) n)
          ws := freeRound ((wp + 3 * wn * wn * tu * e) * obsScale) (n / 2)
          acc := freeRound ((ac + wn * wn * wn * tu * e) * obsScale) (n / 4)
          mcount := satInc 64 o.mcount
          trkGood := if badNow then 0 else good
          trkBad := badNow || (o.trkBad && on && good < 16)
          track := o.track || badNow
          meas := none }, badNow)
  | none =>
    ({ o with th := BitVec.ofInt 32 (freeRound (tp * obsScale) n), ws := freeRound (wp * obsScale) (n / 2), meas := none }, false)

/-- The outputs of R295, with SAT where speed or acceleration saturates; rounded by `n`. -/
def Obs.outputs (o : Obs) (n : Nat) : Obs :=
  let thm : W18 := BitVec.ofNat 18 (o.th.toNat / 2 ^ 14)
  let k : Rat := (obsEpp o.cfgA : Rat) * 131072 / obsScale / o.base
  let w := freeRound (o.ws * k) n
  let a := freeRound (o.acc * k / 1000) (n / 2)
  { o with thm := thm, the := BitVec.ofNat 18 (obsEpp o.cfgA * thm.toNat + o.offset.toNat), w := sat18 w, a := sat18 a,
           sat := o.sat || sats18 w || sats18 a }

/-- The committed image requires an observer (R227, R324). -/
def required (s : State) (o : Nat) : Bool := match s.thk.body with | some b => s.drv.committed && b.required.contains o | none => false

/-- A context that reads an observer's stream entries (R324). -/
def readsObs (s : State) (o : Nat) (i : CtxImg) : Bool :=
  let x := s.pos.obs.at o
  i.inputs.any fun k => (obsSlots x.cfgA x.cfgB).contains k

/-- The catch of a machine is in stages 1 to 3. -/
def catching (s : State) (m : Nat) : Bool :=
  s.drv.st == .running && decide (1 ≤ (s.dmd.catch_.at m).stage) && decide ((s.dmd.catch_.at m).stage ≤ 3)

/-- The context that holds a machine's DMD law. -/
def dmdCtx (s : State) (m : Nat) : Option Nat :=
  ((placed s).find? fun i => i.laws.any fun l => l.kind == .dmd && l.machine == m).map CtxImg.num

/-- The catch ends in ARMED, with fault 0x5010 (R245). -/
def catchAbort (s : State) (m : Nat) : State :=
  let u := (dmdCtx s m).getD noUnit
  arrive (record s 0x5010 u (if u = noUnit then 0 else (ctxAt s u).status)) .runEnd 0x5010

/-- POS_OSTAT and its flag byte (R333). -/
def Obs.ostat (o : Obs) : W32 := (o.offset - obsOffset o.cfgA).zeroExtend 32
def obsFlags (s : State) (o : Obs) : Byte :=
  let k := obsSrc o.cfgA
  BitVec.ofNat 8 (b2n o.valid * 128 + b2n o.abs * 64 + b2n o.fallbk.isSome * 32 + b2n (decide (k < 2) && (s.pos.rsv.at k).los) * 16
    + b2n (decide (6 ≤ k) && (s.pos.hal.at (k - 6)).fine) * 8 + b2n o.sat * 4 + b2n o.plaus * 2 + b2n o.track)

/-- A required observer has stopped being VALID (R324): its fallback serves its streams, or the catch ends, or the loss is
escalated. -/
def obsLost (s : State) (o : Nat) : State :=
  let x := s.pos.obs.at o
  let f := obsFallback x.cfgA
  if f < 4 && (s.pos.obs.at f).valid && (s.pos.obs.at f).abs then
    record (updObs s o fun x => { x with fallbk := some f }) 0x7033 o x.ostat
  else if catching s 0 || catching s 1 then
    let s := if catching s 0 then catchAbort s 0 else s
    if catching s 1 then catchAbort s 1 else s
  else
    let s := record s 0x7032 o x.ostat
    if (placed s).any fun i => readsObs s o i && (ctxAt s i.num).outPwm then escalate s 0x7032 else s

/-- The catches whose position source an observer is, and which its loss of validity ends (R245). -/
def catchLost (s : State) (o : Nat) : State :=
  let x := s.pos.obs.at o
  (List.range 2).foldl (fun s m =>
    let src := (placed s).any fun i => i.laws.any fun l =>
      l.kind == .dmd && l.machine == m && (l.angSrc.map (obsSlots x.cfgA x.cfgB).contains).getD false
    if catching s m && src then catchAbort s m else s) s

/-- OBSM0 or OBSM1 (R439). -/
def obsmOf (s : State) (m : Nat) : Nat := if m = 0 then fld s.prt.ctl 62 61 else fld s.prt.ctl 60 59

/-- The choice between freewheel and ASC of the machines that an observer serves (R417). -/
def choosePattern (s : State) (o : Nat) : State :=
  let x := s.pos.obs.at o
  let f : Rat := (x.w.natAbs : Rat) / 131072 * x.base
  let spd : Rat := (fld s.prt.ctl 47 32 : Nat)
  let hys : Rat := (fld s.prt.ctl 31 24 : Nat)
  (List.range 2).foldl (fun s m =>
    if inUse s m && obsmOf s m == o then
      updPrt (noteUnits s) fun p => { p with asc := p.asc.put m (if !x.valid || spd ≤ f then true else if f < spd - hys then false else p.asc.at m) }
    else s) s

/-- The position block as telemetry returns it (R334). -/
def posBytes (s : State) : List Byte :=
  let p := s.pos
  (p.obs.toList.flatMap fun o => word4 o.ostat) ++ p.obs.toList.map (obsFlags s) ++ (p.enc.toList.flatMap fun e => word4 e.stat)
    ++ (p.hal.toList.flatMap fun h => word4 h.stat) ++ (p.rsv.toList.flatMap fun x => leBytes 2 x.amp)
    ++ (p.obs.toList.flatMap fun o => leBytes 4 (ext18 o.the) ++ intBytes 4 o.w ++ intBytes 4 o.a)
    ++ (p.enc.toList.flatMap fun e => leBytes 4 e.cnt ++ leBytes 4 e.icnt ++ intBytes 4 e.edgeSpd)
    ++ p.enc.toList.flatMap fun e => intBytes 2 e.revs ++ intBytes 2 e.irevs

/-- The block makes updates: an enabled observer in a state in which it runs. -/
def posUpdates (s : State) : Bool := unitsRun s && s.pos.obs.toList.any Obs.en

/-- The state that telemetry returns is taken once every enabled observer has made the update of this instant (R334). -/
def noteUpdate (s : State) : State :=
  if s.pos.obs.toList.all fun o => !o.en || o.tUpd == s.clk.tb then { s with pos := { s.pos with view := some (posBytes s) } } else s

/-- OBSERVER_UPDATE (R295, R318 to R322, R324, R334, R417): one step every 400 ns. After a loss of the source's health the
measurements are counted anew, and the first loads θs (R321). -/
def execObserverUpdate (o : Fin 4) (s : State) : Host.Outcome State Fault Refusal :=
  let x := s.pos.obs.at o.val
  if !x.en || !unitsRun s then .next s
  else
    let healthy := srcHealthy s x.cfgA
    let lost := x.healthy && !healthy
    let r := Obs.track_ s x (freeVal s)
    let y := (r.1.outputs (freeVal (freeTaken s)))
    let y := { y with healthy := healthy, fresh := y.fresh || lost, mcount := if lost then 0 else y.mcount }
    let v := healthy && decide (64 ≤ y.mcount) && !y.trkBad
    let y := { y with valid := v, abs := obsAbs s y v, tUpd := s.clk.tb }
    let s' := updObs (freeTaken (freeTaken s)) o.val fun _ => y
    let s' := if r.2 then record s' 0x7030 o.val y.ostat else s'
    let s' := if x.valid && !v then (if required s' o.val then obsLost s' o.val else catchLost s' o.val) else s'
    .next (noteUpdate (choosePattern s' o.val))

/-- OBSERVER_LATCH (R296, R324): the outputs, the angles extrapolated to the trigger edge, in the observer's stream entries;
after a loss they are the fallback's. -/
def execObserverLatch (o : Fin 4) (dtNs : Nat) (s : State) : Host.Outcome State Fault Refusal :=
  let x := s.pos.obs.at o.val
  if !x.en || !unitsRun s || obsLtrig x.cfgA == 0 then .next s
  else
    let y := match x.fallbk with | some f => s.pos.obs.at f | none => x
    let adv : Rat := (y.ws : Rat) / obsScale * dtNs / 1000000000 * 262144
    let dm := freeRound adv (freeVal s)
    let de := freeRound (adv * obsEpp y.cfgA) (freeVal s / 2)
    let fl := flagWord (!y.valid) false false 0 x.seq.toNat
    let put (s : State) (on : Bool) (slot : Nat) (v : W18) : State := if on then deliver s (routePos s o.val) slot v fl else s
    let s := updObs (freeTaken s) o.val fun x => { x with seq := x.seq + 1 }
    let s := put s (bit x.cfgB 63) (fld x.cfgB 62 54) (BitVec.ofInt 18 (y.the.toNat + de))
    let s := put s (bit x.cfgB 53) (fld x.cfgB 52 44) (w18 y.w)
    let s := put s (bit x.cfgB 43) (fld x.cfgB 42 34) (w18 y.a)
    .next (put s (bit x.cfgB 33) (fld x.cfgB 32 24) (BitVec.ofInt 18 (y.thm.toNat + dm)))

/-- A comparison of PLAn fails (R325). -/
def plaFails (s : State) (c : W64) : Bool :=
  let a := s.pos.obs.at (fld c 62 61)
  let b := s.pos.obs.at (fld c 60 59)
  a.valid && b.valid &&
    (decide (((fld c 40 23 : Nat) : Int) < |a.w - b.w|)
      || (a.abs && b.abs && decide (((fld c 58 41 : Nat) : Int) < |s18 (a.the - b.the)|)))

/-- PLAUSIBILITY_CHECK (R325). -/
def execPlausibilityCheck (p : Fin 2) (s : State) : Host.Outcome State Fault Refusal :=
  let x := s.pos.pla.at p.val
  let n := fld x.cfg 22 15
  if !bit x.cfg 63 || !unitsRun s then .next s
  else
    let bad := plaFails s x.cfg
    let y : Pla := { x with fails := if bad then satInc n x.fails else 0, passes := if bad then 0 else satInc n x.passes }
    let s := { s with pos := { s.pos with pla := s.pos.pla.put p.val y } }
    let both (s : State) (v : Bool) : State :=
      updObs (updObs s (fld x.cfg 62 61) fun o => { o with plaus := v }) (fld x.cfg 60 59) fun o => { o with plaus := v }
    if y.fails = n ∧ x.fails < n then .next (record (both s true) 0x7031 p.val 0)
    else if y.passes = n ∧ x.passes < n then .next (both s false)
    else .next s

end Sys2Proof.Machine
end

