-- ==== Sys2Proof/Machine/PosCfg.lean ====
section
/-! DEFINITION. CFG_POS (R326 to R333) and CFG_PRT with OP = CTL (R439, R477). -/

namespace Sys2Proof.Machine

/-- W_BASE agrees with 2π × WB within 2^-20 of W_BASE (R297). -/
def baseAgrees (wBase wb : W32) : Bool :=
  match f32Rat wBase, f32Rat wb with
  | some w, some b => decide (|w - 2 * (piScaled : Rat) / 2 ^ 64 * b| ≤ w / 2 ^ 20)
  | _, _ => false

/-- Speed and acceleration entries of an observer (R330). -/
def speedSlots (o : Obs) : List Nat :=
  if o.en then (if bit o.cfgB 53 then [fld o.cfgB 52 44] else []) ++ (if bit o.cfgB 43 then [fld o.cfgB 42 34] else []) else []

/-- The check of R297 over contexts given as their inputs and W_BASE. -/
def basesOk (obs : List Obs) (imgs : List (List Nat × W32)) : Bool :=
  imgs.all fun i => obs.all fun o => !((speedSlots o).any i.1.contains) || baseAgrees i.2 o.wb

/-- Inputs and W_BASE of the committed contexts. -/
def ctxBases (s : State) : List (List Nat × W32) := (placed s).map fun i => (imgEntries i, (ctxAt s i.num).wBase)

/-- CFG_POS's form (R332). -/
def posForm (r : Req) (len op n : Nat) : Bool :=
  opForm r len op && decide (fieldAt r 9 1 < n) && zeroAt r 10 2 && zeroAt r 12 4

/-- CFG_POS RSV (R253, R326): bandwidths of the observers that follow it stay within EXCF / 5 (R318). -/
def execCfgPosRsv (r : Req) (s : State) : Host.Outcome State Fault Refusal :=
  let u := fieldAt r 9 1
  let c : W64 := BitVec.ofNat 64 (fieldAt r 16 8)
  let exc := fld c 62 48
  let x := s.pos.rsv.at u
  let anew := bit c 63 && !bit x.cfg 63
  .next (runJob 0x1022 r s
    (guardSt (posForm r 16 0 2 && decide (2000 ≤ exc) && decide (exc ≤ 20000) && decide (fld c 31 24 < fld c 23 16) && fld c 15 0 == 0
        && !(bit c 63 && rsvClash (s.acq.groups.at 3).want u)
        && s.pos.obs.toList.all fun o => obsSrc o.cfgA != u || decide (5 * obsBw o.cfgA ≤ exc)) stRange
      (guardSt (c == x.cfg || rwaState s) stState
        (ok (updRsv s u fun x => { x with cfg := c, bad := if anew then 0 else x.bad, good := if anew then 0 else x.good, los := x.los && !anew })))))

/-- CFG_POS ENC (R307, R322, R327): enabling clears IDX_SEEN and IDX_REF; once EN clears, no alignment stands. -/
def execCfgPosEnc (r : Req) (s : State) : Host.Outcome State Fault Refusal :=
  let e := fieldAt r 9 1
  let c : W64 := BitVec.ofNat 64 (fieldAt r 16 8)
  let cpr := fld c 52 32
  let x := s.pos.enc.at e
  let anew := bit c 63 && !x.en
  .next (runJob 0x1022 r s
    (guardSt (posForm r 16 1 4 && fld c 61 60 != 3 && fld c 55 54 != 3 && decide (16 ≤ cpr) && decide (cpr ≤ 2 ^ 20) && fld c 15 0 == 0) stRange
      (guardSt (c == x.cfg || rwaState s) stState
        (ok (updEnc (if bit c 63 then s else mapObs s fun o =>
            if obsSrc o.cfgA == 2 + e then { o with aligned := false, abs := false } else o) e fun x =>
          { x with cfg := c, cnt := x.cnt % cpr, idxRef := if anew then 0 else x.idxRef % cpr,
                   stat := if anew then setBit x.stat 7 false else x.stat, lastEdge := if anew then none else x.lastEdge,
                   sick := x.sick && !anew, illAt := if anew then [] else x.illAt })))))

/-- A compare value that takes effect is behind (R312). -/
def behind (x : Enc) (c : W64) : Bool :=
  bit c 63 && (fld c 59 40 == x.cnt || (if bit x.stat 5 then decide (x.cnt < fld c 59 40) else decide (fld c 59 40 < x.cnt)))

/-- CFG_POS CMP (R312, R313, R328). -/
def execCfgPosCmp (r : Req) (s : State) : Host.Outcome State Fault Refusal :=
  let e := fieldAt r 9 1
  let c : W64 := BitVec.ofNat 64 (fieldAt r 16 8)
  let cpr := (s.pos.enc.at e).cpr
  .next (runJob 0x1022 r s
    (guardSt (posForm r 16 2 4 && decide (fld c 59 40 < cpr) && decide (fld c 39 20 < cpr) && fld c 61 60 == 0 && fld c 15 0 == 0) stRange
      (ok (updEnc s e fun x => { x with cmp := c, stat := if behind x c then setBit x.stat 4 true else x.stat }))))

/-- CFG_POS HAL (R316, R329). -/
def execCfgPosHal (r : Req) (s : State) : Host.Outcome State Fault Refusal :=
  let h := fieldAt r 9 1
  let c : W32 := BitVec.ofNat 32 (fieldAt r 16 4)
  let x := s.pos.hal.at h
  let secs := (List.range 6).map fun k => hallSector c (k + 1)
  let anew := bit c 31 && !bit x.cfg 31
  let first := if hallLegal x.lines then some (hallSector c x.lines.toNat) else none
  .next (runJob 0x1022 r s
    (guardSt (posForm r 12 3 2 && secs.all (fun k => decide (k ≤ 5)) && decide secs.Nodup && fld c 4 0 == 0) stRange
      (guardSt (c == x.cfg || rwaState s) stState
        (ok (updHal (match anew, first with | true, some k => hallCentre s h k | _, _ => s) h fun x =>
          { x with cfg := c, sector := if anew then first else x.sector, fine := x.fine && !anew })))))

/-- Records of CFG_POS OBS in their ranges (R318, R330). -/
def obsRecOk (s : State) (o : Nat) (a b : W64) (wb : W32) : Bool :=
  let f := obsFallback a
  decide (obsSrc a ≤ 7) && decide (1 ≤ obsEpp a) && decide (obsEpp a ≤ 64) && ((decide (f ≤ 3) && f != o) || f == 15)
    && decide (10 ≤ obsBw a) && decide (obsBw a ≤ 5000) && trigOk (obsLtrig a) && fld a 23 18 == 0 && fld b 15 0 == 0
    && (match f32Rat wb with | some q => decide (1 ≤ q) && decide (q ≤ 10000) | none => false)
    && !(decide (obsSrc a < 2) && decide (fld (s.pos.rsv.at (obsSrc a)).cfg 62 48 < 5 * obsBw a))

/-- An observer with new records: enabling it, or a new source, starts it anew (R321); OFFSET takes the record's value when
the RWA field is written (R323). -/
def Obs.adopt (x : Obs) (a b : W64) (wb : W32) : Obs :=
  let anew := bit a 63 && (!x.en || obsSrc a != obsSrc x.cfgA)
  let off := !bit a 63
  { x with cfgA := a, cfgB := b, wb := wb,
           offset := if anew || off || obsOffset a != obsOffset x.cfgA then obsOffset a else x.offset,
           aligned := x.aligned && !anew && !off, fresh := x.fresh || anew || off, mcount := if anew || off then 0 else x.mcount,
           valid := x.valid && !anew && !off, abs := x.abs && !anew && !off, meas := if anew || off then none else x.meas,
           trkBad := x.trkBad && !anew && !off, trkGood := if anew || off then 0 else x.trkGood, healthy := x.healthy && !anew && !off,
           fallbk := if off then none else x.fallbk }

/-- The records of an observer written (R316, R321, R324, R330): one that starts anew on a Hall set of known sector starts at its
centre; a required one that stops being VALID is lost, and the machines it serves take ASC (R417). -/
def setObs (s : State) (o : Nat) (a b : W64) (wb : W32) : State :=
  let x := s.pos.obs.at o
  let s' := updObs s o fun x => x.adopt a b wb
  let s' := if bit a 63 && (!x.en || obsSrc a != obsSrc x.cfgA) && decide (6 ≤ obsSrc a) then
      match (s.pos.hal.at (obsSrc a - 6)).sector with
      | some k => if srcHealthy s a then updObs s' o fun x => x.centre k else s'
      | none => s'
    else s'
  let s' := if x.valid && !(s'.pos.obs.at o).valid && required s o then obsLost s' o else s'
  if x.valid && !(s'.pos.obs.at o).valid then choosePattern s' o else s'

/-- CFG_POS OBS (R257, R297, R318, R330): BW is RW, the rest RWA. -/
def execCfgPosObs (r : Req) (s : State) : Host.Outcome State Fault Refusal :=
  let o := fieldAt r 9 1
  let a : W64 := BitVec.ofNat 64 (fieldAt r 16 8)
  let b : W64 := BitVec.ofNat 64 (fieldAt r 24 8)
  let wb : W32 := BitVec.ofNat 32 (fieldAt r 32 4)
  let x := s.pos.obs.at o
  let s' := updObs s o fun x => x.adopt a b wb
  .next (runJob 0x1022 r s
    (guardSt (posForm r 28 4 4 && obsRecOk s o a b wb && slotsOk s' && basesOk s'.pos.obs.toList (ctxBases s)) stRange
      (guardSt ((sameOutside 0x0000_FFFF_0000_0000 a x.cfgA && b == x.cfgB && wb == x.wb) || rwaState s) stState (ok (setObs s o a b wb)))))

/-- CFG_POS PLA (R325, R331). -/
def execCfgPosPla (r : Req) (s : State) : Host.Outcome State Fault Refusal :=
  let p := fieldAt r 9 1
  let c : W64 := BitVec.ofNat 64 (fieldAt r 16 8)
  let x := s.pos.pla.at p
  .next (runJob 0x1022 r s
    (guardSt (posForm r 16 5 2 && fld c 62 61 != fld c 60 59 && decide (1 ≤ fld c 22 15) && fld c 14 0 == 0) stRange
      (guardSt (c == x.cfg || rwaState s) stState
        (ok { s with pos := { s.pos with pla := s.pos.pla.put p (if c == x.cfg then x else { cfg := c }) } }))))

/-- ENC_STAT or the Hall status word with W1C bits cleared, a bit of the mask over an RO field having no effect (R8); ILLEGAL and
IDXERR take their counts with them (R333). -/
def encClear (st m : W32) : W32 :=
  let v := w1c st (m &&& 0x0000_001E)
  let v := if bit m 1 then setFld v 31 24 0 else v
  if bit m 2 then setFld v 23 16 0 else v

/-- CFG_POS STATUS_CLR (R8, R12, R332, R333): a bit of the mask over a reserved field is refused, one over an RO field has no
effect. An observer's mask addresses POS_OSTAT with the flag byte in its low bits (log entry 70). -/
def execCfgPosStatusClr (r : Req) (s : State) : Host.Outcome State Fault Refusal :=
  let u := fieldAt r 9 1
  let k := fieldAt r 10 1
  let m : W32 := BitVec.ofNat 32 (fieldAt r 12 4)
  let fits := (k == 0 && decide (u < 4) && m &&& 0xFFFC_0000 == 0) || (k == 1 && decide (u < 4) && m &&& 0x0000_FE01 == 0)
    || (k == 2 && decide (u < 2) && m &&& 0x00FF_FFFD == 0)
  .next (runJob 0x1022 r s
    (guardSt (opForm r 8 6 && fits && zeroAt r 11 1) stRange
      (ok (if k = 0 then updObs s u fun o => { o with sat := o.sat && !bit m 2, plaus := o.plaus && !bit m 1, track := o.track && !bit m 0 }
        else if k = 1 then updEnc s u fun x => { x with stat := encClear x.stat m }
        else updHal s u fun x => { x with stat := encClear x.stat m }))))

/-- PRT_CTL within its ranges (R257, R439). -/
def prtCtlOk (s : State) (c : W64) : Bool :=
  fld c 23 0 == 0 && decide (fld c 31 24 ≤ fld c 47 32) && slotsOk (updPrt s fun p => { p with ctl := c })

/-- PRT_CTL applied: AUXON = 1 releases a desaturation of GD15 (R434); REGEN_LIM is published at its entry (R431); a new
ASC_SPD reaches Blackthorn (R477). -/
def setPrtCtl (s : State) (c : W64) : State :=
  let moves := bit c 58 != bit s.prt.ctl 58 && s.prt.chAct
  let s := updPrt (noteUnits s) fun p => { p with ctl := c, chMoved := if moves then some (fineNow s) else p.chMoved }
  let s := if bit c 57 then updGdv s 15 fun g => { g with stat := setBit g.stat 0 false, offHold := g.offHold && g.silent }.blocked else s
  let lim (l : Limits) : Limits := { l with ascSpd := fld c 47 32 }
  publishRegen { s with saf := { s.saf with blkLim := lim s.saf.blkLim, icsLim := lim s.saf.icsLim } }

/-- CFG_PRT CTL (R434, R436, R439, R445, R477): AUXON is RW and ASC_SPD TO. `intact` says that Blackthorn's echo matched;
without it nothing changes and 0x3050 is recorded. -/
def execCfgPrtCtl (r : Req) (intact : Bool) (s : State) : Host.Outcome State Fault Refusal :=
  let c : W64 := BitVec.ofNat 64 (fieldAt r 16 8)
  let old := s.prt.ctl
  .next (runJob 0x1025 r s
    (guardSt (prtForm s r 16 0 && prtCtlOk s c) stRange
      (guardSt (sameOutside 0x0200_FFFF_0000_0000 c old || rwaState s) stState
        (guardSt (decide (fld c 47 32 ≤ fld old 47 32)) stTighten
          (guardSt (s.prt.dis == .idle) stBusy
            (if fld c 47 32 != fld old 47 32 && !intact then .done (record s 0x3050 noUnit 0) stFailed []
             else ok (setPrtCtl s c)))))))

end Sys2Proof.Machine
end

