-- ==== Sys2Proof/Machine/Blackthorn.lean ====
section
/-! DEFINITION. Blackthorn (chapter 13): its input pairs, speed counters, comparators, the question-and-answer watchdog and the
reference-clock check, with the two checks that Icsis makes on speed. -/

namespace Sys2Proof.Machine

/-- The Blackthorn island is powered: from ts on (R37, R102). -/
def blkUp (s : State) : Bool := decide (2 ≤ s.sup.stage)

/-- Blackthorn changed: a machine, a pair, a comparator. -/
def updSaf (s : State) (f : Safety → Safety) : State := { s with saf := f s.saf }
def updMach (s : State) (m : Nat) (f : BlkMach → BlkMach) : State := updSaf s fun b => { b with mach := b.mach.upd m f }
def updPair (s : State) (p : Nat) (f : PairIn → PairIn) : State := updSaf s fun b => { b with pairs := b.pairs.upd p f }

/-- Bits of a list of flags, flag 0 at bit 0. -/
def bitsOf (l : List Bool) : Nat := l.foldr (fun b a => b2n b + 2 * a) 0

/-- A valid SACK_N pulse is held: it has ended within the last 10 s (R479). -/
def sackHeld (s : State) : Bool := match s.saf.sackAt with | some p => decide (s.clk.tb ≤ p.2 + 40000000000) | none => false

/-- BLK_STAT (R482). -/
def blkStat (s : State) : W32 :=
  BitVec.ofNat 32 (s.saf.errcnt * 2 ^ 29 + level s 1 * 2 ^ 27 + level s 0 * 2 ^ 25 + b2n (s.saf.mach.at 1).asc * 2 ^ 24
    + b2n (s.saf.mach.at 0).asc * 2 ^ 23 + bitsOf ((List.range 4).map fun i => pairFn s i != 0 && (s.saf.pairs.at i).demand) * 2 ^ 19
    + bitsOf (s.saf.pairs.toList.map PairIn.fault) * 2 ^ 15 + b2n ((s.saf.mach.at 0).slsOn || (s.saf.mach.at 1).slsOn) * 2 ^ 14
    + b2n (sackHeld s) * 2 ^ 13 + b2n s.saf.clkf * 2 ^ 12 + s.saf.viol.toNat * 2 ^ 8 + s.saf.bkct.toNat)

/-- A fault record of the safety channel (R82, R483). -/
def recBlk (s : State) (unit : Nat) (code : W16) : State := record s code unit (blkStat s)

/-- A step of Blackthorn: a level that falls from Enabled for a machine in use, in ARMED or RUNNING, is an event (R450). -/
def blkStep (s s' : State) : State :=
  if driving s.drv.st then
    match (List.range 2).find? fun m => inUse s' m && level s m == 0 && level s' m != 0 with
    | some m => arrive s' .trip ((stoCause s' m).getD 0)
    | none => s'
  else s'

/-- A violation or trip seen with its present truth (R448, R449): what is seen while RUN is high is latched. -/
def Cause.see (c : Cause) (viol run : Bool) : Cause :=
  { present := viol, held := c.held || viol, latched := c.latched || (viol && run) }

/-- A release request on a latch (R449, R478). -/
def Cause.release (c : Cause) : Cause := { c with held := c.present, latched := false }

/-- Some pair of a function demands. -/
def fnDemands (s : State) (fn : Nat) : Bool := (List.range 4).any fun i => pairFn s i == fn && (s.saf.pairs.at i).demand

/-- DISC and TSLS (R473). -/
def tsls (s : State) : Nat := fld (sfWord s 7) 15 8

/-- The functions SDI and SLP start from the present count where they become active (R463). -/
def BlkMach.activate (x : BlkMach) (fwd rvs slp : Bool) : BlkMach :=
  { x with sdiHigh := if fwd then x.count else x.sdiHigh, sdiLow := if rvs then x.count else x.sdiLow,
           slpAt := if slp then x.count else x.slpAt }

/-- A pair after a channel has accepted a level (R454, R456). -/
def PairIn.accept (p : PairIn) (chanB demand : Bool) (tb : Nat) : PairIn :=
  let p := if chanB then { p with demB := demand } else { p with demA := demand }
  let dem := (p.demA || p.demB) && (p.demand || demand)
  { p with demand := dem, since := if dem && !p.demand then tb else p.since,
           bothDem := p.bothDem || (p.fault && p.demA && p.demB),
           cycled := p.cycled || (p.fault && p.bothDem && !p.demA && !p.demB) }

/-- Whether a channel of pair `p` at `mv` millivolts demands the safe state (R452, R678): channel A at the low level; channel B
at the low level, or at the high level with the pair's ANTI bit; between 5.0 V and 11.0 V (an open wire) either demands. -/
def inputDemands (s : State) (p : Nat) (chanB : Bool) (mv : Nat) : Bool :=
  (decide (5000 < mv) && decide (mv < 11000)) ||
    (if chanB && bit (sfWord s 0) (16 + p) then decide (11000 ≤ mv) else decide (mv ≤ 5000))

/-- SAFETY_INPUT_CHANGE (R453 to R456, R461, R463): a level accepted after its filter. -/
def execSafetyInputChange (p : Fin 4) (chanB : Bool) (mv : Nat) (s : State) : Host.Outcome State Fault Refusal :=
  let demand := inputDemands s p chanB mv
  let fn := pairFn s p.val
  if fn = 0 || !blkUp s then .next s
  else
    let old := (s.saf.pairs.at p.val).demand
    let s1 := updPair s p.val fun x => x.accept chanB demand s.clk.tb
    let began (f : Nat) : Bool := fn == f && !fnDemands s f && fnDemands s1 f
    let act (x : BlkMach) : BlkMach := x.activate (began 3) (began 4) (began 5)
    let s2 := blkStep s (updMach (updMach s1 0 act) 1 act)
    .next (if fn == 1 && !old && (s1.saf.pairs.at p.val).demand then recBlk s2 p.val 0x3001 else s2)

/-- DISCREPANCY_TIMEOUT (R455, R456): a disagreement has reached DISC. -/
def execDiscrepancyTimeout (p : Fin 4) (s : State) : Host.Outcome State Fault Refusal :=
  let x := s.saf.pairs.at p.val
  if pairFn s p.val = 0 || !blkUp s || x.demA == x.demB then .next s
  else
    let s1 := updPair s p.val fun x => { x with fault := true, bothDem := false, cycled := false, faultAt := s.clk.tb }
    .next (recBlk (blkStep s s1) p.val 0x3002)

/-- The net count with the sense of SDIR (R457). -/
def sensed (s : State) (m : Nat) (v : Int) : Int := if bit (sfWord s (1 + m)) 0 then -v else v

/-- |n| exceeds a limit in rpm: |N| × 120,000 > limit × SCPR (R459). -/
def faster (s : State) (m : Nat) (n : Int) (rpm : Nat) : Bool := decide (rpm * scpr s m < n.natAbs * 120000)

/-- Blackthorn's choice between ASC and freewheel (R458, R460). -/
def BlkMach.choose (x : BlkMach) (num den spd : Nat) : Bool :=
  if !x.known then true else if spd * den ≤ num then true else if num + 16 * den < spd * den then false else x.asc

/-- The fault code of a function with its VIOL bit (R463, R482). -/
def violCodes : List (Nat × W16) := [(3, 0x3014), (2, 0x3011), (1, 0x3012), (0, 0x3013)]

/-- The present causes of a machine in the order of `violCodes`. -/
def BlkMach.presents (x : BlkMach) : List Bool := [x.smax.present, x.sls.present, x.sdi.present, x.slp.present]

/-- A machine after a sample of its speed counter (R459, R460, R463). -/
def sampleMach (s : State) (m : Nat) (net count : Int) : BlkMach :=
  let x := s.saf.mach.at m
  let l := s.saf.blkLim
  let run := runLine s
  let fwd := fnDemands s 3
  let rvs := fnDemands s 4
  let slsOn := (List.range 4).any fun i => pairFn s i == 2 && (s.saf.pairs.at i).demand
    && decide ((s.saf.pairs.at i).since + 40000000 * tsls s ≤ s.clk.tb)
  let high := max x.sdiHigh count
  let low := min x.sdiLow count
  let y := { x with count := count, net := net, known := x.known || decide (x.srcAt + 4000000 ≤ s.clk.tb), slsOn := slsOn,
                    sdiHigh := if fwd then high else x.sdiHigh, sdiLow := if rvs then low else x.sdiLow }
  let y := { y with asc := y.choose (net.natAbs * sepp s m * 2000) (scpr s m) l.ascSpd,
                    sdi := y.sdi.see ((fwd && decide (count + l.dtol.at m < high)) || (rvs && decide (low + l.dtol.at m < count))) run,
                    slp := y.slp.see (fnDemands s 5 && decide ((l.ptol.at m : Int) < |count - y.slpAt|)) run }
  if y.known then
    { y with smax := y.smax.see (faster s m net (l.smax.at m)) run, sls := y.sls.see (slsOn && faster s m net (l.slsl.at m)) run }
  else y

/-- SPEED_COUNTER_SAMPLE (R457, R459, R460, R463): every 100 µs; each violation that arises writes its record. -/
def execSpeedCounterSample (m : Fin 2) (net count : Int) (s : State) : Host.Outcome State Fault Refusal :=
  if spdSrc s m.val = 6 || !blkUp s then .next s
  else
    let old := (s.saf.mach.at m.val).presents
    let s1 := updMach s m.val fun _ => sampleMach s m.val (sensed s m.val net) (sensed s m.val count)
    let new := (s1.saf.mach.at m.val).presents
    let rose := (violCodes.zip (old.zip new)).filter fun p => !p.2.1 && p.2.2
    let s2 := updSaf s1 fun b => { b with viol := rose.foldl (fun v p => setBit v p.1.1 true) b.viol }
    .next (rose.foldl (fun s p => recBlk s m.val p.1.2) (blkStep s s2))

/-- SPEED_SOURCE_ILLEGAL (R458): the speed is unknown, and the machine goes to Safe torque off until acknowledged. -/
def execSpeedSourceIllegal (m : Fin 2) (s : State) : Host.Outcome State Fault Refusal :=
  if spdSrc s m.val = 6 || !blkUp s then .next s
  else
    let s1 := updMach s m.val fun x => { x with known := false, srcLatch := true, srcAt := s.clk.tb, asc := true }
    .next (recBlk (blkStep s s1) m.val 0x3043)

/-- The speed of an observer in rpm times 131,072 × SEPP (R459), with its base. -/
def obsRpm (s : State) (m : Nat) : Rat :=
  let o := s.pos.obs.at (monObs s m)
  (o.w : Rat) / 131072 * o.base * 60 / (max 1 (sepp s m) : Nat)

/-- SPEED_CROSS_CHECK (R459): ten failing comparisons in a row latch 0x3044; a check without a comparison changes nothing. -/
def execSpeedCrossCheck (m : Fin 2) (s : State) : Host.Outcome State Fault Refusal :=
  let x := s.saf.mach.at m.val
  if spdSrc s m.val = 6 || !x.known || !(s.pos.obs.at (monObs s m.val)).valid || !fromStandbyOn s.drv.st then .next s
  else
    let n : Rat := (x.net : Rat) * 120000 / (max 1 (scpr s m.val) : Nat)
    let bad := decide ((s.saf.icsLim.smax.at m.val : Rat) / 20 < |n - obsRpm s m.val|)
    let s1 := updMach s m.val fun x => { x with xchk := if bad then satInc 10 x.xchk else 0 }
    .next (if bad && x.xchk == 9 then recBlk s1 m.val 0x3044 else s1)

/-- The observer's speed lies above SMAX (R474). -/
def obsOverSpeed (s : State) (m : Nat) : Bool := decide ((s.saf.icsLim.smax.at m : Rat) < |obsRpm s m|)

/-- SMAX_SOFTWARE_CHECK (R474): for a machine without a speed counter Icsis raises the STO request line. -/
def execSmaxSoftwareCheck (m : Fin 2) (s : State) : Host.Outcome State Fault Refusal :=
  if spdSrc s m.val != 6 || !fromStandbyOn s.drv.st then .next s
  else if (obsOverSpeed s m.val || (runLine s && !(s.pos.obs.at (monObs s m.val)).valid)) && !(s.saf.mach.at m.val).swHold then
    .next (recBlk (blkStep s (updMach s m.val fun x => { x with swHold := true })) m.val 0x3014)
  else .next s

/-- BLACKTHORN_COMPARATOR_TRIP (R465): a comparator in use has lain outside its window for BFILT, or lies inside again. -/
def execBlackthornComparatorTrip (n : Fin 8) (level : Nat) (s : State) : Host.Outcome State Fault Refusal :=
  let out := decide (s.saf.blkLim.bhi.at n.val < level) || decide (level < s.saf.blkLim.blo.at n.val)
  if fld (sfWord s (11 + n.val)) 7 6 = 0 || !blkUp s then .next s
  else
    let was := (s.saf.comps.at n.val).present
    let s1 := updSaf s fun b =>
      { b with comps := b.comps.upd n.val fun c => c.see out (runLine s), bkct := if out then setBit b.bkct n.val true else b.bkct }
    let s2 := blkStep s s1
    .next (if out && !was then recBlk s2 n.val 0x3045 else s2)

/-- A latch seen while RUN was low clears by itself (R449). -/
def Cause.selfClear (c : Cause) : Cause := if c.present || c.latched then c else { c with held := false }

/-- LATCH_SELF_CLEAR (R449): the cause has been absent for 100 ms. -/
def execLatchSelfClear (m : Fin 2) (cause : BlkCause) (s : State) : Host.Outcome State Fault Refusal :=
  match cause with
  | .smax => .next (updMach s m.val fun x => { x with smax := x.smax.selfClear })
  | .sls => .next (updMach s m.val fun x => { x with sls := x.sls.selfClear })
  | .sdi => .next (updMach s m.val fun x => { x with sdi := x.sdi.selfClear })
  | .slp => .next (updMach s m.val fun x => { x with slp := x.slp.selfClear })
  | .comp n => .next (updSaf s fun b => { b with comps := b.comps.upd n.val Cause.selfClear })

/-- QA_QUESTION (R471): a question every 1 ms after the start request. -/
def execQaQuestion (q : Byte) (s : State) : Host.Outcome State Fault Refusal :=
  if s.saf.qaStarted then .next (updSaf s fun b => { b with question := some q }) else .next s

/-- ERRCNT after a correct answer (R448, R471). -/
def qaRight (s : State) : State :=
  updSaf s fun b => { b with question := none, errcnt := b.errcnt - 1, closedStart := b.closedStart && b.errcnt - 1 != 0 }

/-- ERRCNT after a wrong, early, late or missing answer: a record at each rise, and 0x3041 where it reaches 6 (R471). -/
def qaWrong (s : State) : State :=
  let e := s.saf.errcnt
  let s1 := updSaf s fun b => { b with question := none, errcnt := min 7 (b.errcnt + 2) }
  let s2 := blkStep s s1
  let s3 := if e < min 7 (e + 2) then recBlk s2 noUnit 0x3040 else s2
  if 6 ≤ s3.saf.errcnt && s3.saf.qaLim.isNone then
    recBlk (updSaf s3 fun b => { b with qaLim := some s.clk.tb }) noUnit 0x3041
  else s3

/-- QA_ANSWER (R471): the four words in order against Blackthorn's table, and the last one's instant in CLK_BLK cycles. -/
def execQaAnswer (words : List W32) (cycles : Nat) (s : State) : Host.Outcome State Fault Refusal :=
  match s.saf.question with
  | none => .next s
  | some q =>
    if words == Config.qaTable q && decide (20000 ≤ cycles) && decide (cycles ≤ 45000) then .next (qaRight s) else .next (qaWrong s)

/-- QA_WINDOW_EXPIRY (R471): no answer within the window. -/
def execQaWindowExpiry (s : State) : Host.Outcome State Fault Refusal :=
  if s.saf.question.isSome then .next (qaWrong s) else .next s

/-- Instants of the Blackthorn latches held until acknowledged (R448, R471). -/
def blkLatches (s : State) : List Nat :=
  (s.saf.pairs.toList.filter PairIn.fault).map PairIn.faultAt ++ (s.saf.mach.toList.filter BlkMach.srcLatch).map BlkMach.srcAt
    ++ (if s.saf.clkf then [s.saf.clkfAt] else []) ++ s.saf.qaLim.toList

/-- SACK_PULSE (R479, R480): a pulse of 20 ms to 2 s that ends while a latch is held. -/
def execSackPulse (ms : Nat) (s : State) : Host.Outcome State Fault Refusal :=
  if 20 ≤ ms && ms ≤ 2000 && blkUp s && !(blkLatches s).isEmpty then
    .next (updSaf s fun b => { b with sackAt := some (ms, s.clk.tb) })
  else .next s

/-- REFERENCE_CLOCK_WINDOW (R37): fewer than 20 or more than 30 edges latch Safe torque off; the record comes in COPPICE,
STANDBY or later. -/
def execReferenceClockWindow (edges : Nat) (s : State) : Host.Outcome State Fault Refusal :=
  if !blkUp s then .next s
  else
    let out := decide (edges < 20) || decide (30 < edges)
    let s1 := updSaf s fun b => { b with refOut := out }
    if !out || s.saf.clkf then .next s1
    else
      let seen := fromStandbyOn s.drv.st || s.drv.st == .coppice
      let s2 := blkStep s (updSaf s1 fun b => { b with clkf := true, clkfAt := s.clk.tb, clkfPend := !seen })
      .next (if seen then recBlk s2 noUnit 0x3042 else s2)

end Sys2Proof.Machine
end

