-- ==== Sys2Proof/Machine/SafetyCmds.lean ====
section
/-! DEFINITION. The safety commands (R462, R475 to R481) and CFG_LIMIT. -/

namespace Sys2Proof.Machine

/-- SAF_STOP (R79, R96, R462): a higher event takes the module to FAULT; one of equal rank takes it to SAFE_STOP, where the
command changes nothing. -/
def execSafStop (r : Req) (s : State) : Host.Outcome State Fault Refusal :=
  let check : Option (W16 × List Byte) := if formOk r 0 then none else some (stRange, [])
  if s.drv.st == .safeStop || s.drv.st == .fault then
    .next (runJob 0x4001 r s (guardSt (formOk r 0) stRange (ok s)))
  else match winner s.drv.st (s.drv.events ++ persistent s) with
    | some (m, e) =>
      if jobRuns s 0x4001 r && check == none && m == .safeStop && 3 ≤ rank e.kind then
        .next (complete (evaluate s) 0x4001 r stOk [])
      else if jobRuns s 0x4001 r && check == none && rank e.kind < 3 then
        .next (runStateJob 0x4001 r { s with drv := { s.drv with events := [] } } .safeStop check id)
      else .next (runStateJob 0x4001 r s .safeStop check id)
    | none => .next (runStateJob 0x4001 r s .safeStop check id)

/-- A code as the two RESULT bytes 0 to 1. -/
def codeBytes (c : W16) : List Byte := leBytes 2 c.toNat

/-- Condition 3 of SAF_RELEASE for one machine (R474, R478). -/
def speedCond (s : State) (m : Nat) : Option W16 :=
  let x := s.saf.mach.at m
  if spdSrc s m = 6 then
    (if (s.pos.obs.at (monObs s m)).valid && !obsOverSpeed s m then none else some 0x3014)
  else if !x.known || faster s m x.net (s.saf.blkLim.smax.at m) then some 0x3014
  else if x.slsOn && faster s m x.net (s.saf.blkLim.slsl.at m) then some 0x3011
  else none

/-- Machines of the arrangement. -/
def machines (s : State) : List Nat := if s.drv.arrange = 0 then [0, 1] else [0]

/-- A Blackthorn comparator in use lies outside its window. -/
def compOut (s : State) : Bool := (List.range 8).any fun n => (s.saf.comps.at n).present && (bact s n 0 || bact s n 1)

/-- The first condition of R478 and then of R423 that is not met. -/
def releaseUnmet (s : State) : Option W16 :=
  if stoDemand s then some 0x3001
  else if s.saf.errcnt != 0 then some 0x3040
  else match (machines s).findSome? (speedCond s) with
    | some c => some c
    | none =>
      if compOut s then some 0x3045
      else if bit s.thm.stat 26 then some 0x9014
      else if bit s.thm.stat 25 then some 0x9013
      else if phaseTrip s then some 0x2001
      else if (List.range 2).any (fun m => pat s m == 2) then some 0x2013
      else if ovt s != 0 && decide (ovt s < s.prt.dcsns) then some 0x2010
      else if decide (s.prt.dcsns < uvt s) then some 0x2011
      else none

/-- Blackthorn's latches under a release request (R449, R478): SDI and SLP restart from the present count. -/
def BlkMach.release (x : BlkMach) : BlkMach :=
  { x with smax := x.smax.release, sls := x.sls.release, sdi := {}, slp := {}, swHold := false,
           sdiHigh := x.count, sdiLow := x.count, slpAt := x.count }

/-- A release at Blackthorn, with the STO request line lowered (R450, R478). -/
def blkRelease (s : State) (dst : Mode) : State :=
  let s := updSaf s fun b => { b with mach := b.mach.map BlkMach.release, comps := b.comps.map Cause.release,
                                      stoRestart := false, stoEscal := false }
  { s with drv := { s.drv with st := dst } }

/-- The cause that Blackthorn still holds after a release request (R478). -/
def stillHeld (s : State) (dst : Mode) : Option W16 :=
  let t := blkRelease s dst
  ((List.range 2).find? fun m => inUse t m && level t m != 0).map fun m => (stoCause t m).getD 0

/-- Every context of the committed configuration is in service, and its image is not marked invalid (R97, R519). -/
def inService (s : State) : Bool := s.drv.committed && !s.thk.activeBad && (placed s).all fun i => !(ctxAt s i.num).lost

/-- What an applied SAF_RELEASE does beside the change of state (R419, R423, R449, R478). -/
def applyRelease (s : State) : State :=
  let st := s.drv.st
  let s := blkRelease s st
  let s := updPrt s fun p => { p with flags := setFld p.flags 14 8 0 }
  let s := (List.range 12).foldl (fun s ch => updGdv s ch fun g => { g with stat := setBit g.stat 0 false }.blocked) s
  (List.range 6).foldl (fun s u => updUnit s u fun x => { x with legHold := false }) (noteUnits s)

/-- SAF_RELEASE (R97, R423, R478): Blackthorn's answer is its own rules' (a request it leaves unanswered is
BLACKTHORN_RELEASE_TIMEOUT). -/
def execSafRelease (r : Req) (s : State) : Host.Outcome State Fault Refusal :=
  let dst : Mode := if inService s then .configured else .standby
  let check : Option (W16 × List Byte) :=
    if !formOk r 0 then some (stRange, [])
    else match releaseUnmet s with
      | some c => some (stFailed, codeBytes c)
      | none => (stillHeld s dst).map fun c => (stFailed, codeBytes c)
  .next (runStateJob 0x4002 r s dst check applyRelease)

/-- BLACKTHORN_RELEASE_TIMEOUT (R478): Blackthorn has not answered within 1 ms. -/
def execBlackthornReleaseTimeout (r : Req) (s : State) : Host.Outcome State Fault Refusal :=
  .next (runJob 0x4002 r s
    (guardSt (formOk r 0) stRange
      (match releaseUnmet s with
        | some c => .done s stFailed (codeBytes c)
        | none => .done s stFailed (codeBytes 0))))

/-- The SACK_N pulse covers a latch set at an instant: it began after it (R479, R480). -/
def sackCovers (s : State) (t : Nat) : Bool :=
  sackHeld s && match s.saf.sackAt with | some p => decide (t + 4000000 * p.1 ≤ p.2) | none => false

/-- A latched fault meets its condition (R479). `pass` is the repetition of the test of R481. -/
def ackMet (s : State) (pass : Bool) (c : W16) : Bool :=
  if c = 0x2002 then !phaseTrip s
  else if c = 0x3002 then s.saf.pairs.toList.all fun p => !p.fault || (p.cycled && sackCovers s p.faultAt)
  else if c = 0x3041 then decide (s.saf.errcnt < 6) && s.saf.qaLim.toList.all (sackCovers s)
  else if c = 0x3042 then !s.saf.refOut && sackCovers s s.saf.clkfAt
  else if c = 0x3043 then s.saf.mach.toList.all fun x => !x.srcLatch || (x.known && sackCovers s x.srcAt)
  else if c = 0x3044 then s.saf.mach.toList.all fun x => x.xchk == 0
  else if c = 0x3051 then pass
  else if c = 0x9021 then !bit s.sup.railOut 1
  else if c = 0x9022 then !bit s.sup.railOut 3
  else if c = 0x9029 then s.sup.badRef == 0
  else !s.icp.dead

/-- Blackthorn's latches cleared by an applied acknowledgement (R479). -/
def blkAck (b : Safety) : Safety :=
  { b with pairs := b.pairs.map fun p => { p with fault := false, bothDem := false, cycled := false },
           mach := b.mach.map fun x => { x with srcLatch := false }, clkf := false, qaLim := none, sackAt := none }

/-- SAF_ACK (R479, R507): in SAFE_STOP it clears W1C bits; in FAULT it enters SAFE_STOP when every latched fault meets its
condition. `chPass` and `cmpPass` are the masks of the repeated test. -/
def execSafAck (r : Req) (chPass : BitVec 16) (cmpPass : Byte) (s : State) : Host.Outcome State Fault Refusal :=
  let pass := chPass == 0xFFFF && cmpPass == 0xFF
  if s.drv.st == .safeStop then
    .next (runJob 0x4003 r s
      (guardSt (formOk r 0) stRange
        (ok { s with saf := { s.saf with viol := 0, bkct := 0 }, icp := { s.icp with sigdif := false } })))
  else
    let check : Option (W16 × List Byte) :=
      if !formOk r 0 then some (stRange, [])
      else (s.io.latched.find? fun c => !ackMet s pass c).map fun c => (stFailed, codeBytes c)
    .next (runStateJob 0x4003 r s .safeStop check fun s => { s with saf := blkAck s.saf, io := { s.io with latched := [] } })

/-- SAF_TEST (R481, R502): the pass masks; a failure latches 0x3051. -/
def execSafTest (r : Req) (chPass : BitVec 16) (cmpPass : Byte) (s : State) : Host.Outcome State Fault Refusal :=
  let result := leBytes 2 chPass.toNat ++ [cmpPass]
  .next (runJob 0x4004 r s
    (guardSt (formOk r 0) stRange
      (guardSt (!s.icp.split) stBusy
        (if chPass == 0xFFFF && cmpPass == 0xFF then .done s stOk result
         else .done (recBlk s noUnit 0x3051) stFailed result))))

/-- CFG_LIMIT's fields that WHAT does not select are 0, MACH and BKC name what it selects, and every selected value lies in
its range (R475). -/
def limitForm (r : Req) : Bool :=
  let w := fieldAt r 8 1
  let used (i o : Nat) : Bool := w.testBit i || fieldAt r o 2 == 0
  decide (w < 64) && (if w % 16 != 0 then decide (fieldAt r 9 1 ≤ 1) else fieldAt r 9 1 == 0)
    && (if w.testBit 5 then decide (fieldAt r 10 1 ≤ 7) else fieldAt r 10 1 == 0) && zeroAt r 11 1
    && used 0 12 && used 1 14 && used 2 16 && used 3 18 && used 4 20 && used 5 22 && used 5 24 && zeroAt r 26 2
    && !(w.testBit 0 && fieldAt r 12 2 == 0) && decide (fieldAt r 16 2 ≤ 4095)
    && !(w.testBit 5 && (decide (1023 < fieldAt r 22 2) || decide (1023 < fieldAt r 24 2) || decide (fieldAt r 22 2 ≤ fieldAt r 24 2)))

/-- CFG_LIMIT only tightens a copy of the limits (R8, R475). -/
def limitTight (r : Req) (l : Limits) : Bool :=
  let w := fieldAt r 8 1
  let m := fieldAt r 9 1
  let k := fieldAt r 10 1
  let low (i o v : Nat) : Bool := !w.testBit i || decide (fieldAt r o 2 ≤ v)
  low 0 12 (l.smax.at m) && low 1 14 (l.slsl.at m) && low 2 16 (l.dtol.at m) && low 3 18 (l.ptol.at m) && low 4 20 l.tmtol
    && low 5 22 (l.bhi.at k) && (!w.testBit 5 || decide (l.blo.at k ≤ fieldAt r 24 2))

/-- A copy of the limits with the selected fields. -/
def limitSet (r : Req) (l : Limits) : Limits :=
  let w := fieldAt r 8 1
  let m := fieldAt r 9 1
  let k := fieldAt r 10 1
  let put {n : Nat} (i o at_ : Nat) (t : Tab n Nat) : Tab n Nat := if w.testBit i then t.put at_ (fieldAt r o 2) else t
  { l with smax := put 0 12 m l.smax, slsl := put 1 14 m l.slsl, dtol := put 2 16 m l.dtol, ptol := put 3 18 m l.ptol,
           tmtol := if w.testBit 4 then fieldAt r 20 2 else l.tmtol, bhi := put 5 22 k l.bhi, blo := put 5 24 k l.blo }

/-- CFG_LIMIT (R475, R476). `intact` says that the forwarded command arrived whole; Blackthorn refuses it otherwise, or where
its own copy would be loosened. -/
def execCfgLimit (r : Req) (intact : Bool) (s : State) : Host.Outcome State Fault Refusal :=
  .next (runJob 0x1040 r s
    (guardSt (formOk r 20 && limitForm r) stRange
      (guardSt (limitTight r s.saf.icsLim) stTighten
        (if intact && limitTight r s.saf.blkLim then
          ok (updSaf s fun b => { b with blkLim := limitSet r b.blkLim, icsLim := limitSet r b.icsLim })
         else .done (recBlk s noUnit 0x3050) stFailed []))))

end Sys2Proof.Machine
end

