-- ==== Sys2Proof/Machine/Demand.lean ====
section
/-! DEFINITION. The demand stage's commands and the stop ramp (R108 to R110, R230 to R239, R246). -/

namespace Sys2Proof.Machine

/-- Contexts of the committed image that hold a current loop (chapter 06). -/
def currentCtxs (s : State) : List CtxImg := (placed s).filter fun i => i.laws.any fun l => isCurrent l.kind

/-- Every DMD's ramped torque reference is 0 (R109, R469). -/
def rampZero (s : State) : Bool :=
  (placed s).all fun i => (i.laws.zip (lawRuns s i)).all fun p => p.1.kind != .dmd || p.2.rT == 0

/-- Torque has reached zero (R109): the references are 0, and every current-loop context has since completed with a torque
reference of 0. -/
def torqueZero (s : State) : Bool := rampZero s && (currentCtxs s).all fun i => (ctxAt s i.num).zeroDone

/-- A stop ramp of `ms` begins (R109, R469, R533): the current loops are to show a zero reference anew. -/
def startRamp (s : State) (k : RampKind) (ms : Nat) : State :=
  let s := { s with drv := { s.drv with ramp := some { kind := k, ms := ms, startAt := s.clk.tb, endsAt := s.clk.tb + 4000000 * ms } } }
  (currentCtxs s).foldl (fun s i => updCtx s i.num fun x => { x with zeroDone := false }) s

/-- A further ramp takes effect only if it would end earlier; a thermal stop keeps or shortens the ramp and its end leads to
CONFIGURED (R109, R533). -/
def askRamp (s : State) (k : RampKind) (ms : Nat) : State :=
  match s.drv.ramp with
  | none => startRamp s k ms
  | some r =>
    let kind := if r.kind == .monitor then .monitor else if k == .thermal then .thermal else r.kind
    let ends := s.clk.tb + 4000000 * ms
    if ends < r.endsAt then
      { s with drv := { s.drv with ramp := some { kind := kind, ms := ms, startAt := s.clk.tb, endsAt := ends } } }
    else { s with drv := { s.drv with ramp := some { r with kind := kind } } }

/-- Stages 1 to 3 of a catch. -/
def Catch.early (c : Catch) : Bool := decide (1 ≤ c.stage) && decide (c.stage ≤ 3)

/-- Some machine's catch is in its stages 1 to 3. -/
def catchEarly (s : State) : Bool := s.dmd.catch_.toList.any Catch.early

/-- A stop asked for during stages 1 to 3 of a catch waits for the end of the stage (R246). -/
def stopCatch (thermal : Bool) (c : Catch) : Catch :=
  if c.early then { c with stop := true, stopThermal := c.stopThermal || thermal } else c

/-- A stop as CTL_STOP asks for it (R109, R246): a machine in stages 1 to 3 completes the stage in progress, with zero torque and without a
ramp; the stop ramp begins where a machine is past them. -/
def askStop (s : State) (k : RampKind) (ms : Nat) : State :=
  let ramps := !catchEarly s || (List.range 2).any fun m => inUse s m && !(s.dmd.catch_.at m).early
  let s := if ramps then askRamp s k ms else s
  { s with dmd := { s.dmd with catch_ := s.dmd.catch_.map (stopCatch (k == .thermal)) } }

/-- CTL_STOP (R108, R109, R246). -/
def execCtlStop (r : Req) (s : State) : Host.Outcome State Fault Refusal :=
  let t := fieldAt r 8 2
  .next (runJob 0x2004 r s
    (guardSt (formOk r 2) stRange (ok (askStop s .command (if t = 0 then s.drv.stopT else t)))))

/-- STOP_RAMP_COMPLETE (R109, R469, R533): torque is zero, for a monitor stop T_DMD; the ramp's kind says where the module goes. A catch in
its stages 1 to 3 completes its stage first (R246). -/
def execStopRampComplete (s : State) : Host.Outcome State Fault Refusal :=
  match s.drv.ramp with
  | none => .next s
  | some r =>
    if s.drv.st != .running || (catchEarly s && r.kind != .monitor) || !(if r.kind == .monitor then rampZero s else torqueZero s) then .next s
    else match r.kind with
      | .command => .next (arrive s .runEnd 0x2004)
      | .thermal => .next (arrive s .thermal 0x9013)
      | .monitor => .next (arrive s .runStop 0x3030)

/-- STOP_OVERDUE (R110): torque has not reached zero 10 ms after the ramp's end. -/
def execStopOverdue (s : State) : Host.Outcome State Fault Refusal :=
  match s.drv.ramp with
  | some r =>
    if s.drv.st == .running && r.kind != .monitor && !torqueZero s && !catchEarly s then .next (arrive (record s 0x3020 noUnit 0) .runStop 0x3020)
    else .next s
  | none => .next s

/-- MONITOR_STOP_TIMEOUT (R469): 10 ms after the monitor stop the drive goes to SAFE_STOP. -/
def execMonitorStopTimeout (s : State) : Host.Outcome State Fault Refusal :=
  match s.drv.ramp with
  | some r =>
    if s.drv.st == .running && r.kind == .monitor then .next (arrive (recBlk s noUnit 0x3031) .runStop 0x3031) else .next s
  | none => .next s

/-- The curve that SRC 1 names may be used with a mode (R231). -/
def curveFits (s : State) (c mode : Nat) : Bool :=
  let x := (s.dmd.pend.at c).getD (s.dmd.curves.at c)
  x.written && x.outkind == (mode == 1)

/-- CTL_MODE (R230 to R232, R611): stored; a DMD law takes it over at its next release, or when the catch has reached stage 5. -/
def execCtlMode (r : Req) (s : State) : Host.Outcome State Fault Refusal :=
  let mode := fieldAt r 8 1
  let src := fieldAt r 9 1
  let arg := fieldAt r 10 1
  let argOk := if src = 0 then decide (arg ≤ 7) else if src = 1 then decide (arg ≤ 3) && curveFits s arg mode else arg == 0 && mode == 0 && bit s.crd.cfg 63 && bit s.crd.cfg 62
  .next (runJob 0x2010 r s
    (guardSt (formOk r 4 && decide (mode ≤ 1) && decide (src ≤ 2) && argOk && zeroAt r 11 1) stRange
      (ok { s with dmd := { s.dmd with mode := mode, src := src, srcArg := arg } })))

/-- A signal word that a context has published (R139, R224). -/
def published (s : State) (c a : Nat) : Int :=
  s18 (memGet (bankOf s.thk (ctxAt s c).region (ctxAt s c).pubBank) a)

/-- The limits that the demand stages latching message word `k` apply now (R92): the published torque limits in torque mode,
−SLIM_R to SLIM_F in speed mode. -/
def setpointLimits (s : State) (k : Nat) : List (Int × Int) :=
  (placed s).flatMap fun i =>
    (i.laws.zip (lawRuns s i)).filterMap fun p =>
      if p.1.kind == .dmd && p.2.src == 0 && p.2.srcArg == k then
        some (if p.2.mode = 1 then (-(s18 (paramAt s i.num 7)), s18 (paramAt s i.num 6))
              else (published s i.num (p.1.sigBase + 3), published s i.num (p.1.sigBase + 2)))
      else none

/-- CTL_SETPOINT (R92, R233): stored as written; ST_CLAMPED where it lies outside those limits. -/
def execCtlSetpoint (r : Req) (s : State) : Host.Outcome State Fault Refusal :=
  let k := fieldAt r 8 1
  match sext18? (fieldAt r 12 4) with
  | none => .next (runJob 0x2011 r s (.refuse stRange))
  | some v =>
    let st := if (setpointLimits s k).any fun l => decide (s18 v < l.1) || decide (l.2 < s18 v) then stClamped else stOk
    .next (runJob 0x2011 r s
      (guardSt (formOk r 8 && decide (k ≤ 7) && zeroAt r 9 3) stRange
        (.done { s with dmd := { s.dmd with msg := s.dmd.msg.put k v } } st [])))

/-- The values of CFG_CURVE at `n` offsets from `o` on, if each is well formed. -/
def curveWords (r : Req) (o n : Nat) : Option (List Int) := (List.range n).mapM fun i => (sext18? (fieldAt r (o + 4 * i) 4)).map s18

/-- A curve's inputs ascend strictly (R239). -/
def ascending : List Int → Bool
  | a :: b :: t => decide (a < b) && ascending (b :: t)
  | _ => true

/-- CFG_CURVE (R237 to R239): the whole curve replaces the old one at DMD's next release. -/
def execCfgCurve (r : Req) (s : State) : Host.Outcome State Fault Refusal :=
  let c := fieldAt r 8 1
  let f := fieldAt r 9 1
  let arg := fieldAt r 10 2
  match curveWords r 12 2, curveWords r 20 33, curveWords r 152 33 with
  | some [on, hyst], some xs, some ys =>
    let cv : Curve := { written := true, insel := f.testBit 0, outkind := f.testBit 1, inarg := arg, on := on, hyst := hyst, xs := xs, ys := ys }
    .next (runJob 0x1026 r s
      (guardSt (formOk r 276 && decide (c ≤ 3) && decide (f < 4) && decide (arg < (if f.testBit 0 then 8 else 512))
          && decide (0 ≤ hyst) && decide (hyst ≤ 65536) && ascending xs && decide (-131072 ≤ on - hyst)) stRange
        (ok { s with dmd := { s.dmd with pend := s.dmd.pend.put c (some cv) } })))
  | _, _, _ => .next (runJob 0x1026 r s (.refuse stRange))

end Sys2Proof.Machine
end

