-- ==== Sys2Proof/Machine/Thermal.lean ====
section
/-! DEFINITION. Temperature and ageing (R527 to R536, R543 to R553). -/

namespace Sys2Proof.Machine

/-- The thermal supervisor changed. -/
def updThm (s : State) (f : Thermal → Thermal) : State := { s with thm := f s.thm }

/-- Zone of a sensor (R528). -/
def zoneOf (n : Nat) : Nat := if n < 16 then n / 4 else if n < 24 then 4 else 5

/-- Effective reading in 1/16 °C (R530): 149.0 °C while broken, 150.0 °C in a zone with two broken sensors. -/
def effective (t : Thermal) (n : Nat) : Int :=
  if 2 ≤ ((List.range 32).filter fun k => zoneOf k == zoneOf n && bit t.broken k).length then 2400
  else if bit t.broken n then 2384 else t.reading.at n

/-- The sensor with the highest effective reading, the lowest number among equals, and that reading (R530, R549). -/
def hottest (t : Thermal) : Nat × Int :=
  (List.range 32).foldl (fun b n => if b.2 < effective t n then (n, effective t n) else b) (0, effective t 0)

/-- A sensor is broken by its window (R529). -/
def windowBad (same : Nat) (reading : Int) : Bool := decide (reading < -880) || decide (3200 < reading) || decide (64 ≤ same)

/-- What one window of a sensor does (R527, R529, R534, R535). -/
def sensorWindow (s : State) (n count : Nat) (reading : Int) : State :=
  let t := s.thm
  let same := if t.count.at n = count then satInc 64 (t.same.at n) else 1
  let s1 := updThm s fun t =>
    { t with reading := t.reading.put n reading, count := t.count.put n count, same := t.same.put n same,
             hot := t.hot.put n (decide (2560 ≤ reading)) }
  let link := 16 ≤ n && (s.gdv.at (n - 16)).linkLost
  let s2 := if windowBad same reading || link then sensorBroken s1 n else s1
  if t.hot.at n && decide (2560 ≤ reading) && !bit s2.thm.broken n && !bit t.stat 26 then
    let s3 := blkStep s2 (updThm s2 fun t => { t with stat := setBit t.stat 26 true })
    record s3 0x9014 n s3.thm.stat
  else s2

/-- SENSOR_WINDOW (R527, R529, R534, R535): a count and its reading; two windows in a row at 160 °C on a sensor that works
assert the hardwired line. -/
def execSensorWindow (n : Fin 32) (count : Nat) (reading : Int) (s : State) : Host.Outcome State Fault Refusal :=
  if s.drv.st == .off then .next s else .next (sensorWindow s n.val count reading)

/-- THERMAL_LINE_RELEASE (R534): every sensor has read below 155 °C for 1 s. -/
def execThermalLineRelease (s : State) : Host.Outcome State Fault Refusal :=
  if s.thm.reading.toList.all fun r => decide (r < 2480) then .next (updThm s fun t => { t with stat := setBit t.stat 26 false })
  else .next s

/-- The throttle step after an evaluation (R531): up to the highest step whose threshold is reached, down while below the
threshold of leaving. -/
def stepOf (old : Nat) (tm : Int) : Nat :=
  let up := ((List.range 13).filter fun k => 0 < k && decide (16 * (123 + 2 * (k : Int)) ≤ tm)).length
  let keep := ((List.range 13).filter fun k => 0 < k && decide (16 * (122 + 2 * (k : Int)) ≤ tm)).length
  if old ≤ up then up else min old keep

/-- THR written into a current-loop context's state area (R532). -/
def maintainThr (thr : Nat) (s : State) (i : CtxImg) : State :=
  i.laws.foldl (fun s l =>
    match l.thrAddr with
    | some a => if isCurrent l.kind then putState s (ctxAt s i.num).region a (BitVec.ofNat 18 thr) else s
    | none => s) s

/-- THR written into the state area of every current-loop context (R532). -/
def writeThr (s : State) (thr : Nat) : State := (placed s).foldl (maintainThr thr) s

/-- WARN (R550): a record each time TMAXE rises to it. -/
def warnCheck (s : State) (tm : Int) : State :=
  let w := s.thm.warn.toInt
  if s.thm.warn = 0 then s
  else if tm < w then updThm s fun t => { t with warnArmed := true }
  else if s.thm.warnArmed then
    let s := updThm s fun t => { t with warnArmed := false, stat := setBit t.stat 24 true }
    record s 0x9010 (fld s.thm.stat 20 16) s.thm.stat
  else s

/-- A stop ramp that the orderly-stop cause takes over or begins: a thermal or monitor stop under way goes on (R469, R533). -/
def stopOpen (s : State) : Bool := match s.drv.ramp with | some r => r.kind == .command | none => true

/-- The orderly-stop cause (R533): from 150 °C to below 148 °C. Where it arises in RUNNING a stop ramp starts; one that is already
present as RUNNING is entered arises again there (R96). -/
def stopCheck (s : State) (tm : Int) : State :=
  let was := bit s.thm.stat 25
  let on := decide (2400 ≤ tm) || (was && decide (2368 ≤ tm))
  let s1 := updThm s fun t => { t with stat := setBit t.stat 25 on }
  if on && s.drv.st == .running && (!was || stopOpen s) then askStop (record s1 0x9013 (fld s1.thm.stat 20 16) s1.thm.stat) .thermal s.drv.stopT
  else s1

/-- One evaluation of the throttle, the warning and the orderly stop (R530 to R533, R549, R550). -/
def throttle (s : State) : State :=
  let h := hottest s.thm
  let old := s.thm.step
  let k := stepOf old h.2
  let s1 := updThm s fun t =>
    { t with step := k, stat := setFld (setFld (setFld t.stat 15 0 (h.2 % 65536).toNat) 20 16 h.1) 31 27 (16 - k) }
  let s2 := if k != old then writeThr s1 (16 - k) else s1
  let s3 := if old == 0 && k != 0 then record s2 0x9012 h.1 s2.thm.stat else s2
  stopCheck (warnCheck s3 h.2) h.2

/-- THROTTLE_EVALUATION (R530 to R533, R549, R550): every 1 ms. -/
def execThrottleEvaluation (s : State) : Host.Outcome State Fault Refusal :=
  if !fromStandbyOn s.drv.st then .next s else .next (throttle s)

/-- CFG_THM WARN (R550). -/
def execCfgThmWarn (r : Req) (s : State) : Host.Outcome State Fault Refusal :=
  let w := fieldAt r 12 4
  .next (runJob 0x1027 r s
    (guardSt (opForm r 8 0 && zeroAt r 9 3 && decide (w < 65536)) stRange
      (ok (updThm s fun t => { t with warn := BitVec.ofNat 16 w, warnArmed := true }))))

/-- CFG_THM STATUS_CLR (R529, R550): a cleared sensor is judged again from its next window. -/
def execCfgThmStatusClr (r : Req) (s : State) : Host.Outcome State Fault Refusal :=
  let m : W32 := BitVec.ofNat 32 (fieldAt r 12 4)
  .next (runJob 0x1027 r s
    (guardSt (opForm r 8 1 && zeroAt r 9 3) stRange
      (guardSt (!driving s.drv.st) stBusy
        (ok (updThm s fun t =>
          { t with broken := w1c t.broken m, stat := setBit t.stat 24 false,
                   same := Vector.ofFn fun k : Fin 32 => if bit m k.val then 0 else t.same.at k.val })))))

/-- Slowed time of the last millisecond in µs, at most 20 (R541, R551). -/
def slowedUs (s : State) : Nat :=
  let since := s.clk.tb - 4000000
  let now := match s.sup.slowAt with | some t => [(t, s.clk.tb)] | none => []
  min 20 ((((now ++ s.sup.slowLog).map fun p => p.2 - max p.1 since).foldl (· + ·) 0) / 4000)

/-- SUP_STAT (R551). -/
def supStat (s : State) : W32 :=
  BitVec.ofNat 32 (slowedUs s * 2 ^ 24 + s.sup.dcnt * 2 ^ 16 + s.aon.rstc.toNat * 2 ^ 12 + b2n (s.sup.slow != 0) * 128
    + b2n s.sup.refBit * 64 + s.sup.rails.toNat)

/-- An ageing site changed. -/
def updSite (s : State) (k : Nat) (f : AgeSite → AgeSite) : State := { s with nv := { s.nv with age := s.nv.age.upd k f } }

/-- The slowing of R540 by a quarter that a pre-error starts, while the budget lasts (R36, R541, R544); it is no droop episode. -/
def preErrorSlow (s : State) : State :=
  if s.sup.slow == 0 && decide (slowedUs s < 20) then { s with sup := { s.sup with slow := 1, slowAt := some s.clk.tb } } else s

/-- CANARY_MEASUREMENT (R543 to R545): the margin of a site; no tap left is a pre-error, which slows sites 0 to 6. AGE_SITE has 64
bits and DATA0 of the record 32: the model writes the upper half (DESIGN CHOICE, log entry 51). -/
def execCanaryMeasurement (site : Fin 10) (taps : Nat) (s : State) : Host.Outcome State Fault Refusal :=
  if s.drv.st == .off then .next s
  else
    let n := min taps 255
    let s1 := updSite s site.val fun a =>
      { a with word := setFld a.word 47 40 n, today := some (match a.today with | some t => min t n | none => n) }
    if n = 0 then
      let s2 := updSite s1 site.val fun a => { a with word := setBit a.word 18 true }
      let s3 := if site.val ≤ 6 then preErrorSlow s2 else s2
      .next (record s3 0x9030 site.val (BitVec.ofNat 32 ((s3.nv.age.at site.val).word.toNat / 2 ^ 32)))
    else .next s1

/-- LIFE (R548) from the days' margins: hours from the last stored day on, in units of 100 h, at which the line of least
squares through the days reaches 4 taps. -/
def lifeOf (hist : List Nat) : Nat :=
  let n : Int := hist.length
  let sx : Int := n * (n - 1) / 2
  let sxx : Int := n * (n - 1) * (2 * n - 1) / 6
  let sy : Int := (hist.map Int.ofNat).sum
  let sxy : Int := (hist.zipIdx.map fun p => (p.1 : Int) * p.2).sum
  let den := n * sxx - sx * sx
  let slope := n * sxy - sx * sy
  if hist.length < 30 || 0 ≤ slope then 0xFFFF
  else
    let b : Rat := (slope : Rat) / den
    let a : Rat := ((sy : Rat) - b * sx) / n
    let day : Rat := (4 - a) / b
    let units : Rat := (day - (n - 1)) * 24 / 100
    min 0xFFFE (max 0 units.floor).toNat

/-- The end of a day at one site (R545): its MMIN is stored, at most 90 days, and the first one is MARG0. -/
def AgeSite.endDay (a : AgeSite) : AgeSite :=
  match a.today with
  | none => a
  | some m =>
    let h := (a.hist ++ [m]).drop ((a.hist.length + 1) - 90)
    let w := setFld a.word 55 48 m
    let w := if a.hist.isEmpty then setFld w 63 56 m else w
    { word := setFld w 35 20 (lifeOf h), hist := h, today := none }

/-- The unclamped ageing step (R546). -/
def dthRaw (t : Tab 10 AgeSite) : Nat :=
  (List.range 7).foldl (fun d k => max d (((fld (t.at k).word 63 56) - (fld (t.at k).word 55 48) + 1) / 2)) 0

/-- A re-plan (R546, R547): the ageing step never falls; EOL with its record where it arises, which concerns no one site: UNIT 0xFFFF
and DATA0 0 (DESIGN CHOICE, log entry 51). -/
def replan (s : State) : State :=
  let raw := dthRaw s.nv.age
  let d := max s.nv.ageDth (min 6 raw)
  let eol := decide (6 < raw) || s.nv.age.toList.any fun a => !a.hist.isEmpty && decide (fld a.word 55 48 ≤ 4)
  let was := s.nv.age.toList.any fun a => bit a.word 19
  let s := { s with nv := { s.nv with ageDth := d, age := s.nv.age.map fun a =>
    { a with word := setBit (setFld a.word 39 36 d) 19 (bit a.word 19 || eol) } } }
  if eol && !was then record s 0x9031 noUnit 0 else s

/-- DAILY_REPLAN (R545 to R548): the end of every 24 hours of operation. -/
def execDailyReplan (s : State) : Host.Outcome State Fault Refusal :=
  if fromStandbyOn s.drv.st then .next (replan { s with nv := { s.nv with age := s.nv.age.map AgeSite.endDay } }) else .next s

/-- OPERATING_HOURS_SAVE (R545). -/
def execOperatingHoursSave (s : State) : Host.Outcome State Fault Refusal :=
  if fromStandbyOn s.drv.st then .next { s with nv := { s.nv with hours := s.nv.hours + 1 } } else .next s

/-- DIA_AGEING's form (R553). -/
def ageForm (r : Req) (op : Nat) : Bool :=
  opForm r 8 op && (op == 2 || op == 3 || fieldAt r 9 1 == 0) && (op == 3 || fieldAt r 10 1 == 0) && zeroAt r 11 5

/-- DIA_AGEING QUERY (R552, R553). -/
def execDiaAgeingQuery (r : Req) (s : State) : Host.Outcome State Fault Refusal :=
  .next (runJob 0x6004 r s
    (guardSt (ageForm r 0) stRange
      (.done s stOk (leBytes 4 s.nv.hours ++ leBytes 4 0 ++ (s.nv.age.toList.flatMap fun a => leBytes 8 a.word.toNat)))))

/-- DIA_AGEING REPLAN (R546, R553). -/
def execDiaAgeingReplan (r : Req) (s : State) : Host.Outcome State Fault Refusal :=
  .next (runJob 0x6004 r s
    (guardSt (ageForm r 1) stRange
      (guardSt (s.drv.st == .standby || s.drv.st == .configured) stBusy (ok (replan s)))))

/-- DIA_AGEING HISTORY (R553). -/
def execDiaAgeingHistory (r : Req) (s : State) : Host.Outcome State Fault Refusal :=
  let h := (s.nv.age.at (fieldAt r 9 1)).hist
  .next (runJob 0x6004 r s
    (guardSt (ageForm r 2 && decide (fieldAt r 9 1 ≤ 9)) stRange
      (.done s stOk (BitVec.ofNat 8 h.length :: h.map (BitVec.ofNat 8)))))

/-- DIA_AGEING STATUS_CLR (R553). -/
def execDiaAgeingStatusClr (r : Req) (s : State) : Host.Outcome State Fault Refusal :=
  let m := fieldAt r 9 2
  .next (runJob 0x6004 r s
    (guardSt (ageForm r 3 && decide (fieldAt r 10 1 < 4)) stRange
      (ok ((List.range 10).foldl (fun s k =>
        if m.testBit k then updSite s k fun a => { a with word := setBit a.word 18 false } else s) s))))

end Sys2Proof.Machine
end

