-- ==== Sys2Proof/Machine/Supply.lean ====
section
/-! DEFINITION. Failed starts and internal resets (R103 to R105, R539), the supply rails (R537), droop slowing (R540, R541) and
the reference (R542). -/

namespace Sys2Proof.Machine

/-- A failed start (R103 to R105): recorded by the always-on logic with the stage in progress; failures more than 60 s before
it do not count; the third counted one sets the COPPICE latch; every other domain is reset and a new start begins. -/
def startFail (s : State) (code : W16) (stage : Nat) : State :=
  let f : StartFail := { code := code, stage := BitVec.ofNat 8 stage, secs := s.aon.secs }
  let near := (s.aon.fails.take s.aon.failCount).filter fun g => decide (s.aon.secs.toNat ≤ g.secs.toNat + 60)
  let n := min 3 (near.length + 1)
  let a := { s.aon with fails := (f :: s.aon.fails).take 3, failCount := n }
  coldReset { s with aon := if n = 3 && !a.coppice then { a with coppice := true, coppiceReason := 0xC010 } else a }

/-- An internal reset by the supply supervisor (R539). -/
def internalReset (s : State) (cause : Nat) : State :=
  coldReset { s with aon := { s.aon with rstc := BitVec.ofNat 4 cause, rstcNew := true } }

/-- Rails that the start sequencer has powered, by their bits in `railOut` (R102, R537). -/
def poweredRails (p : Nat) : List Nat := [1, 2, 3, 4, 5].take p

/-- A powered rail lies outside its window. -/
def railBad (s : State) : Bool := (poweredRails s.sup.powered).any fun r => bit s.sup.railOut r

/-- A rail's bit, with RAIL of SUP_STAT where it leaves its window (R551). -/
def setRail (s : State) (rail : Nat) (outside : Bool) : State :=
  { s with sup := { s.sup with railOut := setBit s.sup.railOut rail outside
                               rails := if outside && 1 ≤ rail then setBit s.sup.rails (rail - 1) true else s.sup.rails } }

/-- A record of the supply supervisor, with SUP_STAT (R82, R551). -/
def recSup (s : State) (code : W16) : State := record s code noUnit (supStat s)

/-- The reaction in operation of a rail that has left its window (R537). -/
def railReaction (s : State) (rail : Nat) : State :=
  match rail with
  | 1 => recSup s 0x9021
  | 2 => internalReset s 1
  | 3 => recSup s 0x9022
  | 4 => recSup s 0x9023
  | 5 => if driving s.drv.st then arrive { recSup s 0x9024 with saf := { s.saf with stoEscal := true } } .trip 0x9024 else recSup s 0x9024
  | _ => recSup s 0x9025

/-- RAIL_OUT_OF_WINDOW (R102, R537, R690): a rail outside its window for its filter time, or inside again. -/
def execRailOutOfWindow (rail : Fin 7) (outside : Bool) (s : State) : Host.Outcome State Fault Refusal :=
  let was := bit s.sup.railOut rail.val
  let s1 := setRail s rail.val outside
  if !outside || was then .next s1
  else if rail.val = 0 then
    .next (coldReset { s1 with aon := {}, sup := { s1.sup with released := false } })
  else if s.sup.seqDone then .next (railReaction (blkStep s s1) rail.val)
  else if 2 ≤ s.sup.stage && railBad s1 then .next (startFail s1 0x9001 s.sup.stage)
  else .next s1

/-- DROOP1 and DROOP2 in thousandths of nominal: 95 % and 92 %, raised by 0.5 % an ageing step (R540, R546). -/
def droop1 (s : State) : Nat := 950 + 5 * s.nv.ageDth
def droop2 (s : State) : Nat := 920 + 5 * s.nv.ageDth

/-- The slowing that a level of VCORE asks for: 0 none, 1 one cycle in four, 2 one in two (R540). -/
def slowFor (s : State) (level : Nat) : Nat := if level < droop2 s then 2 else if level < droop1 s then 1 else 0

/-- DROOP_DETECT (R540, R541): VCORE, in thousandths of nominal, slows the clocks by a quarter or a half while the budget lasts. -/
def execDroopDetect (level : Nat) (s : State) : Host.Outcome State Fault Refusal :=
  if s.drv.st == .off || slowFor s level == 0 || 20 ≤ slowedUs s then .next s
  else if s.sup.slow = 0 then
    .next { s with sup := { s.sup with slow := slowFor s level, slowAt := some s.clk.tb, dcnt := satInc 255 s.sup.dcnt } }
  else .next { s with sup := { s.sup with slow := max s.sup.slow (slowFor s level) } }

/-- DROOP_END (R540): 100 ns after the rail has risen above the threshold. -/
def execDroopEnd (s : State) : Host.Outcome State Fault Refusal :=
  match s.sup.slowAt with
  | some t =>
    let keep := s.sup.slowLog.filter fun p => decide (s.clk.tb ≤ p.2 + 4000000)
    .next { s with sup := { s.sup with slow := 0, slowAt := none, slowLog := (t, s.clk.tb) :: keep } }
  | none => .next s

/-- DROOP_BUDGET_EXHAUSTED (R539, R541): droop persists with the slowed time at 20 µs. -/
def execDroopBudgetExhausted (s : State) : Host.Outcome State Fault Refusal :=
  if s.sup.seqDone && decide (20 ≤ slowedUs s) then .next (internalReset s 2) else .next s

/-- PLL_LOCK_LOSS in operation (R539, R542). -/
def execPllLockLoss (s : State) : Host.Outcome State Fault Refusal :=
  if s.sup.seqDone then .next (internalReset s 3) else .next s

/-- REFERENCE_COUNT_WINDOW (R542): two windows in a row outside 973 to 1,075. -/
def execReferenceCountWindow (edges : Nat) (s : State) : Host.Outcome State Fault Refusal :=
  if s.drv.st == .off then .next s
  else
    let bad := decide (edges < 973) || decide (1075 < edges)
    let n := if bad then satInc 2 s.sup.badRef else 0
    let s1 := { s with sup := { s.sup with badRef := n, refBit := s.sup.refBit || n == 2 } }
    .next (if n = 2 && s.sup.badRef = 1 then recSup s1 0x9029 else s1)

end Sys2Proof.Machine
end

