-- ==== Sys2Proof/Machine/Firmware.lean ====
section
/-! DEFINITION. Firmware images, their verification and the boot control record (R649 to R657). -/

namespace Sys2Proof.Machine

/-- Bytes `o` to `o + n − 1` of flash or of an image area; erased bytes read 0xFF (log entry 13). -/
def flashBytes (l : List Byte) (o n : Nat) : List Byte :=
  let t := (l.drop o).take n
  t ++ List.replicate (n - t.length) 0xFF

/-- A key slot may verify (R650, R657): written, complete and not revoked. -/
def keyOk (f : Fuses) (k : Nat) : Bool := (f.keys.at k).written && !(f.keys.at k).spoiled && !bit f.revoke k

/-- The key of a slot. -/
def keyBytes (f : Fuses) (k : Nat) : List Byte := if (f.keys.at k).factory then Config.factoryKey else (f.keys.at k).key

/-- USE.FW, USE.IMG and USE.DBG (R657). -/
def keyUse (f : Fuses) (k i : Nat) : Bool := bit (f.keys.at k).kuse i

/-- Header fields of a firmware image (R649). -/
def imgU (l : List Byte) (o n : Nat) : Nat := leNat (flashBytes l o n) 0 n

/-- VERSION, SVN and DIGEST of a bank. -/
def FwBank.version (b : FwBank) : Nat := if b.factory then Config.factoryVersion.toNat else imgU b.data 12 4
def FwBank.svn (b : FwBank) : Nat := if b.factory then Config.factorySvn else imgU b.data 16 2
def FwBank.digest (b : FwBank) : List Byte := if b.factory then padTo 64 Config.factoryDigest else flashBytes b.data 64 64

/-- The checks of R650 on a bank, in their order: the number of the first that fails, 0 if none does. -/
def verifyBank (f : Fuses) (b : FwBank) : Nat :=
  if b.factory then
    (if !keyOk f 0 then 3 else if Config.factorySvn < f.minsvn then 4 else 0)
  else
    let d := b.data
    let len := imgU d 8 4
    let k := imgU d 18 1
    if imgU d 0 4 ≠ 0x1C51F001 ∨ imgU d 4 2 ≠ 1 ∨ imgU d 6 2 ≠ 0x9640 ∨ imgU d 19 1 ≠ 0 ∨ imgU d 24 40 ≠ 0 then 1
    else if len < 192 ∨ 1572864 < len ∨ len % 8 ≠ 0 then 2
    else if !(decide (k < 2) && keyOk f k && keyUse f k 0) then 3
    else if imgU d 16 2 < f.minsvn then 4
    else if sha512 (flashBytes d 192 (len - 192)) ≠ flashBytes d 64 64 then 5
    else if !edVerify (keyBytes f k) (flashBytes d 128 64) (flashBytes d 0 128) then 6
    else 0

/-- The copy of the boot control record in use (R651): valid, of the higher GEN. -/
def bcrIndex (t : Tab 2 BootRec) : Option Nat :=
  match (t.at 0).ok, (t.at 1).ok with
  | true, true => some (if (t.at 0).gen.toNat < (t.at 1).gen.toNat then 1 else 0)
  | true, false => some 0
  | false, true => some 1
  | false, false => none

/-- The boot control record in force; without a valid copy CONF = 0 and no trial. -/
def bcrNow (t : Tab 2 BootRec) : BootRec := match bcrIndex t with | some i => t.at i | none => {}

/-- An update of the record: the other copy, with GEN one higher (R651). -/
def bcrUpdate (s : State) (f : BootRec → BootRec) : State :=
  let t := s.nv.bcr
  let r := bcrNow t
  let i := match bcrIndex t with | some i => 1 - i | none => 0
  { s with nv := { s.nv with bcr := t.put i { f r with gen := r.gen + 1, ok := true } } }

/-- A security record. -/
def recSec (s : State) (code : W16) : State := record s code noUnit 0

/-- Bank selection (R651): the state with the record's update, the bank, and whether it is a trial. -/
def selectBank (s : State) : State × Nat × Bool :=
  let r := bcrNow s.nv.bcr
  if 2 ≤ r.trial then (s, r.conf, false)
  else if r.tried then (recSec (bcrUpdate s fun r => { r with trial := 0xFF }) 0xC021, r.conf, false)
  else (bcrUpdate s fun r => { r with tried := true }, r.trial, true)

/-- Bytes of the safety bank's words 0 to 18 (R473). -/
def safetyBytes (t : Tab 20 W32) : List Byte := (List.range 19).flatMap fun i => leBytes 4 (t.at i).toNat

/-- The safety bank passes the check of start self-test 0x49: blank, or SF_CRC matches (R473). -/
def safetyOk (f : Fuses) : Bool :=
  !f.safetySet || (List.range 20).all (fun i => f.safety.at i == 0) || crc32 (safetyBytes f.safety) == f.safety.at 19

/-- DBGPOL, SIGIMG and SF_POL.SCAN (R657); the value 3 reads as 1. -/
def dbgPol (f : Fuses) : Nat :=
  if f.policySet && !f.policySpoiled then (if fld f.policy 2 1 = 3 then 1 else fld f.policy 2 1) else 0
def sigImg (f : Fuses) : Bool := f.policySet && !f.policySpoiled && bit f.policy 0
def scanPol (s : State) : Bool := bit (sfWord s 8) 4

/-- The limits that both copies start from (R475, R476). -/
def fusedLimits (s : State) : Limits :=
  { smax := #v[fld (sfWord s 3) 31 16, fld (sfWord s 4) 31 16], slsl := #v[fld (sfWord s 3) 15 0, fld (sfWord s 4) 15 0],
    dtol := #v[fld (sfWord s 5) 31 20, fld (sfWord s 6) 31 20], ptol := #v[fld (sfWord s 5) 19 4, fld (sfWord s 6) 19 4],
    tmtol := fld (sfWord s 9) 31 16,
    bhi := Vector.ofFn fun i : Fin 8 => fld (sfWord s (11 + i.val)) 31 22,
    blo := Vector.ofFn fun i : Fin 8 => fld (sfWord s (11 + i.val)) 21 12,
    ascSpd := fld (sfWord s 7) 31 16 }

/-- The fuse banks read at the start (R8, R439, R440, R473, R658). -/
def loadFuses (s : State) : State :=
  let s := { s with boot := { s.boot with fuses := s.nv.fuses } }
  let l := fusedLimits s
  { s with
    saf := { s.saf with blkLim := l, icsLim := l }
    prt := { s.prt with ctl := setFld s.prt.ctl 47 32 l.ascSpd, dcl := setFld s.prt.dcl 63 53 (fld (sfWord s 8) 15 5) } }

end Sys2Proof.Machine
end

