-- ==== Sys2Proof/Machine/Start.lean ====
section
/-! DEFINITION. Power-up, the boot flow and the entry into STANDBY or COPPICE (R95, R100 to R106, R509, R510, R648 to R653,
R672, R673, R692). -/

namespace Sys2Proof.Machine

/-- The start sequencer changed. -/
def updSup (s : State) (f : Supply → Supply) : State := { s with sup := f s.sup }

/-- RESET_RELEASE (R672, R674): XSEL selects the source of the reference; no command carries the level of that pin, which is a free
value (log entry 72). -/
def execResetRelease (s : State) : Host.Outcome State Fault Refusal :=
  if s.drv.st == .off then .next (updSup (freeTaken s) fun u => { u with released := true, extRef := freeVal s % 2 == 1 }) else .next s

/-- NODE_ID_DELAY_EXPIRY (R100 to R102): the Blackthorn island is powered first. -/
def execNodeIdDelayExpiry (s : State) : Host.Outcome State Fault Refusal :=
  if s.drv.st == .off && s.sup.released && s.sup.stage == 1 then .next (updSup s fun u => { u with stage := 2, powered := 1 }) else .next s

/-- Stage of R104 with a number of domains powered. -/
def stageOf (p : Nat) : Nat := if p = 1 then 2 else if p = 2 then 3 else if p = 3 then 4 else if p = 4 then 5 else 6

/-- START_SEQUENCER_STEP (R102): the next domain is powered if every powered rail is in range; the analogue domain follows the
PLLs' lock. `railsOk` is what the sequencer finds of the previous rail. -/
def execStartSequencerStep (railsOk : Bool) (s : State) : Host.Outcome State Fault Refusal :=
  let p := s.sup.powered
  if p = 0 || s.sup.seqDone || (p == 2 && !s.sup.locked) then .next s
  else if !railsOk || railBad s then .next (startFail s 0x9001 (stageOf p))
  else .next (updSup s fun u =>
    { u with powered := p + 1, stage := if p + 1 = 20 then 7 else stageOf (p + 1), seqDone := p + 1 == 20 })

/-- PLL_LOCK_DEADLINE (R102, R592, R692): BOOT begins with both PLLs locked; the local clock starts at 0. -/
def execPllLockDeadline (locked : Bool) (s : State) : Host.Outcome State Fault Refusal :=
  if s.drv.st != .off || s.sup.powered != 2 || s.sup.locked then .next s
  else if !locked then .next (startFail s 0x9002 3)
  else
    let s := { updSup s (fun u => { u with locked := true }) with clk := { s.clk with sec := 0, ns := 0, frac := 0 } }
    .next (enter s .boot 0)

/-- The record of an internal reset, once (R539). -/
def recordRstc (s : State) : State :=
  if !s.aon.rstcNew then s
  else
    let code : W16 := if s.aon.rstc = 1 then 0x9020 else if s.aon.rstc = 2 then 0x9028 else 0x902A
    let s := record { s with aon := { s.aon with rstcNew := false } } code noUnit (s.aon.rstc.zeroExtend 32)
    { s with io := { s.io with log := match s.io.log with | f :: t => { f with state := 0, data1 := 0 } :: t | [] => [] } }

/-- What both STANDBY and COPPICE record at their entry from BOOT (R37, R539). -/
def entryRecords (s : State) : State :=
  let s := recordRstc s
  if s.saf.clkfPend then recBlk (updSaf s fun b => { b with clkfPend := false }) noUnit 0x3042 else s

/-- COPPICE is entered (R105, R106, R448, R496, R591). -/
def enterCoppice (s : State) : State :=
  let s := updSaf (enter s .coppice s.aon.coppiceReason) fun b => { b with coppiceLine := true }
  entryRecords s

/-- Cells taken out of service by start self-test 0x41, with NOSPARE and the end of rotation in a block left with fifteen
(R24, R510). -/
def failCells (s : State) (bad : List (Nat × Nat)) : State :=
  let out := bad.foldl (fun s p => updBlock s p.1 fun b => { b with map := setBit b.map (48 + p.2) false }) s
  (List.range 16).foldl (fun s k =>
    let b := s.thk.blocks.at k
    let cells := (List.range 16).filter fun c => bit b.map (48 + c)
    if cells.length = 15 then
      updBlock s k fun b =>
        { b with map := setBit b.map 47 true, stopped := true
                 lmap := BitVec.ofNat 64 ((cells.zipIdx.map fun p => p.1 * 16 ^ p.2).foldl (· + ·) 0) }
    else s) out

/-- The start self-tests in their order (R509). -/
def startKinds : List Nat := [0x49, 0x40, 0x41, 0x42, 0x43, 0x44, 0x45, 0x46, 0x47, 0x48]

/-- The kind of the first start self-test that fails, 0 if none does (R473, R509, R510). -/
def failingKind (s : State) (f : BootFinds) : Nat :=
  let few := (List.range 16).any fun b => 2 ≤ ((f.badCells.map fun p => (p.1.val, p.2.val)).dedup.filter fun p => p.1 == b).length
  (startKinds.find? fun k => (k == 0x49 && !safetyOk s.boot.fuses) || (k == 0x41 && few)
    || f.failing == some (BitVec.ofNat 8 k)).getD 0

/-- A verified bank runs its start self-tests, and the firmware starts (R471, R497, R509, R648). -/
def runBank (s : State) (bank : Nat) (trial fallback : Bool) (f : BootFinds) : State :=
  let k := failingKind s f
  if k ≠ 0 then startFail { s with aon := { s.aon with sfail := BitVec.ofNat 8 k } } 0xC003 8
  else
    let s := failCells s (f.badCells.map fun p => (p.1.val, p.2.val)).dedup
    { s with aon := { s.aon with sfail := 0 }
             boot := { s.boot with bank := some bank, trial := trial, fallback := fallback }
             sup := { s.sup with stage := 9 }
             icp := { s.icp with injok := true }
             prn := { s.prn with startOk := true }
             acq := { s.acq with groups := s.acq.groups.map fun g => { g with calGen := g.calGen + 1 } }
             saf := { s.saf with qaStarted := true } }

/-- BOOT_ROM_START (R105, R509, R648, R650, R651): COPPICE where its latch is set; the rest waits for the last driver die. -/
def execBootRomStart (f : BootFinds) (s : State) : Host.Outcome State Fault Refusal :=
  if s.drv.st != .boot || s.boot.bank.isSome || s.icp.held || s.icp.dead then .next s
  else if s.aon.coppice then .next (enterCoppice (loadFuses s))
  else if !s.sup.seqDone then .next s
  else
    let s := loadFuses s
    let (s, b, trial) := selectBank s
    let fz := s.boot.fuses
    if verifyBank fz (s.nv.banks.at b) = 0 then .next (runBank s b trial false f)
    else
      let s := recSec s 0xC020
      if verifyBank fz (s.nv.banks.at (1 - b)) = 0 then .next (runBank s (1 - b) false true f)
      else .next (startFail s 0xC002 7)

/-- The running bank is confirmed (R652, R653). -/
def confirmBank (s : State) : State :=
  match s.boot.bank with
  | some b =>
    if s.boot.trial then bcrUpdate s fun r => { r with conf := b, trial := 0xFF, tried := false }
    else if s.boot.fallback then bcrUpdate s fun r => { r with conf := b }
    else s
  | none => s

/-- STANDBY_ENTRY (R37, R95, R104, R489, R539, R652, R653). -/
def execStandbyEntry (s : State) : Host.Outcome State Fault Refusal :=
  if s.drv.st != .boot || s.boot.bank.isNone || s.sup.stage != 9 then .next s
  else
    let s := confirmBank { s with aon := { s.aon with failCount := 0 } }
    .next (entryRecords (enter s .standby 0))

/-- START_TIMEOUT (R103): STANDBY not reached within 2 s of reset release; a degraded pair waits for the reset input or the
supply (R494). -/
def execStartTimeout (s : State) : Host.Outcome State Fault Refusal :=
  if s.sup.released && !s.icp.dead && (s.drv.st == .off || s.drv.st == .boot) then .next (startFail s 0xC001 s.sup.stage) else .next s

/-- A reset that the pins cause: every domain but the always-on logic, until reset release (R95, R673). -/
def pinReset (s : State) : State := updSup (coldReset s) fun u => { u with released := false }

/-- RESET_INPUT (R673): from 200 ns to 1 µs either outcome, by a free value. -/
def execResetInput (lowNs : Nat) (s : State) : Host.Outcome State Fault Refusal :=
  if lowNs < 200 then .next s
  else if 1000 ≤ lowNs then .next (pinReset s)
  else if freeVal s % 2 = 1 then .next (pinReset (freeTaken s)) else .next (freeTaken s)

/-- SUPPLY_LOSS (R95, R104, R105, R538): with the always-on supply its records go too. -/
def execSupplyLoss (aonToo : Bool) (s : State) : Host.Outcome State Fault Refusal :=
  .next (pinReset (if aonToo then { s with aon := {} } else s))

end Sys2Proof.Machine
end

