-- ==== Sys2Proof/Machine/Lockstep.lean ====
section
/-! DEFINITION. The lockstep pair (R484 to R508): mismatch, restart, degradation, split and join, debug halt (R369), and the
requests of the debug port (R524, R661). -/

namespace Sys2Proof.Machine

/-- The pair changed. -/
def updIcp (s : State) (f : Pair → Pair) : State := { s with icp := f s.icp }

/-- ICS_LSTAT (R507). -/
def lstat (s : State) : W32 :=
  BitVec.ofNat 32 (s.aon.mcnt.toNat * 2 ^ 24 + s.icp.recur * 2 ^ 22 + b2n s.aon.degr * 2 ^ 21 + b2n s.icp.split * 2 ^ 20
    + b2n s.icp.dbg * 2 ^ 19 + b2n s.icp.lsbrk * 2 ^ 18 + b2n s.icp.sigdif * 2 ^ 17 + b2n s.icp.injok * 2 ^ 16 + s.icp.cpnum.toNat)

/-- A fault record of the pair, which has no instance number (R82, R508). -/
def recIcp (s : State) (code : W16) : State := record s code noUnit (lstat s)

/-- The pair is declared degraded (R95, R494): both cores stay held, the mismatch line stays raised, the port shows FAULT with
LAST_FAULT 0x4021, which no firmware records, and the COPPICE latch is set. -/
def degrade (s : State) : State :=
  let t := enterRaw s .fault 0x4021
  { t with
    icp := { t.icp with dead := true, held := true, mismatchLine := true }
    io := { t.io with lastFault := 0x4021 }
    aon := { t.aon with degr := true, coppice := true, coppiceReason := 0x4021 } }

/-- The comparator is enabled: not in OFF and COPPICE (R496), not while split (R501), halted (R505) or degraded. -/
def comparing (s : State) : Bool :=
  s.drv.st != .off && s.drv.st != .coppice && !s.icp.split && !s.icp.dbg && !s.icp.dead

/-- ICS_MCAP (R507). -/
def mcapWord (s : State) (kind : Nat) (group : Byte) (offset : W32) : W64 :=
  BitVec.ofNat 64 (s.icp.cpnum.toNat * 2 ^ 48 + kind * 2 ^ 40 + (if 4 ≤ kind then 255 else group.toNat) * 2 ^ 32 + offset.toNat)

/-- A mismatch (R490, R494, R495): counted and captured; the third at one checkpoint degrades the pair, any other holds the
cores until the restart. In BOOT the boot ROM starts again from its entry point. -/
def mismatch (s : State) (kind : Nat) (group : Byte) (offset : W32) : State :=
  let s := { s with aon := { s.aon with mcnt := BitVec.ofNat 8 (satInc 255 s.aon.mcnt.toNat), mcap := mcapWord s kind group offset } }
  if s.icp.recur = 2 then degrade s
  else if s.drv.st == .boot then
    { s with icp := { s.icp with recur := s.icp.recur + 1, injok := false }
             boot := { s.boot with bank := none, trial := false, fallback := false }
             sup := { s.sup with stage := if s.sup.seqDone then 7 else s.sup.stage } }
  else blkStep s (updIcp s fun p => { p with recur := p.recur + 1, held := true, mismatchLine := true })

/-- A register signature that differs (R499): SIGDIF, fault 0x4002, and a mismatch of KIND 5. -/
def sigDiff (s : State) (offset : W32) : State :=
  mismatch (recIcp (updIcp s fun p => { p with sigdif := true }) 0x4002) 5 0xFF offset

/-- LOCKSTEP_MISMATCH (R490, R493 to R495, R499). -/
def execLockstepMismatch (kind : Fin 6) (group : Byte) (offset : W32) (s : State) : Host.Outcome State Fault Refusal :=
  if !comparing s then .next s
  else if kind.val = 5 then .next (sigDiff s offset)
  else .next (mismatch s kind.val group offset)

/-- The debug halt (R369, R505): DBG and LSBRK, and each unit with FRZ 1 or 2 turns both outputs off. -/
def halt (s : State) : State :=
  let s := updIcp (noteUnits s) fun p => { p with dbg := true, lsbrk := true, haltPend := false }
  (List.range 6).foldl (fun s u =>
    if (s.pwm.units.at u).inForce.frz = 0 then s
    else recUnit (updUnit s u fun x => { x with frozen := true, flags := setBit x.flags 5 true }) u 0x8005) s

/-- Jobs outstanding at a mismatch complete with ST_PREEMPTED (R71, R490). -/
def preemptAll (s : State) : State :=
  s.io.jobs.foldl (fun s j => completeRaw s j.opcode.toNat j.req stPreempted []) s

/-- CHECKPOINT_RESTART (R490 to R493): both cores resume from the checkpoint, what the output buffer held is discarded, the
STO request line rises in ARMED and RUNNING before the mismatch line falls, and fault 0x4001 is written. -/
def execCheckpointRestart (s : State) : Host.Outcome State Fault Refusal :=
  if !s.icp.held || s.icp.dead then .next s
  else
    let run := driving s.drv.st
    let s := { s with saf := { s.saf with stoRestart := s.saf.stoRestart || run } }
    let s := updIcp s fun p => { p with held := false, mismatchLine := false, undo := 0, outbuf := 0 }
    let s := recIcp (preemptAll s) 0x4001
    let s := { s with io := { s.io with inj := false } }
    .next (if s.icp.haltPend then halt s else s)

/-- CHECKPOINT_SEAL (R487 to R489, R494). -/
def execCheckpointSeal (s : State) : Host.Outcome State Fault Refusal :=
  if serving s then .next (sealCp s) else .next s

/-- The partition of Icsis SRAM that core 1 writes while split (R502). -/
def inPartition (a : W32) : Bool := decide (0x3C0000 ≤ a.toNat) && decide (a.toNat ≤ 0x3FFFFF)

/-- CORE1_PARTITION_VIOLATION (R502). -/
def execCore1PartitionViolation (a : W32) (s : State) : Host.Outcome State Fault Refusal :=
  if s.icp.split && s.icp.core1 == .service && !inPartition a then
    .next (recIcp (updIcp s fun p => { p with core1 := .held }) 0x4011)
  else .next s

/-- CTL_SPLIT (R500, R501): applied at a checkpoint of its own, with the STO request line high from then on. -/
def execCtlSplit (r : Req) (s : State) : Host.Outcome State Fault Refusal :=
  let v := fieldAt r 8 4
  .next (runJob 0x2030 r s
    (guardSt (formOk r 4 && decide (v < 16)) stRange
      (guardSt (!s.icp.split) stBusy
        (ok (updIcp (sealCp s) fun p => { p with split := true, services := BitVec.ofNat 4 v, core1 := .service })))))

/-- The end of a split (R503). -/
def Pair.join (p : Pair) : Pair := { p with split := false, services := 0, core1 := .lockstep, joining := false }

/-- CTL_JOIN (R500, R503): `injOk` is the outcome of the injection test; a failure degrades the pair, which completes nothing
any more. -/
def execCtlJoin (r : Req) (injOk : Bool) (s : State) : Host.Outcome State Fault Refusal :=
  if jobRuns s 0x2031 r && formOk r 0 && s.icp.split && !injOk then .next (degrade s)
  else .next (runJob 0x2031 r s
    (guardSt (formOk r 0) stRange
      (if s.icp.split then ok (updIcp (sealCp s) Pair.join) else ok s)))

/-- JOIN_STOP_TIMEOUT (R503): core 1 has not stopped within 200 µs of a CTL_JOIN, and is reset. -/
def execJoinStopTimeout (s : State) : Host.Outcome State Fault Refusal :=
  if s.icp.split && s.io.jobs.any fun j => j.opcode == 0x2031 then .next (updIcp s fun p => { p with core1 := .held })
  else .next s

/-- DEBUG_HALT (R369, R493, R505, R661): with the right to halt; while the cores are held it waits for the restart. -/
def execDebugHalt (s : State) : Host.Outcome State Fault Refusal :=
  if !bit s.icp.rights 0 || s.icp.dbg || s.icp.dead || s.drv.st == .off then .next s
  else if s.icp.held then .next (updIcp s fun p => { p with haltPend := true })
  else .next (halt s)

/-- A unit after a debug halt (R369): a stopped counter restarts from the valley, and HOLD is set where outputs were frozen. -/
def PwmUnit.thaw (u : PwmUnit) (t : Int) : PwmUnit :=
  { u with frozen := false, stopped := false, hold := u.hold || u.frozen, origin := if u.stopped then t else u.origin }

/-- DEBUG_RESUME (R369, R506): a resync seals a checkpoint from core 0, and fault 0x4030 is written. A resync leaves the count
of mismatches since a checkpoint sealed as any seal does. -/
def execDebugResume (s : State) : Host.Outcome State Fault Refusal :=
  if s.icp.dbg then
    let s := sealCp (updIcp s fun p => { p with dbg := false })
    .next (recIcp { s with pwm := { s.pwm with units := (noteUnits s).pwm.units.map fun u => u.thaw (fineNow s) } } 0x4030)
  else .next s

/-- The signed message of a debug request (R661; log entry 14): the challenge, SERIAL in little-endian order, and RIGHTS. -/
def debugMsg (challenge : List Byte) (rights : BitVec 2) : List Byte :=
  padTo 32 challenge ++ leBytes 8 Config.serial.toNat ++ [rights.setWidth 8]

/-- Whether the port grants a request (R657, R661). -/
def grants (s : State) (rights : BitVec 2) (slot : Nat) (challenge sig : List Byte) : Bool :=
  let f := s.boot.fuses
  if dbgPol f = 1 then false else if dbgPol f = 2 then true
  else keyOk f slot && keyUse f slot 2 && edVerify (keyBytes f slot) (padTo 64 sig) (debugMsg challenge rights)

/-- DEBUG_REQUEST (R661): rights last until reset. -/
def execDebugRequest (rights : BitVec 2) (slot : Fin 4) (challenge sig : List Byte) (s : State) : Host.Outcome State Fault Refusal :=
  if s.drv.st == .off then .next s
  else
    let s := updIcp s fun p => { p with challenge := some (padTo 32 challenge) }
    if grants s rights slot.val challenge sig then
      .next (record (updIcp s fun p => { p with rights := p.rights ||| rights, authSince := true }) 0xC031 noUnit 0)
    else .next (record s 0xC032 noUnit 0)

/-- The memories that a secure scan entry clears (R524): Icsis SRAM with the fault log, the jobs and the trace samples; queue
SRAM; both image areas; the region, operation and coefficient memories. -/
def clearMemories (s : State) : State :=
  let t := s.thk
  { s with
    io := { s.io with qsram := [], jobs := [], log := [] }
    trc := { s.trc with cap := { s.trc.cap with samples := [] } }
    thk := { t with blocks := t.blocks.map (fun b => { b with op := [], coef := [] }), rmem := Vector.replicate 4 [],
                    rmemB := Vector.replicate 4 [], staging := [], stagingLen := 0, active := [], body := none } }

/-- SCAN_ENTRY (R521, R524): honoured in STANDBY and COPPICE, with the right to scan. -/
def execScanEntry (s : State) : Host.Outcome State Fault Refusal :=
  if bit s.icp.rights 1 && (s.drv.st == .standby || s.drv.st == .coppice) && !s.prn.scan && !s.icp.dead then
    let s1 := if scanPol s then s else clearMemories s
    .next { s1 with saf := { s1.saf with scanClosed := true }, prn := { s1.prn with scan := true }, aon := { s1.aon with scanSeen := true } }
  else .next s

end Sys2Proof.Machine
end

