-- ==== Sys2Proof/Machine/ThkErr.lean ====
section
/-! DEFINITION. Faults of Thicket (R22 to R30, R33, R34, R129, R133, R134, R141, R154): suppression, lost contexts, cells taken
out of service, memory errors, the watchdog, and preemption (R122). -/

namespace Sys2Proof.Machine

/-- A fault record of a context, with CTX_STATUS. -/
def recCtx (s : State) (c : Nat) (code : W16) : State := record s code c (ctxAt s c).status

/-- An activation's outputs counted as suppressed: SUPPR and SUP_CNT, once in an activation (R150). -/
def Ctx.countSup (x : Ctx) : Ctx :=
  if (x.act.map Activation.suppressed).getD false then x
  else { x with status := incSat (setBit x.status 2 true) 23 16, act := x.act.map fun a => { a with suppressed := true } }

/-- The outputs of a context's activation are suppressed for this period (R23, R27, R141). -/
def suppress (s : State) (c : Nat) : State := updCtx s c fun x => if x.act.isSome then x.countSup else x

/-- Blocks of a region. -/
def blocksOf (g : Nat) : List Nat := (List.range 4).map fun i => 4 * g + i

/-- A context lost at chip level (R25, R27, R30, R33): it no longer runs, THK_LOST is recorded, and a context that writes PWM
shadows takes the drive to SAFE_STOP. -/
def loseCtx (s : State) (c : Nat) : State :=
  if (ctxAt s c).lost then s
  else
    let s := updCtx (dropAct s c) c fun x => { x with status := setBit x.status 7 true }
    let s := recCtx s c 0x5007
    if (ctxAt s c).outPwm then escalate s 0x5007 else s

/-- Contexts of the committed image placed on logical cell `k` of block `b`. -/
def usersOf (s : State) (b k : Nat) : List Nat :=
  (placed s).filterMap fun i => if (ctxAt s i.num).region == b / 4 && (imgCells i).contains (b % 4, k) then some i.num else none

/-- Contexts with an activation in progress on logical cell `k` of block `b` (R132, R133). -/
def activeOn (s : State) (b k : Nat) : List Nat :=
  (List.range 160).filter fun c =>
    let x := ctxAt s c
    match x.act with
    | none => false
    | some a => x.region == b / 4 && !a.ended.contains (b % 4, k) && (a.started.contains (b % 4, k) || (usersOf s b k).contains c)

/-- NOSPARE, INSVC, HELD and MAPPED of BLK_MAP (R130). -/
def Block.noSpare (b : Block) : Bool := bit b.map 47
def Block.inSvc (b : Block) (c : Nat) : Bool := bit b.map (48 + c)
def Block.heldCell (b : Block) : Nat := fld b.map 31 28

/-- The logical cell that a physical cell serves. -/
def Block.serves (b : Block) (c : Nat) : Option Nat := (List.range 15).find? fun k => b.mapped k && b.phys k == c

/-- The test slice of a block's held cell ends (R133). -/
def endCellSlice (s : State) (b : Nat) : State :=
  { s with prn := { s.prn with slices := s.prn.slices.filter fun p => p != (0, b) } }

/-- A physical cell out of service, without a substitute; a held cell leaves the block without a spare (R22, R25, R134). -/
def retire (s : State) (b c : Nat) : State :=
  updBlock s b fun x =>
    let m := setBit x.map (48 + c) false
    let m := match x.serves c with | some k => setBit m (32 + k) false | none => m
    { x with map := if x.heldCell = c then setBit m 47 true else m, stopped := true, switching := none }

/-- The held cell takes the place of a failed one (R23, R133): it starts from its reset state, and the block has no spare any
more. -/
def substitute (s : State) (b c k : Nat) : State :=
  updBlock s b fun x =>
    let h := x.heldCell
    { x with map := setBit (setBit x.map (48 + c) false) 47 true, lmap := setFld x.lmap (4 * k + 3) (4 * k) h,
             cells := x.cells.put h {}, stopped := true, switching := none }

/-- The activations in progress on a failed cell end, their outputs suppressed (R23, R133). -/
def endOn (s : State) (b k : Nat) : State := (activeOn s b k).foldl (fun s c => dropAct (updCtx s c Ctx.countSup) c) s

/-- A cell fault that no spare covers: the contexts placed on the cell are lost (R25). -/
def loseCell (s : State) (b c : Nat) : State :=
  let users := match (s.thk.blocks.at b).serves c with | some k => usersOf s b k | none => []
  users.foldl loseCtx (retire s b c)

/-- UNIT of a cell's record: block × 16 + physical cell. -/
def recCell (s : State) (b c : Nat) : State := record s 0x5001 (b * 16 + c) 0

/-- A cell out of service already cannot fault. -/
def faultyCells (s : State) (b : Nat) (l : List Nat) : List Nat := (l.dedup).filter (s.thk.blocks.at b).inSvc

/-- CELL_PARITY_ERROR (R22 to R25, R133, R134): `second` is a cell of the same block with a parity fault in the same cycle. -/
def execCellParityError (b : Fin 16) (cell : Fin 16) (second : Option (Fin 16)) (s : State) : Host.Outcome State Fault Refusal :=
  let blk := s.thk.blocks.at b.val
  match faultyCells s b.val (cell.val :: (second.toList.map Fin.val)) with
  | [] => .next s
  | [c] =>
    match blk.serves c with
    | none => .next (endCellSlice (retire (recCell s b.val c) b.val c) b.val)
    | some k =>
      if blk.noSpare then .next (loseCell (recCell s b.val c) b.val c)
      else
        let s := endOn (endCellSlice (recCell s b.val c) b.val) b.val k
        .next (substitute s b.val c k)
  | l => .next (l.foldl (fun s c => loseCell s b.val c) (l.foldl (fun s c => recCell s b.val c) (endCellSlice s b.val)))

/-- A single-bit error counted in CORR (R27, R129, R130). -/
def corrected (s : State) (b : Nat) : State := updBlock s b fun x => { x with map := incSat x.map 27 20 }

/-- The word of an image's list at an index, 0 where the image gives none. -/
def imageWord {n : Nat} (l : Option (List (Nat × BitVec n))) (i : Nat) : BitVec n := ((l.getD []).lookup i).getD 0

/-- COEF_ECC_ERROR (R27): `a` is partition × 512 + word. A second double-bit error in a reloaded word loses its readers. -/
def execCoefEccError (b : Fin 16) (a : Fin 8192) (double : Bool) (readers : List (Fin 160)) (s : State) :
    Host.Outcome State Fault Refusal :=
  if !double then .next (corrected s b.val)
  else
    let again := (s.thk.blocks.at b.val).coefReloaded.contains a.val
    let s := record ((readers.map Fin.val).foldl suppress s) 0x5002 b.val 0
    if again then .next ((readers.map Fin.val).foldl loseCtx s)
    else .next (updBlock s b.val fun x =>
      { x with coef := memSet x.coef a.val (imageWord (s.thk.body.map ImageBody.coef) (b.val * 8192 + a.val)),
               coefReloaded := a.val :: x.coefReloaded })

/-- OPMEM_ECC_ERROR (R129): as R27, with `a` bank × 256 + slot. -/
def execOpmemEccError (b : Fin 16) (a : Fin 4096) (double : Bool) (readers : List (Fin 160)) (s : State) :
    Host.Outcome State Fault Refusal :=
  if !double then .next (corrected s b.val)
  else
    let again := (s.thk.blocks.at b.val).opReloaded.contains a.val
    let s := record ((readers.map Fin.val).foldl suppress s) 0x5003 b.val 0
    if again then .next ((readers.map Fin.val).foldl loseCtx s)
    else .next (updBlock s b.val fun x =>
      { x with op := memSet x.op a.val (imageWord (s.thk.body.map fun i => blockWords i b.val) a.val),
               opReloaded := a.val :: x.opReloaded })

/-- The initial value of a region word in the active image (R141, R156). -/
def initialWord (s : State) (g a : Nat) : W18 := match s.thk.body with | some b => memGet (memPuts [] (regionWords b g)) a | none => 0

/-- The value that region word `a` takes after a double-bit error (R141): the image's initial value, or what the next delivery
has not yet overwritten, a free value. -/
def afterRmemError (s : State) (g a : Nat) : State :=
  if a < 0x400 then putBank (freeTaken s) g false a (BitVec.ofNat 18 (freeVal s))
  else putState s g a (initialWord s g a)

/-- Contexts of the committed image that read a region word: by a slot or a law's source, as an input, as a word of their own state area
or parameters, or with what their current loop latches of another context (R137, R139, R141). -/
def readersOf (s : State) (g a : Nat) : List Nat :=
  (placed s).filterMap fun i =>
    let x := ctxAt s i.num
    let own := x.region == g && ((imgEntries i).contains (a / 2) && decide (a < 0x400)
      || (decide (fld x.area 14 0 ≤ a) && decide (a < fld x.area 14 0 + fld x.area 30 16))
      || (decide (x.parBase ≤ a) && decide (a < x.parBase + 16)))
    let o := (memGet (s.thk.sigOwner.at g) a).toNat
    let peer := inSignal a && o != 0 && (imgPeers (placed s) i).contains (o - 1)
    if own || peer || (imgLoads i).contains (g, a) then some i.num else none

/-- The effect of a double-bit error on one reader (R141). -/
def rmemReader (s : State) (c : Nat) : State :=
  updCtx (suppress s c) c fun x => { x with status := setBit x.status 3 true }

/-- A double-bit error in region memory (R33, R141). -/
def rmemDouble (s : State) (g a : Nat) (readers : List Nat) : State :=
  let s := record (readers.foldl rmemReader s) 0x5004 g 0
  let s := afterRmemError s g a
  if readers.any fun c => (ctxAt s c).outPwm then escalate s 0x5004 else s

/-- REGION_MEMORY_ECC_ERROR (R135, R141): a single-bit error is corrected. -/
def execRegionMemoryEccError (g : Fin 4) (a : Fin 32768) (double : Bool) (readers : List (Fin 160)) (s : State) :
    Host.Outcome State Fault Refusal :=
  if double then .next (rmemDouble s g.val a.val (readers.map Fin.val)) else .next s

/-- WATCHDOG_DEADLINE (R29, R30, R123, R138, R154): an activation not complete by its deadline ends; the second period in a row
loses the context. -/
def execWatchdogDeadline (c : Fin 160) (s : State) : Host.Outcome State Fault Refusal :=
  let x := ctxAt s c.val
  if x.act.isNone then .next s
  else
    let s := updCtx s c.val fun x => { x.countSup with overran := true }
    let s := updCtx s c.val fun x => { x with status := incSat (setBit x.status 1 true) 31 24 }
    let s := recCtx (dropAct s c.val) c.val 0x5005
    .next (if x.overran then loseCtx s c.val else s)

/-- PREEMPTION (R122): a released activation of higher priority, with its part on the logical cell still to begin, takes the cell of a
running one that stands behind a slot marked PP. -/
def execPreemption (by_ : Fin 160) (at_ : CellSel) (s : State) : Host.Outcome State Fault Refusal :=
  let c := at_.ctx.val
  let a := (ctxAt s c).act.getD {}
  let q := (ctxAt s by_.val).act.getD {}
  let cell := (at_.block.val, at_.lcell.val)
  if (ctxAt s by_.val).act.isSome && (ctxAt s c).act.isSome && (ctxAt s by_.val).region == (ctxAt s c).region && outranks s by_.val c
      && q.open_ cell && !q.started.contains cell && a.open_ cell && a.started.contains cell && a.pp.contains cell && !isPreempted s c cell
  then .next { s with thk := { s.thk with preempted := ⟨cell.1, cell.2, c, by_.val⟩ :: s.thk.preempted } }
  else .next s

end Sys2Proof.Machine
end

