-- ==== Sys2Proof/Machine/Pruner.lean ====
section
/-! DEFINITION. The self-test scheduler Pruner (R509 to R525) and the rotation of the Thicket cells (R131, R132). Kind `k` of the
model is kind 0x01 + k of the table. -/

namespace Sys2Proof.Machine

/-- Pruner's records changed. -/
def updPrn (s : State) (f : Pruner → Pruner) : State := { s with prn := f s.prn }

/-- Number of units of each kind (R511): blocks; blocks and region memories; Icsis SRAM and queue SRAM; the pair; groups; DSM
inputs; the active area. -/
def kindUnits : List Nat := [16, 20, 2, 1, 4, 12, 1]

/-- A kind runs in the present state (R511). -/
def kindActive (s : State) (k : Nat) : Bool :=
  if k < 3 then fromStandbyOn s.drv.st
  else if k = 3 then fromStandbyOn s.drv.st && !s.icp.split && !s.icp.dbg
  else countState s.drv.st

/-- REDUCED (R518). -/
def reduced (s : State) (k : Nat) : Bool :=
  kindActive s k && ((s.prn.open_.any fun p => p.1 == k) || (k == 0 && s.thk.blocks.toList.any Block.noSpare))

/-- The instant of the last completed run on a unit; reset where there has been none. -/
def lastRun (s : State) (k u : Nat) : Nat := ((s.prn.ran.find? fun p => p.1 == k && p.2.1 == u).map fun p => p.2.2).getD 0

/-- AGE (R520), in ms of the time base; in COPPICE the records stand as they were at its entry (R523). -/
def ageOf (s : State) (k : Nat) : Nat :=
  if !fromStandbyOn s.drv.st then 0
  else min 65535 ((s.clk.tb - ((List.range (kindUnits.getD k 0)).map (lastRun s k)).foldl min s.clk.tb) / 4000000)

/-- PRN_KREC (R520). -/
def krec (s : State) (k : Nat) : W64 :=
  let w := setFld (s.prn.krec.at k) 23 8 (ageOf s k)
  setBit (setBit w 1 (reduced s k)) 0 (kindActive s k)

/-- PRN_STAT (R521). -/
def prnStat (s : State) : W32 :=
  BitVec.ofNat 32 (s.aon.sfail.toNat * 2 ^ 24 + b2n (scanPol s) * 2 ^ 23 + b2n s.aon.scanSeen * 2 ^ 22 + b2n s.prn.startOk * 2 ^ 21
    + bitsOf ((List.range 7).map (reduced s)))

/-- A fault record of a unit of a kind. -/
def recPrn (s : State) (u : Nat) (code : W16) : State := record s code u (prnStat s)

/-- A group under test is initialised anew from its configuration records; what is pending stays (R516, R517). -/
def AcqGroup.afterTest (g : AcqGroup) : AcqGroup := { g with test := false, pos := 0, rep := 0, started := false }.adopt.takePend

/-- Consecutive aborts on a unit. -/
def abortsOf (s : State) (k u : Nat) : Nat := ((s.prn.aborts.find? fun p => p.1 == k && p.2.1 == u).map fun p => p.2.2).getD 0

/-- The triggers of a group that the PWM values predict all lie more than the slice budget of 4 µs ahead (R511, R516). -/
def triggerFree (s : State) (u : Nat) : Bool :=
  let g := s.acq.groups.at u
  (gTrig g.gcfg :: g.inj.toList.map jTrig).all fun src => (untilNext s src).all fun d => decide (25600 < d)

/-- The conditions for a slice to start (R511, R514, R516). The excitation instants of a resolver, whose phase the spec does not tie to
the time base, are time, which the event's arrival stands for (log entry 46). -/
def sliceOk (s : State) (k u : Nat) : Bool :=
  serving s && kindActive s k && decide (u < kindUnits.getD k 0) && !s.prn.slices.contains (k, u)
    && (if k = 0 then !(s.thk.blocks.at u).noSpare && !(s.thk.blocks.at u).stopped && (s.thk.blocks.at u).switching.isNone
        else if k = 4 then
          let g := s.acq.groups.at u
          (!groupRuns s u || (g.idle && triggerFree s u)) && g.boundary && !g.pend && g.jpend == 0 && !g.calDue && !g.calBusy
        else true)

/-- PRUNER_SLICE_START (R516). -/
def execPrunerSliceStart (kind : Fin 7) (unit : Fin 20) (s : State) : Host.Outcome State Fault Refusal :=
  if sliceOk s kind.val unit.val then
    let s := updPrn s fun p =>
      { p with slices := (kind.val, unit.val) :: p.slices
               krec := p.krec.upd kind.val fun w => setFld w 31 24 (min 255 (abortsOf s kind.val unit.val)) }
    .next (if kind.val = 4 then updGroup s unit.val fun g => { g with test := true } else s)
  else .next s

/-- An abort counted (R517, R518, R520). -/
def countAbort (s : State) (k u : Nat) : State :=
  let n := abortsOf s k u + 1
  let s := updPrn s fun p =>
    { p with slices := p.slices.filter fun q => q != (k, u)
             open_ := if p.open_.contains (k, u) then p.open_ else (k, u) :: p.open_
             aborts := (k, u, n) :: p.aborts.filter fun q => !(q.1 == k && q.2.1 == u)
             krec := p.krec.upd k fun w => setFld (incSat w 39 32) 31 24 (min 255 n) }
  if n = 16 then recPrn s u 0xC082 else s

/-- PRUNER_SLICE_ABORT (R517). -/
def execPrunerSliceAbort (kind : Fin 7) (unit : Fin 20) (s : State) : Host.Outcome State Fault Refusal :=
  if s.prn.slices.contains (kind.val, unit.val) then
    let s := countAbort s kind.val unit.val
    .next (if kind.val = 4 then updGroup s unit.val AcqGroup.afterTest else s)
  else .next s

/-- A run counted as completed (R518, R520). -/
def countRun (s : State) (k u : Nat) : State :=
  updPrn s fun p =>
    { p with slices := p.slices.filter fun q => q != (k, u)
             open_ := p.open_.filter fun q => q != (k, u)
             aborts := p.aborts.filter fun q => !(q.1 == k && q.2.1 == u)
             ran := (k, u, s.clk.tb) :: p.ran.filter fun q => !(q.1 == k && q.2.1 == u)
             krec := p.krec.upd k fun w => setFld (setFld w 63 48 (fld w 63 48 + 1)) 31 24 0 }

/-- TMRAMP (R473). -/
def tmRamp (s : State) : Nat := fld (sfWord s 9) 12 10

/-- The monitor stop (R469). -/
def monitorStop (s : State) : State := if s.drv.st == .running then askRamp s .monitor (tmRamp s) else s

/-- Stream entries of a failed group or input (R519). -/
def failedSlots (s : State) (k u : Nat) : List Nat :=
  if k = 4 then groupSlots (s.acq.groups.at u).want else dsmSlots (s.acq.dsm.at u).cfg

/-- Contexts that read a failed source's entries, region by region: their escalations are recorded in the order RG0 to RG3 (R33). -/
def failedReaders (s : State) (k u : Nat) : List Nat :=
  (List.range 4).flatMap fun g => (placed s).filterMap fun i =>
    if (ctxAt s i.num).region == g && (imgEntries i).any (failedSlots s k u).contains then some i.num else none

/-- What follows a failed run (R519). A double-bit error that a scrub of the Thicket memories finds is an event of its own; one
in queue SRAM concerns the entries of Q0 to Q7 or others, by a free value (log entry 15). -/
def failReaction (s : State) (k u : Nat) : State :=
  match k with
  | 0 => if (s.thk.blocks.at u).noSpare then s else retire s u (s.thk.blocks.at u).heldCell
  | 1 => s
  | 2 => if u = 0 then escalate s 0xC080 else if freeVal s % 2 = 1 then escalate (freeTaken s) 0xC080 else freeTaken s
  | 3 => sigDiff (freeTaken s) (BitVec.ofNat 32 (freeVal s))
  | 4 =>
    let s := (failedReaders s 4 u).foldl loseCtx s
    if u = 1 && tmen s then monitorStop s else s
  | 5 => (failedReaders s 5 u).foldl loseCtx s
  | _ => escalate (recPrn { s with thk := { s.thk with activeBad := true } } u 0xC083) 0xC083

/-- A failed run recorded (R519, R520). -/
def countFail (s : State) (k u : Nat) : State :=
  recPrn (updPrn s fun p => { p with krec := p.krec.upd k fun w => setBit (setFld (incSat w 47 40) 7 4 u) 2 true }) u 0xC080

/-- The next logical cell in ascending cyclic order that is mapped (R514). -/
def Block.nextMapped (b : Block) : Option Nat := ((List.range 15).map fun i => (b.nextK + i) % 15).find? b.mapped

/-- Pruner names the next logical cell once the held cell has passed (R132, R514). -/
def nameNext (s : State) (b : Nat) : State :=
  updBlock s b fun x => match x.nextMapped with | some k => { x with switching := some k, nextK := (k + 1) % 15 } | none => x

/-- A completed run (R514, R519). -/
def runDone (s : State) (k u : Nat) (pass : Bool) : State :=
  let s := countRun s k u
  let s := if k = 4 then updGroup s u AcqGroup.afterTest else s
  if pass then (if k = 0 && !(s.thk.blocks.at u).noSpare then nameNext s u else s)
  else failReaction (countFail s k u) k u

/-- PRUNER_SLICE_COMPLETE (R519). -/
def execPrunerSliceComplete (kind : Fin 7) (unit : Fin 20) (pass : Bool) (s : State) : Host.Outcome State Fault Refusal :=
  if serving s && kindActive s kind.val && s.prn.slices.contains (kind.val, unit.val) then .next (runDone s kind.val unit.val pass)
  else .next s

/-- Test intervals of the kinds in ms (R511). -/
def kindEvery : List Nat := [50, 100, 200, 32, 1000, 120, 10000]

/-- A unit may have exceeded its test interval (R518): no run has completed on it for that long. A unit of kind 0x01 is a physical cell,
whose runs are not kept apart. -/
def dueOver (s : State) (k u : Nat) : Bool := k == 0 || decide (lastRun s k u + 4000000 * kindEvery.getD k 0 < s.clk.tb)

/-- PRN_OVERDUE (R518). -/
def execPrnOverdue (kind : Fin 7) (unit : Fin 20) (s : State) : Host.Outcome State Fault Refusal :=
  let k := kind.val
  let u := unit.val
  if serving s && kindActive s k && decide (u < kindUnits.getD k 0) && dueOver s k u then
    .next (recPrn (updPrn s fun p =>
      { p with open_ := if p.open_.contains (k, u) then p.open_ else (k, u) :: p.open_
               krec := p.krec.upd k fun w => setBit w 3 true }) u 0xC081)
  else .next s

/-- The switch of a logical cell to the held cell (R132): the words in its link queues stay with the logical cell. -/
def Block.switchTo (b : Block) (k : Nat) : Block :=
  let h := b.heldCell
  let old := b.phys k
  let q := b.cells.at old
  { b with lmap := setFld b.lmap (4 * k + 3) (4 * k) h, map := setFld b.map 31 28 old, switching := none,
           cells := b.cells.upd h fun y => { y with qPrev := q.qPrev, qNext := q.qNext, qPair := q.qPair } }

/-- CELL_SWITCH (R132): at a quiet point of the logical cell that Pruner has named. -/
def execCellSwitch (b : Fin 16) (k : Fin 15) (s : State) : Host.Outcome State Fault Refusal :=
  let x := s.thk.blocks.at b.val
  let quiet := (List.range 160).all fun c =>
    match (ctxAt s c).act with
    | none => true
    | some a => (ctxAt s c).region != b.val / 4 || !a.started.contains (b.val % 4, k.val) || a.ended.contains (b.val % 4, k.val)
  if x.switching == some k.val && !x.noSpare && !x.stopped && x.mapped k.val && quiet then .next (updBlock s b.val fun x => x.switchTo k.val)
  else .next s

/-- CELL_SWITCH_ABANDON (R132, R514): counted as an abort of kind 0x01; the switch is tried again. -/
def execCellSwitchAbandon (b : Fin 16) (k : Fin 15) (s : State) : Host.Outcome State Fault Refusal :=
  if (s.thk.blocks.at b.val).switching == some k.val then .next (countAbort s 0 b.val) else .next s

/-- RESULT of QUERY (R523). -/
def selftestResult (s : State) : List Byte :=
  leBytes 4 (prnStat s).toNat ++ [0, 0, 0, 0] ++ (List.range 7).flatMap fun k => leBytes 8 (krec s k).toNat

/-- DIA_SELFTEST QUERY (R522, R523). -/
def execDiaSelftestQuery (r : Req) (s : State) : Host.Outcome State Fault Refusal :=
  .next (runJob 0x6001 r s (guardSt (opForm r 8 0 && zeroAt r 9 7) stRange (.done s stOk (selftestResult s))))

/-- The units that RUN names (R522). -/
def runUnits (k u : Nat) : List Nat := if u = 0xFF then List.range (kindUnits.getD k 0) else [u]

/-- DIA_SELFTEST RUN (R481, R522, R523): kind 0x48 acts as SAF_TEST; another kind makes one run, with `outcome` 0 passed, 1
failed, 2 kept from completing by aborts. -/
def execDiaSelftestRun (r : Req) (outcome : Fin 3) (chPass : BitVec 16) (cmpPass : Byte) (s : State) : Host.Outcome State Fault Refusal :=
  let kind := fieldAt r 9 1
  let k := kind - 1
  let u := fieldAt r 10 1
  let form := opForm r 8 1 && zeroAt r 11 5 && ((decide (1 ≤ kind) && decide (kind ≤ 7)) || kind == 0x48)
  if kind = 0x48 then
    let result := leBytes 2 chPass.toNat ++ [cmpPass]
    .next (runJob 0x6001 r s
      (guardSt (form && (u == 0 || u == 0xFF)) stRange
        (guardSt (s.drv.st == .configured && !s.icp.split) stBusy
          (if chPass == 0xFFFF && cmpPass == 0xFF then .done s stOk result else .done (recBlk s noUnit 0x3051) stFailed result))))
  else
    .next (runJob 0x6001 r s
      (guardSt (form && (u == 0xFF || decide (u < kindUnits.getD k 0))) stRange
        (guardSt (s.drv.st != .coppice && kindActive s k) stBusy
          (let us := runUnits k u
           match outcome with
           | 0 => .done (us.foldl (fun s v => runDone s k v true) s) stOk [0]
           | 1 => .done (us.foldl (fun s v => runDone s k v (v != us.getLastD 0)) s) stFailed [1]
           | 2 => .done (us.foldl (fun s v => countAbort s k v) s) stFailed [2]))))

/-- PRN_KREC under a W1C mask (R520): clearing FAIL also sets FAILS to 0. -/
def clearKrec (m : Nat) (w : W64) : W64 :=
  let w := w1c w (BitVec.ofNat 64 m)
  if m.testBit 2 then setFld w 47 40 0 else w

/-- DIA_SELFTEST STATUS_CLR (R520, R522, R523): clearing FAIL also clears FAILS. -/
def execDiaSelftestStatusClr (r : Req) (s : State) : Host.Outcome State Fault Refusal :=
  let kind := fieldAt r 9 1
  let m := fieldAt r 12 4
  .next (runJob 0x6001 r s
    (guardSt (opForm r 8 2 && decide (1 ≤ kind) && decide (kind ≤ 7) && zeroAt r 10 2 && (m ||| 12) == 12) stRange
      (guardSt (s.drv.st != .coppice) stBusy
        (ok (updPrn s fun p => { p with krec := p.krec.upd (kind - 1) (clearKrec m) })))))

end Sys2Proof.Machine
end

