-- ==== Sys2Proof/Machine/Arm.lean ====
section
/-! DEFINITION. CFG_DRIVE (R18 to R21), CFG_RELEASE (R80), arming and running (R98, R238, R240), and host silence (R47). -/

namespace Sys2Proof.Machine

/-- The drive configuration that a CFG_DRIVE payload gives (R18). -/
structure DriveReq where
  arrange : Nat
  legs : Byte
  auxuse : Byte
  varmMin : Nat
  varmMax : Nat
  stopT : Nat
  routeAcq : W16
  routePos : W16
  routeDsm : BitVec 48
  deriving DecidableEq, Repr

/-- The payload of CFG_DRIVE (R18). -/
def driveReq (r : Req) : DriveReq :=
  { arrange := fieldAt r 8 1, legs := BitVec.ofNat 8 (fieldAt r 9 1), auxuse := BitVec.ofNat 8 (fieldAt r 10 1),
    varmMin := fieldAt r 12 2, varmMax := fieldAt r 14 2, stopT := fieldAt r 16 2,
    routeAcq := BitVec.ofNat 16 (fieldAt r 20 2), routePos := BitVec.ofNat 16 (fieldAt r 22 2),
    routeDsm := BitVec.ofNat 48 (fieldAt r 24 6) }

/-- LEGS fits ARRANGE (R19). -/
def legsOk (d : DriveReq) : Bool :=
  if d.arrange = 0 then d.legs == 0x07 || d.legs == 0x3F else decide (d.arrange ≤ 2) && d.legs == 0x3F

/-- The arming window lies inside the trips (R19, R440). -/
def windowOk (s : State) (d : DriveReq) : Bool :=
  decide (d.varmMin < d.varmMax) && decide (d.varmMax ≤ 2047) && (ovt s == 0 || decide (d.varmMax < ovt s))
    && (uvt s == 0 || decide (uvt s < d.varmMin))

/-- CFG_DRIVE changes what a committed image depends on (R20). -/
def changesImage (s : State) (d : DriveReq) : Bool :=
  d.arrange != s.drv.arrange || d.legs != s.drv.legs || d.auxuse != s.drv.auxuse || d.routeAcq != s.drv.routeAcq
    || d.routePos != s.drv.routePos || d.routeDsm != s.drv.routeDsm

/-- The drive configuration taken over, by Icsis and by Blackthorn (R447). -/
def setDrive (s : State) (d : DriveReq) : State :=
  { s with
    drv := { s.drv with arrange := d.arrange, legs := d.legs, auxuse := d.auxuse, varmMin := d.varmMin, varmMax := d.varmMax,
                        stopT := d.stopT, routeAcq := d.routeAcq, routePos := d.routePos, routeDsm := d.routeDsm }
    saf := { s.saf with blkArr := d.arrange, blkLegs := d.legs } }

/-- CFG_DRIVE (R18 to R20, R447, R476): `intact` says that Blackthorn confirmed what it was passed. -/
def execCfgDrive (r : Req) (intact : Bool) (s : State) : Host.Outcome State Fault Refusal :=
  let d := driveReq r
  .next (runJob 0x1010 r s
    (guardSt (formOk r 28 && d.auxuse &&& 0xF8 == 0 && zeroAt r 11 1 && zeroAt r 18 2 && zeroAt r 30 6 && decide (1 ≤ d.stopT)
        && legsOk d && windowOk s d) stRange
      (guardSt (s.drv.st == .standby || !changesImage s d) stBusy
        (if intact then ok (setDrive s d) else .done (recBlk s noUnit 0x3050) stFailed []))))

/-- Bytes 8 to 35 of the CFG_DRIVE payload that would set the present drive configuration (R86). -/
def driveBytes (d : Drive) : List Byte :=
  leBytes 1 d.arrange ++ [d.legs, d.auxuse, 0] ++ leBytes 2 d.varmMin ++ leBytes 2 d.varmMax ++ leBytes 2 d.stopT ++ [0, 0]
    ++ leBytes 2 d.routeAcq.toNat ++ leBytes 2 d.routePos.toNat ++ leBytes 6 d.routeDsm.toNat ++ [0, 0, 0, 0, 0, 0]

/-- CFG_RELEASE (R80, R95, R436): every context stops; the image stays in the active area. -/
def execCfgRelease (r : Req) (s : State) : Host.Outcome State Fault Refusal :=
  let check : Option (W16 × List Byte) :=
    if !formOk r 0 then some (stRange, []) else if s.prt.dis != .idle then some (stBusy, []) else none
  .next (runStateJob 0x1051 r s .standby check id)

/-- The arming conditions of R98 in their order. -/
def armConds (s : State) : List Bool :=
  [!stoDemand s && enabledAll s,
   decide (s.drv.varmMin ≤ s.prt.dcsns) && decide (s.prt.dcsns ≤ s.drv.varmMax),
   (List.range 16).all fun ch => !channelUsed s ch || railsGood s ch,
   (List.range 4).all fun o => !required s o || (s.pos.obs.at o).valid,
   s.prn.startOk,
   (List.range 32).all fun n => decide (effective s.thm n < 2400),
   s.io.latched.isEmpty && !(s.io.jobs.any fun j => j.opcode == 0x4003)]

/-- The number of the first arming condition that is not met (R98); the empty window of reset fails the second (R21). -/
def armUnmet (s : State) : Option Nat :=
  if s.drv.varmMin = 0 ∧ s.drv.varmMax = 0 ∧ (armConds s).getD 0 false then some 2
  else ((armConds s).findIdx? fun c => !c).map (· + 1)

/-- The check of an arming command: its form, and the conditions of R98. -/
def armCheck (s : State) (r : Req) (busy : Bool) : Option (W16 × List Byte) :=
  if !formOk r 0 then some (stRange, [])
  else if busy then some (stBusy, [])
  else (armUnmet s).map fun n => (stFailed, leBytes 1 n)

/-- CTL_ARM (R98, R436, R502). -/
def execCtlArm (r : Req) (s : State) : Host.Outcome State Fault Refusal :=
  .next (runStateJob 0x2001 r s .armed (armCheck s r (s.prt.dis != .idle || s.icp.split)) id)

/-- CTL_DISARM (R80). -/
def execCtlDisarm (r : Req) (s : State) : Host.Outcome State Fault Refusal :=
  .next (runStateJob 0x2002 r s .configured (if formOk r 0 then none else some (stRange, [])) id)

/-- The DMD law of a machine in the committed image. -/
def dmdInst (s : State) (m : Nat) : Option (CtxImg × LawInst) :=
  (placed s).findSome? fun i => (i.laws.find? fun l => l.kind == .dmd && l.machine == m).map fun l => (i, l)

/-- The current-loop law of a machine in the committed image. -/
def currentInst (s : State) (m : Nat) : Option (CtxImg × LawInst) :=
  (placed s).findSome? fun i => (i.laws.find? fun l => isCurrent l.kind && l.machine == m).map fun l => (i, l)

/-- The observer whose streams fill a stream entry (R330). -/
def slotObs (s : State) (e : Nat) : Option Nat :=
  (List.range 4).find? fun o => (obsSlots (s.pos.obs.at o).cfgA (s.pos.obs.at o).cfgB).contains e

/-- The observer that serves a DMD's ANG_SRC: the source's own, or its fallback (R226, R324). -/
def angObs (s : State) (l : LawInst) : Option Nat :=
  (l.angSrc.bind (slotObs s)).map fun o => ((s.pos.obs.at o).fallbk).getD o

/-- ANG_SRC reports a valid absolute angle (R241). -/
def absAngle (s : State) (l : LawInst) : Bool :=
  match angObs s l with | some o => (s.pos.obs.at o).valid && (s.pos.obs.at o).abs | none => false

/-- MTYPE of the machine's current loop. -/
def mtypeOf (s : State) (m : Nat) : Nat := ((currentInst s m).map fun p => p.2.mtype).getD 0

/-- The catch of a machine as CTL_RUN starts it (R240, R241): stage 1, with back-EMF detection where no valid absolute angle
is to be had and the machine is no induction machine. -/
def startCatch (s : State) (m : Nat) : Catch :=
  match dmdInst s m with
  | some (_, l) => { stage := 1, bemf := mtypeOf s m != 2 && !absAngle s l }
  | none => {}

/-- What entry into RUNNING does to the DMD laws: the curves are off, and the mode and source of the last CTL_MODE are in force
(R232, R238). -/
def LawRun.atRun (d : Demand) (x : LawRun) : LawRun :=
  { x with curveOn := Vector.replicate 4 false, mode := d.mode, src := d.src, srcArg := d.srcArg }

/-- What an applied CTL_RUN does beside the change of state. -/
def applyRun (s : State) : State :=
  mapLaws { s with dmd := { s.dmd with catch_ := #v[startCatch s 0, startCatch s 1] } } fun _ x => x.atRun s.dmd

/-- CTL_RUN (R98, R232, R238, R240). -/
def execCtlRun (r : Req) (s : State) : Host.Outcome State Fault Refusal :=
  .next (runStateJob 0x2003 r s .running (armCheck s r false) applyRun)

/-- HOST_SILENCE_TIMEOUT (R47): one record in a silent spell; from STANDBY to RUNNING the drive goes to SAFE_STOP. -/
def execHostSilenceTimeout (s : State) : Host.Outcome State Fault Refusal :=
  if serving s && fromStandbyOn s.drv.st && s.io.hostWd != 0 && !s.io.silent then
    let s := record { s with io := { s.io with silent := true } } 0x3010 noUnit 0
    .next (if s.drv.st == .safeStop || s.drv.st == .fault then s else arrive s .stopReq 0x3010)
  else .next s

end Sys2Proof.Machine
end

