-- ==== Sys2Proof/Machine/Params.lean ====
section
/-! DEFINITION. The parameter rules of the library laws (R170 to R174, R220 to R222, R228) and the ranges of their constants
(R163, R188, R226), and what a law starts from (R147). -/

namespace Sys2Proof.Machine

/-- A value from 0 to 131,071. -/
def nonneg (v : Int) : Bool := decide (0 ≤ v) && decide (v ≤ 131071)

/-- Thresholds of the sets in use ascend strictly (R174). -/
def thresholdsOk (p : Nat → Int) (first nsets : Nat) : Bool :=
  (List.range (nsets - 2)).all fun i => decide (p (first + i) < p (first + i + 1))

/-- PI_DQ's parameters P0 to P11 (R170). -/
def piDqOk (p : Nat → Int) : Bool :=
  (List.range 9).all (fun i => nonneg (p i)) && decide (0 ≤ p 9) && decide (p 9 ≤ 16384) && nonneg (p 10) && nonneg (p 11)

/-- P12 to P15 of the current-loop laws (R221, R222). -/
def focOk (l : LawInst) (p : Nat → Int) : Bool :=
  nonneg (p 12) && nonneg (p 13) && decide (-131072 ≤ p 14) && decide (p 14 ≤ 0) && nonneg (p 15) && decide (-(p 15) ≤ p 14)
    && (l.kind == .fcs6 || l.ovm != 0 || decide (p 12 ≤ 118869))

/-- PI_SCH (R171, R174). -/
def piSchOk (l : LawInst) (p : Nat → Int) : Bool :=
  (List.range 11).all (fun i => nonneg (p i)) && decide (0 ≤ p 11) && decide (p 11 ≤ 16384) && nonneg (p 12) && decide (p 14 ≤ p 13)
    && p 15 == 0 && thresholdsOk p 8 l.nsets

/-- PID (R172, R174). -/
def pidOk (p : Nat → Int) : Bool :=
  (List.range 5).all (fun i => nonneg (p i)) && decide (p 6 ≤ p 5) && (List.range 9).all fun i => p (7 + i) == 0

/-- The stability rule of one NOTCH3 stage in halved words (R174). -/
def stageStable (p : Nat → Int) (i : Nat) : Bool :=
  let a1 := p (5 * i + 3)
  let a2 := p (5 * i + 4)
  decide (|a2| < 65536) && decide (|a1| < 65536 + a2)

/-- Stage `i` of NOTCH3 is bypassed (R173). -/
def bypassed (p : Nat → Int) (i : Nat) : Bool := (p 15).toNat.testBit i

/-- NOTCH3 (R173, R174). -/
def notchOk (p : Nat → Int) : Bool :=
  decide (0 ≤ p 15) && decide (p 15 ≤ 7) && (List.range 3).all fun i => bypassed p i || stageStable p i

/-- DMD (R228). -/
def dmdParamsOk (p : Nat → Int) : Bool :=
  (List.range 4).all (fun i => nonneg (p i) && decide (1 ≤ p i)) && (List.range 7).all (fun i => nonneg (p (4 + i)))
    && (List.range 5).all (fun i => p (11 + i) == 0) && decide (p 8 ≤ p 6) && decide (p 8 ≤ p 7)

/-- The rules of a law on its context's parameters. -/
def lawParamsOk (l : LawInst) (p : Nat → Int) : Bool :=
  match l.kind with
  | .piSch => piSchOk l p
  | .pid => pidOk p
  | .notch3 => notchOk p
  | .foc3 => piDqOk p && focOk l p
  | .foc6 => piDqOk p && focOk l p
  | .fcs6 => nonneg (p 0) && nonneg (p 1) && (List.range 10).all (fun i => p (2 + i) == 0) && focOk l p
  | .harm => true
  | .dmd => dmdParamsOk p

/-- A command that writes parameters `first` to `first + n − 1` writes a NOTCH3 stage whole or not at all (R174). -/
def notchWhole (l : LawInst) (first n : Nat) : Bool :=
  l.kind != .notch3 || (List.range 3).all fun i =>
    let k := ((List.range n).filter fun j => decide (5 * i ≤ first + j) && decide (first + j < 5 * i + 5)).length
    k == 0 || k == 5

/-- A law's values before its first release since entry into RUNNING (R147): `x` as the image's initial values give them, but for
those that a rule starts at 0 (R169, R176, R177, R200, R204, R238); DMD keeps its mode and source (R232). -/
def primedRun (x old : LawRun) : LawRun :=
  { x with gset := 0, kpLast := [], started := false, idFw := 0, psi := 0, fluxed := false, stopping := false,
           curveOn := Vector.replicate 4 false, mode := old.mode, src := old.src, srcArg := old.srcArg }

/-- A value of `lo` to `hi`. -/
def within_ (lo hi : Int) (v : Int) : Bool := decide (lo ≤ v) && decide (v ≤ hi)

/-- The constants of R163 that a law uses lie in their ranges. -/
def loopConstOk (l : LawInst) : Bool :=
  decide (l.shkp ≤ 13) && decide (l.nki ≤ 17) && decide (l.shkd ≤ 13) && decide (l.awm ≤ 1) && decide (1 ≤ l.nsets)
    && decide (l.nsets ≤ (if l.kind = .piSch then 4 else if l.kind = .foc3 || l.kind = .foc6 then 2 else 1))

/-- The constants of R188 that every current loop has lie in their ranges. -/
def machineConstOk (l : LawInst) : Bool :=
  decide (l.mtype ≤ 2) && [l.psi, l.ld, l.lq, l.rs, l.kt, l.lm, l.tr, l.vfw, l.vdcMin, l.kCc, l.ccMax].all nonneg
    && [l.shpsi, l.shl, l.shkt, l.shm, l.shlx].all (fun n => decide (n ≤ 7)) && decide (l.nfw ≤ 17) && decide (l.ovm ≤ 1)

/-- The constants of R226 lie in their ranges. -/
def demandConstOk (l : LawInst) : Bool :=
  decide (l.nrmp ≤ 17) && decide (500 ≤ l.catchWin) && decide (l.catchWin ≤ 20000) && decide (10 ≤ l.alignT) && decide (l.alignT ≤ 1000)
    && decide (l.vphSrc.length ≤ 6) && l.vphSrc.all (fun e => decide (e < 512)) && l.angSrc.toList.all fun e => decide (e < 512)

/-- The constants of a law instance lie in the ranges that the spec gives them (R163, R188, R226). -/
def lawConstOk (l : LawInst) : Bool :=
  match l.kind with
  | .piSch | .pid | .notch3 => loopConstOk l
  | .foc3 | .foc6 => loopConstOk l && machineConstOk l
  | .fcs6 => machineConstOk l
  | .harm => decide (l.hord.length ≤ 4) && l.hord.all (fun n => decide (1 ≤ n) && decide (n ≤ 48)) && decide (l.hscale ≤ 1) && nonneg l.hrate
  | .dmd => demandConstOk l

end Sys2Proof.Machine
end

