-- ==== Sys2Proof/Machine/Image.lean ====
section
/-! DEFINITION. Loading a configuration (R128, R155 to R160): CFG_IMAGE, CFG_COMMIT and CFG_CONTEXT. -/

namespace Sys2Proof.Machine

/-- Thicket changed. -/
def updThk (s : State) (f : Thicket → Thicket) : State := { s with thk := f s.thk }

/-- The staged image is complete (R157). -/
def stagedWhole (t : Thicket) : Bool := t.stagingLen != 0 && t.staging.length == t.stagingLen

/-- DIGEST matches the body (R156). -/
def imgDigestOk (d : List Byte) : Bool :=
  let len := imgU d 8 4
  decide (192 ≤ len) && decide (len ≤ d.length) && sha512 (flashBytes d 192 (len - 192)) == flashBytes d 64 64

/-- CFG_IMAGE BEGIN (R156, R157): LENGTH holds at least the header. -/
def execCfgImageBegin (r : Req) (s : State) : Host.Outcome State Fault Refusal :=
  let n := fieldAt r 12 4
  .next (runJob 0x1011 r s
    (guardSt (opForm r 8 0 && zeroAt r 9 3 && decide (192 ≤ n) && decide (n ≤ 1048576)) stRange
      (ok (updThk s fun t => { t with staging := [], stagingLen := n }))))

/-- CFG_IMAGE DATA (R157). -/
def execCfgImageData (r : Req) (s : State) : Host.Outcome State Fault Refusal :=
  let n := r.len - 8
  let o := fieldAt r 12 4
  .next (runJob 0x1011 r s
    (guardSt (opForm r (8 + n) 1 && zeroAt r 9 3 && decide (8 ≤ n) && decide (n ≤ 3576) && n % 8 == 0
        && o == s.thk.staging.length && decide (o + n ≤ s.thk.stagingLen)) stRange
      (ok (updThk s fun t => { t with staging := t.staging ++ bytesAt r 16 n }))))

/-- CFG_IMAGE FROM_FLASH (R157): an empty slot leaves an empty staging area. -/
def execCfgImageFromFlash (r : Req) (s : State) : Host.Outcome State Fault Refusal :=
  let k := fieldAt r 9 1
  let img := s.nv.slots.at k
  .next (runJob 0x1011 r s
    (guardSt (opForm r 8 2 && decide (k < 4) && zeroAt r 10 6) stRange
      (ok (updThk s fun t => { t with staging := img, stagingLen := img.length }))))

/-- CFG_IMAGE TO_FLASH (R157, R537). -/
def execCfgImageToFlash (r : Req) (s : State) : Host.Outcome State Fault Refusal :=
  let k := fieldAt r 9 1
  .next (runJob 0x1011 r s
    (guardSt (opForm r 8 3 && decide (k < 4) && zeroAt r 10 6) stRange
      (if stagedWhole s.thk && imgDigestOk s.thk.staging && flashOk s then
        ok { s with nv := { s.nv with slots := s.nv.slots.put k s.thk.staging } }
       else .done s stFailed [])))

/-- The image that SRC names, if it is complete (R155, R158, R519). -/
def commitBytes (s : State) (src : Nat) : Option (List Byte) :=
  if src = 0 then (if stagedWhole s.thk then some s.thk.staging else none)
  else if s.thk.active.isEmpty || s.thk.activeBad then none else some s.thk.active

/-- The checks of R158 that give ST_AUTH: DIGEST, the signature, and MCHK (R473). -/
def imageAuth (s : State) (d : List Byte) (b : ImageBody) : Bool :=
  let f := s.boot.fuses
  let signed := imgU d 14 2 % 2 == 1
  let k := imgU d 24 1
  imgDigestOk d && (signed || !sigImg f)
    && (!signed || (decide (k < 4) && keyOk f k && keyUse f k 1 && edVerify (keyBytes f k) (flashBytes d 128 64) (flashBytes d 0 128)))
    && crc32 b.monitor == sfWord s 10

/-- The header's fixed fields (R156). -/
def imageHeader (d : List Byte) (b : ImageBody) : Bool :=
  let signed := imgU d 14 2 == 1
  imgU d 0 4 == 0xD7A15C01 && imgU d 4 2 == 1 && imgU d 6 2 == 0x9640 && imgU d 8 4 == d.length && decide (d.length ≤ 1048576)
    && imgU d 12 2 == b.contexts.length && decide (1 ≤ b.contexts.length) && decide (b.contexts.length ≤ 160)
    && decide (imgU d 14 2 ≤ 1) && (signed || (imgU d 24 1 == 0 && imgU d 128 64 == 0)) && imgU d 25 39 == 0

/-- The operations of R119. -/
def opCodes : List Nat :=
  [0x00, 0x01, 0x02, 0x04, 0x05, 0x06, 0x07, 0x08, 0x0A, 0x0B, 0x0C, 0x0D, 0x0E, 0x0F, 0x10, 0x11, 0x12, 0x14, 0x15, 0x16, 0x17,
   0x18, 0x19, 0x1A, 0x1C, 0x1D, 0x1E, 0x1F, 0x20, 0x24, 0x25, 0x26, 0x28, 0x29, 0x2C, 0x2D, 0x2E]

/-- The operations that take operand B. -/
def opsWithB : List Nat := [0x05, 0x06, 0x07, 0x0A, 0x0B, 0x0E, 0x0F, 0x10, 0x14, 0x15, 0x16, 0x17, 0x18, 0x19, 0x1A, 0x1D, 0x1E]

/-- A slot word without a reserved operation or field (R115, R118, R119, R343). -/
def slotWordOk (w : W64) : Bool :=
  let op := wordOp w
  let sh := fld w 24 20
  opCodes.contains op && fld w 19 18 != 3 && !(op == 0x08 && decide (13 < sh)) && !((op == 0x11 || op == 0x12) && decide (17 < sh))
    && !(op == 0x20 && (sh == 0 || decide (8 < sh))) && !(op == 0x1C && fld w 56 52 == 31)
    && !((op == 0x28 || op == 0x29 || (opsWithB.contains op && fld w 41 40 == 3)) && sh % 4 == 3) && !(op == 0x2D && fld w 7 6 != 0)

/-- A run of slot words of a context: within a bank, ended by END, without a reserved word, its crossing loads only in a T3 or slower
context and only to the signal area (R118, R119, R126, R127, R140). -/
def cellRunOk (i : CtxImg) (r : CellRun) : Bool :=
  decide (r.block < 4) && decide (r.cell < 15) && decide (r.first + r.words.length ≤ 256) && wordOp (r.words.getLastD 0) == 0x02
    && r.words.all slotWordOk && r.cross.all fun q =>
      decide (q.1 < r.words.length) && wordOp (r.words.getD q.1 0) == 0x25 && decide (q.2 < 4)
        && (q.2 == imgRegion i || (fld i.ctrl 27 26 != 0 && inSignal (wordAddr (r.words.getD q.1 0))))

/-- What the laws of a context latch from another region: the signal area, and only in a T3 or slower context (R140). -/
def crossOk (l : List CtxImg) (i : CtxImg) : Bool :=
  ((i.laws.flatMap lawSources).map (srcWord (imgRegion i))).all (fun q => q.1 == imgRegion i || (fld i.ctrl 27 26 != 0 && inSignal q.2))
    && (fld i.ctrl 27 26 != 0 || (imgPeers l i).all fun n => (l.filter fun j => j.num == n).all fun j => imgRegion j == imgRegion i)

/-- No two runs of an image share a slot, and a context has one run on a logical cell (R118, R119). -/
def runsApart (l : List CtxImg) : Bool :=
  l.all (fun i => decide (i.runs.map fun r => (r.block, r.cell)).Nodup)
    && decide (l.flatMap fun i => i.runs.flatMap fun r =>
      (List.range r.words.length).map fun n => (imgRegion i, r.block, r.cell, r.first + n)).Nodup

/-- TRIG_SRC and TRIG_ARG of context `n` (R145). -/
def ctxTrigOk (ctrl : W32) (n : Nat) : Bool :=
  let src := fld ctrl 23 16
  let arg := fld ctrl 15 8
  if src = 0x20 then decide (arg ≤ 159) && arg != n
  else arg == 0 && (src == 0 || (decide (1 ≤ src) && decide (src ≤ 8)) || (decide (0x11 ≤ src) && decide (src ≤ 0x18)) || src == 0x30)

/-- CTX_PERIOD of the network-time trigger (R146). -/
def netPeriodOk (ctrl : W32) (p : Nat) : Bool :=
  fld ctrl 23 16 != 0x30 || (decide (5000 ≤ p) && decide (p ≤ 100000000) && 1000000000 % p == 0)

/-- PCLASS fixed from CTX_MINPER (R142). -/
def classOf (minper : Nat) : Nat := if minper < 20000 then 0 else if minper < 500000 then 1 else 2

/-- The image's limits of a parameter (R159), every value where it gives none. -/
def imgLimit (i : CtxImg) (k : Nat) : Int × Int := i.plim.getD k (-131072, 131071)

/-- A parameter value lies within the image's limits. -/
def imgWithin (i : CtxImg) (k : Nat) (v : Int) : Bool := decide ((imgLimit i k).1 ≤ v) && decide (v ≤ (imgLimit i k).2)

/-- One context record of an image (R127, R142, R144 to R146, R174). -/
def ctxImgOk (i : CtxImg) : Bool :=
  let p (k : Nat) : Int := i.params.getD k 0
  decide (i.num < 160) && fld i.ctrl 25 24 == 0 && fld i.ctrl 27 26 == classOf i.minper.toNat && ctxTrigOk i.ctrl i.num
    && netPeriodOk i.ctrl i.period.toNat && i.runs.all (cellRunOk i) && i.laws.all lawConstOk
    && (List.range 16).all (fun k => imgWithin i k (p k)) && i.laws.all fun l => lawParamsOk l p

/-- Input entries of sources whose route leaves the context's region out (R20). -/
def routesOk (s : State) (i : CtxImg) : Bool :=
  i.inputs.all fun e => match slotRoute s e with | some m => m.testBit (imgRegion i) | none => true

/-- The units whose shadows, load-all or auxiliary shadows a context writes (R344). -/
def unitsWritten (s : State) (i : CtxImg) : List Nat := unitsOf (auxRecs s) (imgShadows i) (imgLdall i)

/-- At most one context writes a unit (R344). -/
def ownersOk (s : State) (l : List CtxImg) : Bool := decide (l.flatMap (unitsWritten s)).Nodup

/-- The observer that a machine's current loop reads, as its image names it. -/
def loopObs (s : State) (l : List CtxImg) (m : Nat) : Option Nat :=
  (l.flatMap fun i => i.laws).findSome? fun x => if isCurrent x.kind && x.machine = m then x.angSrc.bind (slotObs s) else none

/-- MONOBS is required and follows another source than the current loop's observer (R467), while the monitor is on. -/
def monObsOk (s : State) (b : ImageBody) : Bool :=
  !tmen s || (machines s).all fun m =>
    b.required.contains (monObs s m) &&
      match loopObs s b.contexts m with
      | some o => obsSrc (s.pos.obs.at o).cfgA != obsSrc (s.pos.obs.at (monObs s m)).cfgA
      | none => true

/-- The contexts of an image as the bound checks see them. -/
def imgSpecs (b : ImageBody) : List CtxSpec :=
  b.contexts.map fun i => { num := i.num, ctrl := i.ctrl, period := i.period.toNat, minper := i.minper.toNat, bound := i.bound.toNat, shadows := imgShadows i, ldall := imgLdall i }

/-- An induction machine's current loop names an ANG_SRC whose observer is marked as required (R227). -/
def inductionOk (s : State) (b : ImageBody) : Bool :=
  (b.contexts.flatMap fun i => i.laws).all fun l =>
    !(isCurrent l.kind && l.mtype == 2) || match l.angSrc.bind (slotObs s) with | some o => b.required.contains o | none => false

/-- The checks of R158 that give ST_RANGE. -/
def imageRange (s : State) (d : List Byte) (b : ImageBody) : Bool :=
  let us := unitRecs s
  imageHeader d b && b.arrange == s.drv.arrange && decide (b.contexts.map CtxImg.num).Nodup
    && (List.range 4).all (fun g => decide ((b.contexts.filter fun i => (imgRegion i) == g).length ≤ 64))
    && b.contexts.all ctxImgOk && b.contexts.all (routesOk s) && b.contexts.all (crossOk b.contexts) && runsApart b.contexts
    && inductionOk s b && basesOk s.pos.obs.toList (b.contexts.map fun i => (imgEntries i, i.bases.getD 2 0))
    && shadowsOk us b.contexts && ownersOk s b.contexts && monObsOk s b
    && !(dmdLimited (tmen s) (chopEn s) && slowDmd us (auxRecs s) (imgSpecs b) b.contexts)
    && boundChecks us (auxRecs s) (imgSpecs b) != some stRange

/-- In-service cells of a block, ascending. -/
def Block.serviceable (b : Block) : List Nat := (List.range 16).filter b.inSvc

/-- Logical cells of block `k` that an image uses, ascending (R128). -/
def usedCells (l : List CtxImg) (k : Nat) : List Nat :=
  (List.range 15).filter fun c => l.any fun i => (imgRegion i) == k / 4 && (imgCells i).contains (k % 4, c)

/-- The logical cells that R128 maps with `n` cells in service: all of them, or those used and the lowest others. -/
def chosenCells (used : List Nat) (n : Nat) : List Nat :=
  if 15 ≤ n then List.range 15
  else
    let fill := ((List.range 15).filter fun c => !used.contains c).take (n - used.length)
    (List.range 15).filter fun c => used.contains c || fill.contains c

/-- ST_PLACEMENT's check (R34, R128, R151): the cells that a block of the image uses fit those in service now, and those of the in-service
map that the placement was made against (log entry 68). -/
def placementOk (s : State) (b : ImageBody) : Bool :=
  (List.range 16).all fun k =>
    let u := (usedCells b.contexts k).length
    decide (u ≤ (s.thk.blocks.at k).serviceable.length)
      && match b.insvc[k]? with | some m => decide (u ≤ ((List.range 16).filter fun c => bit m c).length) | none => true

/-- A block's map under R128; rotation goes on with sixteen cells in service. -/
def Block.remap (b : Block) (used : List Nat) : Block :=
  let cells := b.serviceable
  let logical := chosenCells used cells.length
  let pairs := logical.zip cells
  let lmap := pairs.foldl (fun w p => setFld w (4 * p.1 + 3) (4 * p.1) p.2) (0 : W64)
  let mapped := pairs.foldl (fun w p => setBit w (32 + p.1) true) (setFld b.map 46 32 0)
  { b with lmap := lmap, map := setFld (setBit mapped 47 (cells.length != 16)) 31 28 (if cells.length = 16 then cells.getD 15 15 else 15),
           stopped := cells.length != 16, switching := none, nextK := 0, cells := Vector.replicate 16 {} }

/-- A block loaded from an image: its map, its operation and coefficient memories (R158). -/
def loadBlock (b : ImageBody) (k : Nat) (x : Block) : Block :=
  let coef := (b.coef.filter fun p => p.1 / 8192 == k).map fun p => (p.1 % 8192, p.2)
  { x.remap (usedCells b.contexts k) with op := memPuts [] (blockWords b k), coef := memPuts [] coef, coefReloaded := [], opReloaded := [] }

/-- A region memory loaded from an image; the stream area keeps what the stream paths have written (R158). -/
def loadRegion (b : ImageBody) (g : Nat) (old : Mem 18) : Mem 18 := memPuts (memPart old 0 0x3FF) (regionWords b g)

/-- The writers of a region's signal words, as their numbers plus 1 (R139). -/
def loadOwners (b : ImageBody) (g : Nat) : Mem 8 :=
  memPuts [] ((b.contexts.filter fun i => imgRegion i == g).flatMap fun i => (imgSignals i).map fun a => (a, BitVec.ofNat 8 (i.num + 1)))

/-- A context record loaded from an image (R143, R150, R152, R158). -/
def loadCtx (i : CtxImg) : Ctx :=
  { ctrl := i.ctrl, period := i.period, minper := i.minper, bound := i.bound, wct := BitVec.ofNat 32 (wctOf i.bound.toNat),
    iBase := i.bases.getD 0 0, vBase := i.bases.getD 1 0, wBase := i.bases.getD 2 0, tBase := i.bases.getD 3 0, area := i.area,
    parBase := i.parBase }

/-- Every context record after a commit. -/
def loadCtxs (b : ImageBody) : Tab 160 Ctx :=
  b.contexts.foldl (fun t i => t.put i.num (loadCtx i)) (Vector.replicate 160 {})

/-- The image loaded (R128, R158, R195, R345, R532); a curve counts as unwritten again (R231), and regions that now hold a DMD
context get REGEN_LIM (R431). -/
def applyCommit (s : State) (d : List Byte) (b : ImageBody) : State :=
  let t := s.thk
  let s := { s with
    thk := { t with
      blocks := Vector.ofFn fun k : Fin 16 => loadBlock b k.val (t.blocks.at k.val)
      rmem := Vector.ofFn fun g : Fin 4 => loadRegion b g.val (t.rmem.at g.val)
      rmemB := Vector.ofFn fun g : Fin 4 => loadRegion b g.val []
      sigOwner := Vector.ofFn fun g : Fin 4 => loadOwners b g.val
      ctxs := loadCtxs b
      preempted := []
      active := d
      body := some b
      activeBad := false }
    drv := { s.drv with committed := true }
    dmd := { s.dmd with curves := Vector.replicate 4 {}, pend := Vector.replicate 4 none } }
  let s := snoopConfig (writeThr (writeMaintained s) (16 - s.thm.step))
  if dmdRegions s == 0 then s else publishRegen s

/-- The checks of CFG_COMMIT in the order of R69 and R158; without a complete image there is no DIGEST to check. -/
def commitCheck (s : State) (r : Req) (b : ImageBody) : Option (W16 × List Byte) :=
  let src := fieldAt r 8 1
  if !(formOk r 1 && decide (src ≤ 1)) then some (stRange, [])
  else match commitBytes s src with
    | none => some (stRange, [])
    | some d =>
      if !imageAuth s d b then some (stAuth, [])
      else if !imageRange s d b then some (stRange, [])
      else if (boundChecks (unitRecs s) (auxRecs s) (imgSpecs b)).isSome then some (stBound, [])
      else if !placementOk s b then some (stPlacement, [])
      else none

/-- CFG_COMMIT (R158): `b` is the body as Drulis laid it out in the image's bytes; SRC = 1 takes the active image again. -/
def execCfgCommit (r : Req) (b : ImageBody) (s : State) : Host.Outcome State Fault Refusal :=
  let src := fieldAt r 8 1
  let body := if src = 1 then s.thk.body.getD b else b
  .next (runStateJob 0x1050 r s .configured (commitCheck s r body) fun s => applyCommit s ((commitBytes s src).getD []) body)

/-- The entry of a context in the image that its record was loaded from: the record is kept in STANDBY too (R95, R159). -/
def heldImg (s : State) (n : Nat) : Option CtxImg := s.thk.body.bind fun b => b.contexts.find? fun i => i.num == n

/-- The fields of CFG_CONTEXT (R159). -/
structure CtxReq where
  n : Nat
  what : Nat
  first : Nat
  count : Nat
  ctrl : W32
  period : W32
  clr : W32
  words : List Nat

/-- The payload of CFG_CONTEXT. -/
def ctxReq (r : Req) : CtxReq :=
  { n := fieldAt r 8 1, what := fieldAt r 9 1, first := fieldAt r 10 1, count := fieldAt r 11 1,
    ctrl := BitVec.ofNat 32 (fieldAt r 12 4), period := BitVec.ofNat 32 (fieldAt r 16 4), clr := BitVec.ofNat 32 (fieldAt r 20 4),
    words := (List.range 8).map fun i => fieldAt r (24 + 4 * i) 4 }

/-- The fields that WHAT does not select are 0, and the others have their form (R159). -/
def ctxForm (q : CtxReq) : Bool :=
  decide (q.what < 16) && (q.what.testBit 0 || q.ctrl == 0) && (q.what.testBit 1 || q.period == 0) && (q.what.testBit 3 || q.clr == 0)
    && q.clr &&& 0xFFFF_FFC0 == 0
    && (if q.what.testBit 2 then decide (1 ≤ q.count) && decide (q.count ≤ 8) && decide (q.first + q.count ≤ 16)
          && (q.words.take q.count).all (fun w => (sext18? w).isSome) && (q.words.drop q.count).all fun w => w == 0
        else q.first == 0 && q.count == 0 && q.words.all fun w => w == 0)

/-- The parameters that the command writes, by number. -/
def ctxWrites (q : CtxReq) : List (Nat × W18) :=
  if q.what.testBit 2 then ((q.words.take q.count).zipIdx.map fun p => (q.first + p.2, BitVec.ofNat 18 p.1)) else []

/-- The context's pending values with those of the command merged in (R160). -/
def mergePend (x : Ctx) (ws : List (Nat × W18)) : Ctx := { x with pend := ws.foldl (fun t p => t.put p.1 (some p.2)) x.pend }

/-- The record that the command asks for. -/
def ctxNext (q : CtxReq) (x : Ctx) : Ctx :=
  let ctrl := if q.what.testBit 0 then q.ctrl else x.ctrl
  let y := mergePend { x with ctrl := ctrl, period := if q.what.testBit 1 then q.period else x.period, status := w1c x.status q.clr } (ctxWrites q)
  { y with divCount := if bit ctrl 31 && !x.en then 0 else y.divCount }

/-- The values of CFG_CONTEXT lie within their ranges (R144 to R146, R159, R174, R222, R228); a context that no image has filled has no
limits of its own. -/
def ctxRange (s : State) (i : Option CtxImg) (q : CtxReq) (x y : Ctx) : Bool :=
  sameOutside 0x80FF_FFFF x.ctrl y.ctrl && ctxTrigOk y.ctrl q.n && netPeriodOk y.ctrl y.period.toNat
    && (!q.what.testBit 1 || fld y.ctrl 23 16 == 0x30)
    && match i with
      | some i => (ctxWrites q).all (fun p => imgWithin i p.1 (s18 p.2))
          && (!q.what.testBit 2 || i.laws.all fun l => lawParamsOk l (pendingParams s q.n y) && notchWhole l q.first q.count)
      | none => true

/-- The statuses of CFG_CONTEXT in the order of R69; the bound checks are repeated where a trigger interval may change. -/
def ctxCheck (s : State) (r : Req) (w : Nat) : Option W16 :=
  let q := ctxReq r
  let x := ctxAt s q.n
  let y := ctxNext q x
  let s' := updCtx s q.n fun _ => y
  let moved := x.ctrl != y.ctrl || x.period != y.period
  if !(formOk r 48 && decide (q.n < 160) && ctxForm q && (q.what == 0 || q.what.testBit w) && ctxRange s (heldImg s q.n) q x y) then some stRange
  else if moved && (boundChecks (unitRecs s) (auxRecs s) (specs s') == some stRange
      || (dmdLimited (tmen s) (chopEn s) && slowDmd (unitRecs s) (auxRecs s) (specs s') (placed s))) then some stRange
  else if moved && s.drv.st != .standby && s.drv.st != .configured then some stState
  else if moved then boundChecks (unitRecs s) (auxRecs s) (specs s')
  else none

/-- CFG_CONTEXT (R159, R160, R195), for the row of WHAT bit `w`. An activation under way when EN is cleared ends at once, which the
spec leaves open (R144; log entry 65). -/
def ctxCommand (w : Nat) (r : Req) (s : State) : State :=
  let q := ctxReq r
  runJob 0x1012 r s
    (match ctxCheck s r w with
     | some st => .refuse st
     | none =>
       let moved := (ctxNext q (ctxAt s q.n)).ctrl != (ctxAt s q.n).ctrl || (ctxNext q (ctxAt s q.n)).period != (ctxAt s q.n).period
       let s' := updCtx s q.n (ctxNext q)
       let s' := if (ctxAt s' q.n).en then s' else dropAct s' q.n
       ok (snoopConfig (if moved then writeMaintained s' else s')))

/-- CFG_CONTEXT with WHAT[0], CTRL. -/
def execCfgContextCtrl (r : Req) (s : State) : Host.Outcome State Fault Refusal := .next (ctxCommand 0 r s)
/-- CFG_CONTEXT with WHAT[1], PERIOD. -/
def execCfgContextPeriod (r : Req) (s : State) : Host.Outcome State Fault Refusal := .next (ctxCommand 1 r s)
/-- CFG_CONTEXT with WHAT[2], PARAM. -/
def execCfgContextParam (r : Req) (s : State) : Host.Outcome State Fault Refusal := .next (ctxCommand 2 r s)
/-- CFG_CONTEXT with WHAT[3], STATUS_CLR. -/
def execCfgContextStatusClr (r : Req) (s : State) : Host.Outcome State Fault Refusal := .next (ctxCommand 3 r s)

end Sys2Proof.Machine
end

