-- ==== Sys2Proof/Machine/Maint.lean ====
section
/-! DEFINITION. Firmware, fuse and maintenance commands, and attestation (R80, R84, R473, R649 to R660). -/

namespace Sys2Proof.Machine

/-- Flash and fuses changed. -/
def updNv (s : State) (f : Nv → Nv) : State := { s with nv := f s.nv }

/-- A firmware bank changed. -/
def updBank (s : State) (b : Nat) (f : FwBank → FwBank) : State := updNv s fun n => { n with banks := n.banks.upd b f }

/-- Writing a bank finds it running (R654). -/
def bankRuns (s : State) (b : Nat) : Bool := s.drv.st != .coppice && s.boot.bank == some b

/-- A job that writes flash (R537). -/
def flashJob (s : State) (k : Done) : Done := if flashOk s then k else .done s stFailed []

/-- MNT_FW_WRITE ERASE (R649, R654). -/
def execMntFwWriteErase (r : Req) (s : State) : Host.Outcome State Fault Refusal :=
  let b := fieldAt r 9 1
  let n := fieldAt r 12 4
  .next (runJob 0x5001 r s
    (guardSt (opForm r 8 0 && decide (b < 2) && zeroAt r 10 2 && decide (192 ≤ n) && decide (n ≤ 1572864) && n % 8 == 0) stRange
      (guardSt (!bankRuns s b) stBusy
        (flashJob s (ok (updBank s b fun _ => { len := n }))))))

/-- MNT_FW_WRITE DATA (R654). -/
def execMntFwWriteData (r : Req) (s : State) : Host.Outcome State Fault Refusal :=
  let b := fieldAt r 9 1
  let n := r.len - 8
  let o := fieldAt r 12 4
  let x := s.nv.banks.at b
  .next (runJob 0x5001 r s
    (guardSt (opForm r (8 + n) 1 && decide (b < 2) && zeroAt r 10 2 && decide (8 ≤ n) && decide (n ≤ 3576) && n % 8 == 0
        && o == x.data.length && decide (o + n ≤ x.len)) stRange
      (guardSt (!bankRuns s b) stBusy
        (flashJob s (ok (updBank s b fun x => { x with data := x.data ++ bytesAt r 16 n, verified := false }))))))

/-- RESULT of MNT_FW_VERIFY (R655). -/
def verifyResult (x : FwBank) (k : Nat) : List Byte := leBytes 4 k ++ leBytes 4 x.version ++ leBytes 2 x.svn

/-- MNT_FW_VERIFY (R655). -/
def execMntFwVerify (r : Req) (s : State) : Host.Outcome State Fault Refusal :=
  let b := fieldAt r 8 1
  let x := s.nv.banks.at b
  let k := verifyBank s.boot.fuses x
  .next (runJob 0x5002 r s
    (guardSt (formOk r 1 && decide (b < 2)) stRange
      (if k = 0 then .done (updBank s b fun x => { x with verified := true }) stOk (verifyResult x 0)
       else .done s stAuth (verifyResult x k))))

/-- The log is copied, the completion written, and the module reset (R80, R82, R95, R656); an event that outranks the command
comes first (R96). A flash die outside its window takes no copy, so the job fails as R537 gives and no record is lost to it. -/
def resetJob (op : Nat) (r : Req) (s : State) (st : W16) (apply : State → State) : State :=
  match winner s.drv.st (s.drv.events ++ persistent s) with
  | some _ => complete (evaluate s) op r stPreempted []
  | none =>
    if !flashOk s then complete s op r stFailed []
    else coldReset (complete (copyLog (apply s)) op r st [])

/-- The checks of MNT_FW_ACTIVATE (R69, R537, R655, R656). -/
def activateCheck (s : State) (r : Req) : Option W16 :=
  let b := fieldAt r 8 1
  if !(formOk r 1 && decide (b < 2)) then some stRange
  else if verifyBank s.boot.fuses (s.nv.banks.at b) != 0 then some stAuth
  else if s.io.jobs.any fun j => j.opcode == 0x5001 && fieldAt j.req 9 1 == b then some stBusy
  else none

/-- What MNT_FW_ACTIVATE records (R105, R656). -/
def applyActivate (s : State) (b : Nat) : State :=
  let s := bcrUpdate s fun c => if b = c.conf then { c with trial := 0xFF } else { c with trial := b, tried := false }
  { s with aon := { s.aon with failCount := 0, coppice := false } }

/-- MNT_FW_ACTIVATE (R656). -/
def execMntFwActivate (r : Req) (s : State) : Host.Outcome State Fault Refusal :=
  .next
    (match activateCheck s r with
     | some st => runJob 0x5003 r s (.refuse st)
     | none => if jobRuns s 0x5003 r then resetJob 0x5003 r s stOk fun s => applyActivate s (fieldAt r 8 1)
               else runJob 0x5003 r s (.refuse stState))

/-- MNT_RESET (R80, R95). -/
def execMntReset (r : Req) (s : State) : Host.Outcome State Fault Refusal :=
  .next (if jobRuns s 0x5012 r && formOk r 0 then resetJob 0x5012 r s stOk id else runJob 0x5012 r s (.refuse stRange))

/-- MNT_FUSE's form (R658). -/
def fuseForm (r : Req) (bank slot data : Nat) : Bool := opForm r (4 + data) bank && fieldAt r 9 1 == slot && zeroAt r 10 2

/-- The end of a programming: read back, it completes, or writes 0xC030 (R658). -/
def fuseEnd (s : State) (readBackOk : Bool) : Done := if readBackOk then ok s else .done (recSec s 0xC030) stFailed []

/-- The fuses changed. -/
def updFuses (s : State) (f : Fuses → Fuses) : State := updNv s fun n => { n with fuses := f n.fuses }

/-- A word as a mismatch of the read-back leaves it, and whether its bank then is spoiled (log entry 2). -/
def spoilWord (s : State) (k : Nat) : Nat := Config.freeNat (s.free + 1 + k)
def spoils (s : State) : Bool := freeVal s % 2 == 1
def spoilTaken (s : State) : State := { s with free := s.free + 32 }

/-- MNT_FUSE IDENT (R99, R657, R658). -/
def execMntFuseIdent (r : Req) (readBackOk : Bool) (s : State) : Host.Outcome State Fault Refusal :=
  let w : W32 := BitVec.ofNat 32 (fieldAt r 12 4)
  let f := s.nv.fuses
  let good := updFuses s fun f => { f with startCfg := w, startCfgSet := true }
  let bad := updFuses (spoilTaken s) fun f =>
    { f with startCfg := BitVec.ofNat 32 (spoilWord s 0), startCfgSet := !spoils s, startCfgSpoiled := spoils s }
  .next (runJob 0x5010 r s
    (guardSt (fuseForm r 0 0 4 && fld w 31 24 == 0 && fld w 15 10 == 0) stRange
      (guardSt (!f.startCfgSet) stBusy
        (if f.startCfgSpoiled then .done s stFailed [] else fuseEnd (if readBackOk then good else bad) readBackOk))))

/-- A key slot as a mismatch of the read-back leaves it. -/
def spoilKey (s : State) : KeySlot :=
  { key := leBytes 32 (spoilWord s 0), kuse := BitVec.ofNat 32 (spoilWord s 1), written := !spoils s, spoiled := spoils s }

/-- MNT_FUSE KEY (R657, R658). -/
def execMntFuseKey (r : Req) (readBackOk : Bool) (s : State) : Host.Outcome State Fault Refusal :=
  let k := fieldAt r 9 1
  let u : W32 := BitVec.ofNat 32 (fieldAt r 44 4)
  let x := s.nv.fuses.keys.at k
  let good := updFuses s fun f => { f with keys := f.keys.put k { key := bytesAt r 12 32, kuse := u, written := true } }
  let bad := updFuses (spoilTaken s) fun f => { f with keys := f.keys.put k (spoilKey s) }
  .next (runJob 0x5010 r s
    (guardSt (fuseForm r 1 k 36 && decide (2 ≤ k) && decide (k ≤ 3) && fld u 31 3 == 0 && !bit u 0) stRange
      (guardSt (!x.written) stBusy
        (if x.spoiled then .done s stFailed [] else fuseEnd (if readBackOk then good else bad) readBackOk))))

/-- MNT_FUSE REVOKE (R657, R658): bits are only set, and one of slots 0 and 1 stays. -/
def execMntFuseRevoke (r : Req) (readBackOk : Bool) (s : State) : Host.Outcome State Fault Refusal :=
  let w := fieldAt r 12 4
  let v : BitVec 4 := s.nv.fuses.revoke ||| BitVec.ofNat 4 w
  let bad : BitVec 4 := s.nv.fuses.revoke ||| BitVec.ofNat 4 (spoilWord s 0)
  .next (runJob 0x5010 r s
    (guardSt (fuseForm r 2 0 4 && decide (w < 16) && !(bit v 0 && bit v 1)) stRange
      (fuseEnd (if readBackOk then updFuses s fun f => { f with revoke := v }
                else updFuses (spoilTaken s) fun f => { f with revoke := bad }) readBackOk)))

/-- MNT_FUSE POLICY (R657, R658). -/
def execMntFusePolicy (r : Req) (readBackOk : Bool) (s : State) : Host.Outcome State Fault Refusal :=
  let w : W32 := BitVec.ofNat 32 (fieldAt r 12 4)
  let f := s.nv.fuses
  let good := updFuses s fun f => { f with policy := w, policySet := true }
  let bad := updFuses (spoilTaken s) fun f =>
    { f with policy := BitVec.ofNat 32 (spoilWord s 0), policySet := !spoils s, policySpoiled := spoils s }
  .next (runJob 0x5010 r s
    (guardSt (fuseForm r 3 0 4 && fld w 31 3 == 0) stRange
      (guardSt (!f.policySet) stBusy
        (if f.policySpoiled then .done s stFailed [] else fuseEnd (if readBackOk then good else bad) readBackOk))))

/-- One machine's words of the safety bank lie in range (R457, R473). -/
def safetyMachOk (spd lim tol : W32) : Bool :=
  let src := fld spd 31 29
  let scpr := fld spd 28 8
  let sepp := fld spd 7 1
  decide (src ≤ 6) && decide (6 ≤ scpr) && decide (scpr ≤ 1048576) && decide (1 ≤ sepp) && decide (sepp ≤ 64)
    && !((src == 4 || src == 5) && scpr != 6 * sepp) && fld lim 31 16 != 0 && fld tol 3 0 == 0

/-- Every value of the safety bank lies in its field's range (R473): with SPDSRC = 6 no SLS, SDI or SLP function. -/
def safetyBankOk (t : Nat → W32) : Bool :=
  let fns := (List.range 4).map fun i => fld (t 0) (22 + 3 * i) (20 + 3 * i)
  let noCounter := fld (t 1) 31 29 == 6 || fld (t 2) 31 29 == 6
  fns.all (fun f => decide (f ≤ 5) && !(noCounter && decide (2 ≤ f))) && decide (fld (t 0) 15 9 ≤ 100)
    && decide (1 ≤ fld (t 0) 8 0) && decide (fld (t 0) 8 0 ≤ 500)
    && safetyMachOk (t 1) (t 3) (t 5) && safetyMachOk (t 2) (t 4) (t 6)
    && fld (t 8) 15 5 != 0 && fld (t 8) 3 0 == 0
    && decide (1 ≤ fld (t 9) 14 13) && decide (1 ≤ fld (t 9) 12 10) && decide (fld (t 9) 12 10 ≤ 4) && fld (t 9) 5 0 == 0
    && (List.range 8).all fun n =>
      let w := t (11 + n)
      fld w 5 0 == 0 && (fld w 7 6 == 0 || decide (fld w 21 12 < fld w 31 22))

/-- The 20 words of a MNT_FUSE SAFETY. -/
def safetyWords (r : Req) : Tab 20 W32 := Vector.ofFn fun i : Fin 20 => BitVec.ofNat 32 (fieldAt r (12 + 4 * i.val) 4)

/-- The words that a mismatch of the read-back leaves. -/
def spoiledWords (s : State) : Tab 20 W32 := Vector.ofFn fun i : Fin 20 => BitVec.ofNat 32 (spoilWord s i.val)

/-- MNT_FUSE SAFETY (R473, R657, R658). -/
def execMntFuseSafety (r : Req) (readBackOk : Bool) (s : State) : Host.Outcome State Fault Refusal :=
  let f := s.nv.fuses
  let good := updFuses s fun f => { f with safety := safetyWords r, safetySet := true }
  let bad := updFuses (spoilTaken s) fun f =>
    { f with safety := spoiledWords s, safetySet := !spoils s, safetySpoiled := spoils s }
  .next (runJob 0x5010 r s
    (guardSt (fuseForm r 4 0 80 && safetyBankOk fun i => (safetyWords r).at i) stRange
      (guardSt (!f.safetySet) stBusy
        (if f.safetySpoiled then .done s stFailed [] else fuseEnd (if readBackOk then good else bad) readBackOk))))

/-- MNT_FUSE ROLLBACK (R657, R658): MINSVN is raised to the running bank's SVN. -/
def execMntFuseRollback (r : Req) (readBackOk : Bool) (s : State) : Host.Outcome State Fault Refusal :=
  let v := (s.nv.banks.at (s.boot.bank.getD 0)).svn
  let old := s.nv.fuses.minsvn
  .next (runJob 0x5010 r s
    (guardSt (fuseForm r 5 0 0) stRange
      (guardSt (decide (old ≤ v)) stTighten
        (fuseEnd (if readBackOk then updFuses s fun f => { f with minsvn := v }
                  else updFuses (spoilTaken s) fun f => { f with minsvn := max old (spoilWord s 0 % 65) }) readBackOk))))

/-- What MNT_LOG_CLEAR clears, bit by bit (R84). -/
def clearRecords (s : State) : State :=
  { s with io := { s.io with log := [], logNum := 0 }, nv := { s.nv with flashLog := [] } }
def clearStarts (s : State) : State := updNv s fun n => { n with startLog := [], startNum := 0 }
def clearWear (s : State) : State := updNv s fun n => { n with wear := Vector.replicate 16 16384 }
def clearAgeing (s : State) : State := updNv s fun n => { n with age := n.age.map fun a => { a with hist := [] } }

/-- MNT_LOG_CLEAR (R84), for the row of bit `i` of WHAT. -/
def logClear (i : Nat) (r : Req) (s : State) : State :=
  let w := fieldAt r 8 1
  let s1 := if w.testBit 0 then clearRecords s else s
  let s2 := if w.testBit 1 then clearStarts s1 else s1
  let s3 := if w.testBit 2 then clearWear s2 else s2
  let s4 := if w.testBit 3 then clearAgeing s3 else s3
  runJob 0x5011 r s (guardSt (formOk r 1 && decide (w < 16) && w.testBit i) stRange (flashJob s (ok s4)))

/-- MNT_LOG_CLEAR with WHAT[0]. -/
def execMntLogClearRecords (r : Req) (s : State) : Host.Outcome State Fault Refusal := .next (logClear 0 r s)
/-- MNT_LOG_CLEAR with WHAT[1]. -/
def execMntLogClearStartFailures (r : Req) (s : State) : Host.Outcome State Fault Refusal := .next (logClear 1 r s)
/-- MNT_LOG_CLEAR with WHAT[2]. -/
def execMntLogClearWear (r : Req) (s : State) : Host.Outcome State Fault Refusal := .next (logClear 2 r s)
/-- MNT_LOG_CLEAR with WHAT[3]. -/
def execMntLogClearAgeing (r : Req) (s : State) : Host.Outcome State Fault Refusal := .next (logClear 3 r s)

/-- FLAGS of an attestation report (R660). -/
def attestFlags (s : State) : Nat :=
  b2n s.icp.lsbrk + 2 * b2n s.aon.scanSeen + 4 * b2n s.aon.degr + 8 * b2n (s.drv.st == .coppice) + 16 * b2n s.boot.trial
    + 32 * b2n (sigImg s.boot.fuses) + 64 * dbgPol s.boot.fuses + 256 * b2n s.icp.authSince

/-- SVN, VERSION and DIGEST of the running bank; the spec gives the first two no value in COPPICE (log entry 2). -/
def runningSvn (s : State) : Nat := match s.boot.bank with | some b => (s.nv.banks.at b).svn | none => freeVal s
def runningVersion (s : State) : Nat := match s.boot.bank with | some b => (s.nv.banks.at b).version | none => Config.freeNat (s.free + 1)
def runningDigest (s : State) : List Byte :=
  match s.boot.bank with | some b => (s.nv.banks.at b).digest | none => List.replicate 64 0

/-- The first 256 bytes of an attestation report (R660). -/
def attestBody (s : State) (nonce : List Byte) : List Byte :=
  let img := s.thk.active
  leBytes 4 0xA7E50001 ++ leBytes 2 0x9640 ++ [Config.dieStep, BitVec.ofNat 8 s.drv.st.code] ++ leBytes 8 Config.serial.toNat
    ++ nonce ++ leBytes 8 (now s).toNat ++ leBytes 2 (attestFlags s)
    ++ leBytes 1 (s.boot.bank.getD 0xFF) ++ leBytes 1 s.boot.fuses.minsvn ++ leBytes 2 (runningSvn s) ++ [0, 0]
    ++ leBytes 4 (runningVersion s) ++ leBytes 4 (if img.isEmpty then 0 else imgU img 20 4) ++ leBytes 4 (sfWord s 19).toNat
    ++ leBytes 1 (fld (sfWord s 7) 7 0) ++ [0, 0, 0] ++ runningDigest s
    ++ (if img.isEmpty then List.replicate 64 0 else flashBytes img 64 64) ++ edPublic Config.identitySeed ++ List.replicate 16 0

/-- A report with its signature (R660). -/
def attestReport (s : State) (nonce : List Byte) : List Byte :=
  let b := attestBody s nonce
  b ++ edSign Config.identitySeed b

/-- QRY_ATTEST REPORT (R660). -/
def execQryAttestReport (r : Req) (s : State) : Host.Outcome State Fault Refusal :=
  let taken := if s.boot.bank.isSome then s else freeTaken (freeTaken s)
  .next (runJob 0x3008 r s
    (guardSt (opForm r 40 0 && zeroAt r 9 7) stRange (.done taken stOk (attestReport s (bytesAt r 16 32)))))

/-- QRY_ATTEST ENDORSE (R660). -/
def execQryAttestEndorse (r : Req) (s : State) : Host.Outcome State Fault Refusal :=
  .next (runJob 0x3008 r s
    (guardSt (opForm r 40 1 && zeroAt r 9 39) stRange
      (.done s stOk (edPublic Config.identitySeed ++ leBytes 8 Config.serial.toNat ++ padTo 64 Config.endorsement))))

end Sys2Proof.Machine
end

