-- ==== Sys2Proof/Machine/Loops.lean ====
section
/-! DEFINITION. The control laws of chapter 05: the PI law, PID, gain scheduling and the notch filters (R162 to R181). Words are
integers in 2^-17, products and integrators integers in 2^-34 and 2^-35. -/

namespace Sys2Proof.Machine

/-- What an activation latches for its laws: region words as signed and as unsigned numbers, the parameters in force, and
the free values it may take. -/
structure LawEnv where
  ld : Nat → Int
  p : Nat → Int
  fn : Nat → Nat

/-- What one law hands out: its next state words, region words, shadows, the load-all mask, flag bits with their mask, and
whether a word saturated. -/
structure LawOut where
  run : LawRun
  words : List (Nat × Int) := []
  shadows : List (Nat × W18) := []
  ldall : Nat := 0
  flags : Nat := 0
  mask : Nat := 0
  sat : Bool := false

/-- An angle or a period value that a word holds. -/
def unsigned18 (v : Int) : Nat := (v % 262144).toNat

/-- The difference of two words, saturated (R116, R164). -/
def errWord (r y : Int) : Int := sat18 (r - y)

/-- The gains of one controller: KP and KI words, their exponents, KAW, AWM and the output limits as words (R163, R164). -/
structure Gains where
  kp : Int
  ki : Int
  kaw : Int
  shkp : Nat
  nki : Nat
  awm : Nat
  umax : Int
  umin : Int

/-- What the PI law of one controller gives before the limiter downstream: the loop with its new integrator, u_raw in
2^-35, u as a word, the flags ULIM, ILIM and BUMP, and whether the accumulator saturated. -/
structure PiOut where
  loop : Loop
  uRaw : Int
  u : Int
  ulim : Bool
  ilim : Bool
  bump : Bool
  sat : Bool

/-- The correction of R177 and R178 to an integrator for a change of KP, with whether the clamp cut it short. -/
def bumpless (g : Gains) (kpOld : Option Int) (e i : Int) : Int × Bool :=
  match kpOld with
  | some k =>
    if k = g.kp then (i, false)
    else
      let v := i + 2 * (k - g.kp) * 2 ^ g.shkp * e
      let c := clampI (g.umin * 2 ^ 18) (g.umax * 2 ^ 18) v
      (c, decide (c ≠ v))
  | none => (i, false)

/-- A sum in 2^-35 as the accumulator holds it (R114, R166). -/
def accSum (v : Int) : Int := clampI (-(2 ^ 48)) (2 ^ 48 - 1) v

/-- The PI law (R164 to R166, R177, R178) on the error `e`, with `d` in 2^-34 added to the proportional term (R169). A value that
leaves the accumulator's range saturates, which is no limit of R164 and sets SAT (R114, R166). -/
def piLaw (g : Gains) (x : Loop) (kpOld : Option Int) (e d : Int) : PiOut :=
  let prod := sat48 (g.kp * e * 2 ^ g.shkp)
  let p := 2 * sat48 (prod + d)
  let lo := g.umin * 2 ^ 18
  let hi := g.umax * 2 ^ 18
  let i0 := bumpless g kpOld e x.i
  let raw0 := accSum (p + i0.1)
  let dI :=
    if g.awm = 0 then
      (if (decide (hi < raw0) && decide (0 < e)) || (decide (raw0 < lo) && decide (e < 0)) then 0
       else rndDiv (2 * g.ki * e) (2 ^ g.nki))
    else rndDiv (2 * (g.ki * e + g.kaw * x.b * 2 ^ g.nki)) (2 ^ g.nki)
  let i := clampI lo hi (i0.1 + dI)
  let raw := accSum (p + i)
  let u := clampI lo hi raw
  { loop := { x with i := i }, uRaw := raw, u := rndDiv u (2 ^ 18), ulim := decide (u ≠ raw), ilim := i0.2 || decide (i ≠ i0.1 + dI), bump := i0.2,
    sat := decide (prod ≠ g.kp * e * 2 ^ g.shkp) || decide (p ≠ 2 * (prod + d)) || decide (raw0 ≠ p + i0.1) || decide (raw ≠ p + i) }

/-- The back-calculation term for the next activation (R164). -/
def PiOut.close (o : PiOut) (uLim : Int) : Loop :=
  { o.loop with b := sat18 (rndDiv (clampI (-(2 ^ 35)) (2 ^ 35) (uLim * 2 ^ 18 - o.uRaw)) (2 ^ 18)) }

/-- The rising part of R176. -/
def setUp (th : Nat → Int) (n : Nat) (x : Int) : Nat → Nat → Nat
  | 0, k => k
  | fuel + 1, k => if k + 1 < n && decide (th (k + 1) ≤ x) then setUp th n x fuel (k + 1) else k

/-- The falling part of R176. -/
def setDown (th : Nat → Int) (hyst x : Int) : Nat → Nat → Nat
  | 0, k => k
  | fuel + 1, k => if k ≠ 0 && decide (x < th k - hyst) then setDown th hyst x fuel (k - 1) else k

/-- The choice of the gain set (R176): `th k` is the threshold into set `k`. -/
def chooseSet (th : Nat → Int) (hyst : Int) (n s : Nat) (x : Int) : Nat :=
  if n ≤ 1 then 0 else setDown th hyst x 4 (setUp th n x 4 s)

/-- The scheduling variable (R176), and whether taking its magnitude saturates (R116). -/
def schedVar (l : LawInst) (env : LawEnv) : Int := if l.nsets ≤ 1 then 0 else sat18 |env.ld l.schedSrc|
def schedSat (l : LawInst) (env : LawEnv) : Bool := !decide (l.nsets ≤ 1) && sats18 |env.ld l.schedSrc|

/-- Flag bits 0 to 7 of R175 from two controllers, the second absent for a law with one. -/
def loopFlags (a : PiOut) (b : Option PiOut) (old new : Nat) : Nat :=
  b2n a.ulim + 2 * b2n ((b.map PiOut.ulim).getD false) + 4 * b2n a.ilim + 8 * b2n ((b.map PiOut.ilim).getD false)
    + 16 * b2n (old != new) + 32 * b2n (a.bump || (b.map PiOut.bump).getD false) + 64 * (new % 4)

/-- PI_SCH (R164, R171, R176 to R179). -/
def lawPiSch (l : LawInst) (env : LawEnv) (x : LawRun) : LawOut :=
  let src := l.srcs.headD default
  let r := env.ld src.refSrc
  let y := env.ld src.measSrc
  let k := chooseSet (fun i => env.p (7 + i)) (env.p 11) l.nsets x.gset (schedVar l env)
  let g : Gains := { kp := env.p (2 * k), ki := env.p (2 * k + 1), kaw := env.p 12, shkp := l.shkp, nki := l.nki, awm := l.awm,
                     umax := env.p 13, umin := env.p 14 }
  let o := piLaw g (x.loops.headD {}) x.kpLast.head? (errWord r y) 0
  { run := { x with loops := [o.close o.u], gset := k, kpLast := [g.kp] }, words := [(l.sigBase, o.u)],
    flags := loopFlags o none x.gset k, mask := 0xFF, sat := sats18 (r - y) || o.sat || schedSat l env }

/-- PID (R169, R172). -/
def lawPid (l : LawInst) (env : LawEnv) (x : LawRun) : LawOut :=
  let src := l.srcs.headD default
  let r := env.ld src.refSrc
  let y := env.ld src.measSrc
  let d0 := if x.started then rndDiv (env.p 3 * x.dPrev) (2 ^ 17) - env.p 2 * 2 ^ l.shkd * (y - x.yPrev) else 0
  let d := sat48 d0
  let g : Gains := { kp := env.p 0, ki := env.p 1, kaw := env.p 4, shkp := l.shkp, nki := l.nki, awm := l.awm, umax := env.p 5, umin := env.p 6 }
  let o := piLaw g (x.loops.headD {}) x.kpLast.head? (errWord r y) d
  { run := { x with loops := [o.close o.u], kpLast := [g.kp], dPrev := d, yPrev := y, started := true }, words := [(l.sigBase, o.u)],
    flags := loopFlags o none 0 0, mask := 0xFF, sat := sats18 (r - y) || o.sat || decide (d ≠ d0) }

/-- One notch stage (R180, R181): the output before saturation, and the delays. -/
def notchStage (p : Nat → Int) (i : Nat) (x : Notch) (v : Int) : Int × Notch :=
  if bypassed p i then (v, { x1 := v, x2 := v, y1 := v, y2 := v })
  else
    let c (k : Nat) : Int := p (5 * i + k)
    let y := rndDiv (2 * (c 0 * v + c 1 * x.x1 + c 2 * x.x2 - c 3 * x.y1 - c 4 * x.y2)) (2 ^ 17)
    (y, { x1 := v, x2 := x.x1, y1 := sat18 y, y2 := x.y1 })

/-- The three stages of a NOTCH3 in order (R180). -/
def notchChain (p : Nat → Int) : Nat → List Notch → Int → Int × List Notch × Bool
  | _, [], v => (v, [], false)
  | i, x :: t, v =>
    let o := notchStage p i x v
    let q := notchChain p (i + 1) t (sat18 o.1)
    (q.1, o.2 :: q.2.1, sats18 o.1 || q.2.2)

/-- NOTCH3 (R173, R180, R181); it writes no flag bits (R175). Its input is the law's reference word. -/
def lawNotch (l : LawInst) (env : LawEnv) (x : LawRun) : LawOut :=
  let o := notchChain env.p 0 x.notch (env.ld (l.srcs.headD default).refSrc)
  { run := { x with notch := o.2.1 }, words := [(l.sigBase, o.1)], sat := o.2.2 }

end Sys2Proof.Machine
end

