-- ==== Sys2Proof/Machine/Field.lean ====
section
/-! DEFINITION. Field control and commutation (chapter 06): the current-loop laws FOC3 and FOC6 and the injection law HARM. Words
are integers in 2^-17; each named quantity is rounded once, to the nearest count with ties away from zero (log entry 16). -/

namespace Sys2Proof.Machine

/-- √3 at scale 2^64, rounded down. -/
def sqrt3Scaled : Nat := 31950697969885030203

/-- (p + q √3) / r rounded. -/
def rndSurd (p q r : Int) : Int := rndDiv (p * 2 ^ 64 + q * sqrt3Scaled) (r * 2 ^ 64)

/-- A product of two words as a word. -/
def mulWord (a b : Int) : Int := rndDiv (a * b) (2 ^ 17)

/-- √v rounded, 0 for a negative v. -/
def rootI (v : Int) : Int := if v < 0 then 0 else sqrtRound v.toNat

/-- The length of a vector in counts. -/
def len2 (a b : Int) : Int := rootI (a * a + b * b)

/-- A quotient as DIV gives it where the divisor is 0 (R119), without saturation otherwise. -/
def quotI (a b : Int) : Int := if b = 0 then (if 0 < a then 131071 else if a < 0 then -131072 else 0) else rndQuot a b

/-- Sine and cosine of an angle as SINCOS gives them, each within 2 counts (R119, log entry 5). -/
def sinFree (a n : Nat) : Int := sat18 (within 2 (sinWord a) n)
def cosFree (a n : Nat) : Int := sat18 (within 2 (cosWord a) n)

/-- The table look-up of R119 in a list of 2^sh + 1 words (log entry 5). -/
def lutFree (t : List Int) (sh : Nat) (x : Int) (n : Nat) : Int :=
  let k := 18 - sh
  let v := (x + 131072).toNat
  let i := v / 2 ^ k
  let num : Int := ((v % 2 ^ k : Nat) : Int) * (t.getD (i + 1) 0 - t.getD i 0)
  t.getD i 0 + num / 2 ^ k + (if num % 2 ^ k = 0 then 0 else ((n % 2 : Nat) : Int))

/-- A vector rotated by the angle whose sine and cosine are given: forward (inverse Park), and backward (Park) (R193). -/
def rotate (sn cs : Int) (v : Int × Int) : Int × Int := (rndDiv (v.1 * cs - v.2 * sn) (2 ^ 17), rndDiv (v.1 * sn + v.2 * cs) (2 ^ 17))
def unrotate (sn cs : Int) (v : Int × Int) : Int × Int := (rndDiv (v.1 * cs + v.2 * sn) (2 ^ 17), rndDiv (v.2 * cs - v.1 * sn) (2 ^ 17))

/-- What a current loop takes over from the demand stage and the catch of its machine: the torque reference and limits that
it latches, the stage, ALIGN_I, and the harmonic set (R190, R213, R224, R240 to R243). -/
structure FocIn where
  tRef : Int
  limits : Option (Int × Int)
  stage : Nat
  alignI : Int
  harm : List Int
  horder : List Nat
  hscale : Nat
  /-- The product of the base speed and the update period, in radians (R215). -/
  tPu : Rat

/-- Phase currents a, b, c of a three-phase law: in the paralleled arrangement the sums of the two half-bridge currents
(R208). -/
def phaseCur (l : LawInst) (env : LawEnv) : List Int :=
  let i := l.curSrc.map fun e => env.ld (2 * e)
  if l.legs.length = 6 then (List.range 3).map fun k => i.getD k 0 + i.getD (k + 3) 0 else (List.range 3).map fun k => i.getD k 0

/-- Clarke (R193). -/
def clarke (i : List Int) : Int × Int :=
  let a := i.getD 0 0
  let b := i.getD 1 0
  let c := i.getD 2 0
  (rndDiv (2 * a - b - c) 3, rndSurd 0 (b - c) 3)

/-- The six rows of R209 applied to six quantities: α, β, x, y, o1, o2. -/
def vsd (i : List Int) : Int × Int × Int × Int × Int × Int :=
  let g (k : Nat) : Int := i.getD k 0
  (rndSurd (2 * g 0 - g 1 - g 2) (g 3 - g 4) 6, rndSurd (g 3 + g 4 - 2 * g 5) (g 1 - g 2) 6,
   rndSurd (2 * g 0 - g 1 - g 2) (g 4 - g 3) 6, rndSurd (g 3 + g 4 - 2 * g 5) (g 2 - g 1) 6,
   rndDiv (g 0 + g 1 + g 2) 3, rndDiv (g 3 + g 4 + g 5) 3)

/-- The rotor angle of the law, with the slip angle for an induction machine (R202). -/
def lawAngle (l : LawInst) (env : LawEnv) (x : LawRun) (stage : Nat) : Nat :=
  if stage = 2 then 0
  else
    let th := match l.angSrc with | some e => unsigned18 (env.ld (2 * e)) | none => 0
    if l.mtype = 2 then (th + (x.slip / 2 ^ 18).toNat) % 262144 else th

/-- V_dc' and whether the floor acts (R207). -/
def vdcUsed (l : LawInst) (env : LawEnv) : Int × Bool :=
  let v := env.ld (2 * l.vdcSrc)
  (max v l.vdcMin, decide (v < l.vdcMin))

/-- VMAX (R198). -/
def vMax (p12 vdc : Int) : Int := rndDiv (p12 * 2 * vdc * 2 ^ 64) (2 ^ 17 * piScaled)

/-- KT × iq × (PSI + (LD − LQ) × id) as a word (R188). -/
def torquePm (l : LawInst) (id iq : Int) : Int :=
  let k := l.kt * 2 ^ l.shkt
  rndDiv (k * iq * (l.psi * 2 ^ l.shpsi * 2 ^ 17 + (l.ld - l.lq) * 2 ^ l.shl * id)) (2 ^ 51)

/-- KT × ψr × iq, ψr in 2^-34 (R202). -/
def torqueIm (l : LawInst) (psi iq : Int) : Int := rndDiv (l.kt * 2 ^ l.shkt * psi * iq) (2 ^ 51)

/-- T_EST (R192). -/
def tEst (l : LawInst) (x : LawRun) (id iq : Int) : Int := if l.mtype = 2 then torqueIm l x.psi iq else torquePm l id iq

/-- ψr* of an induction machine in 2^-34, lowered by LM × ID_FW (R202). -/
def psiRef (l : LawInst) (env : LawEnv) (x : LawRun) (n : Nat) : Int :=
  lutFree l.fluxTab 5 (env.ld l.spdSrc) n * 2 ^ 17 + rndDiv (l.lm * 2 ^ l.shm * x.idFw) (2 ^ 17)

/-- ψr has reached 0.9 of its reference since the entry into RUNNING, and rotor flux is building until then (R204). -/
def fluxUp (l : LawInst) (x : LawRun) (pr : Int) : Bool := l.mtype == 2 && (x.fluxed || decide (9 * pr ≤ 10 * x.psi))
def fluxing (l : LawInst) (x : LawRun) (pr : Int) : Bool := l.mtype == 2 && !fluxUp l x pr

/-- The harmonic adders of R213 for one axis: `c` and `s` are the offsets of the axis's coefficients. -/
def harmAdd (f : FocIn) (env : LawEnv) (th : Nat) (tr : Int) (c s : Nat) : Int :=
  let sum := (f.horder.zipIdx.map fun q =>
    let a := q.1 * th % 262144
    f.harm.getD (4 * q.2 + c) 0 * cosFree a (env.fn (16 + 2 * q.2)) + f.harm.getD (4 * q.2 + s) 0 * sinFree a (env.fn (17 + 2 * q.2))).sum
  if f.hscale = 1 then rndDiv (sum * |tr|) (2 ^ 34) else rndDiv sum (2 ^ 17)

/-- The references of steps 3 to 5 of R190: T_ref as clamped, id* before field weakening, id*, iq*, the two clamp flags of R197,
and whether flux is building. -/
structure RefOut where
  tRef : Int
  idBase : Int
  id : Int
  iq : Int
  ilim : Bool
  tlim : Bool
  flux : Bool
  imax : Int

/-- Steps 3 to 5 of R190 (R196, R197, R200, R202, R204, R213, R240, R242). -/
def references (l : LawInst) (env : LawEnv) (x : LawRun) (f : FocIn) (th : Nat) : RefOut :=
  let pr := psiRef l env x (env.fn 4)
  let flux := fluxing l x pr
  let held := decide (1 ≤ f.stage) && decide (f.stage ≤ 3)
  let t0 := if held || flux then 0 else f.tRef
  let tr := match f.limits with | some q => clampI q.2 q.1 t0 | none => t0
  let p14 := env.p 14
  let base :=
    if l.mtype = 2 then quotI (lutFree l.fluxTab 5 (env.ld l.spdSrc) (env.fn 4) * 2 ^ 17) (l.lm * 2 ^ l.shm)
    else lutFree l.mtpaId 6 tr (env.fn 5)
  let iq0 := if l.mtype = 2 then quotI (tr * 2 ^ 51) (l.kt * 2 ^ l.shkt * x.psi) else lutFree l.mtpaIq 6 tr (env.fn 6)
  let fw := rndDiv x.idFw (2 ^ 17)
  let id1 := max (base + fw) p14 + harmAdd f env th tr 0 1
  let iq1 := iq0 + harmAdd f env th tr 2 3
  let id1 := if f.stage = 2 then f.alignI else id1
  let iq1 := if f.stage = 2 then 0 else iq1
  let thr := match l.thrAddr with | some a => env.ld a | none => 16
  let imax := rndDiv (env.p 15 * thr) 16
  let id := clampI (-imax) imax id1
  let q := rootI (imax * imax - id * id)
  let iq := clampI (-q) q iq1
  { tRef := tr, idBase := base, id := id, iq := iq, ilim := id != id1 || iq != iq1, tlim := iq != iq1, flux := flux, imax := imax }

/-- The decoupling feed-forward (R199). -/
def feedForward (l : LawInst) (w id iq : Int) : Int × Int :=
  (rndDiv (-(w * (l.lq * 2 ^ l.shl) * iq)) (2 ^ 34),
   rndDiv (w * (l.ld * 2 ^ l.shl * id + l.psi * 2 ^ l.shpsi * 2 ^ 17)) (2 ^ 34))

/-- The vector limit with d-axis priority (R199), and whether each clamp acts. -/
def limitVec (v : Int × Int) (m : Int) : (Int × Int) × Bool × Bool :=
  let d := clampI (-m) m v.1
  let r := rootI (m * m - d * d)
  let q := clampI (-r) r v.2
  ((d, q), d != v.1, q != v.2)

/-- The field-weakening integrator in 2^-34 (R200): `mag` is |v_requested|. -/
def fwStep (l : LawInst) (env : LawEnv) (x : LawRun) (idBase mag vmax : Int) : Int :=
  let delta := mag * 2 ^ 17 - l.vfw * vmax
  let lo := min 0 ((env.p 14 - idBase) * 2 ^ 17)
  clampI lo 0 (x.idFw - rndDiv (env.p 13 * delta) (2 ^ (17 + l.nfw)))

/-- The rotor-flux model of an induction machine (R203): ψr, and θ_slip from the new ψr. -/
def fluxStep (l : LawInst) (env : LawEnv) (x : LawRun) (pr id iq : Int) : Int × Int :=
  let tr := l.tr * 2 ^ l.shm
  let lm := l.lm * 2 ^ l.shm
  let psi := x.psi + quotI (lm * id - x.psi) tr
  let den := tr * max psi (rndDiv pr 16)
  let slip := if den = 0 then (env.fn 8 : Int) else rndQuot (lm * iq * 2 ^ 36 * 2 ^ 64) (den * 2 * piScaled)
  (psi, (x.slip + slip) % 2 ^ 36)

/-- The two controllers of a PI_DQ with their gain set (R164, R170, R176 to R179), and whether a word saturated before them. -/
structure DqOut where
  d : PiOut
  q : PiOut
  gset : Nat
  kps : List Int
  sat : Bool

/-- PI_DQ (R164, R170, R176). -/
def piDq (l : LawInst) (env : LawEnv) (x : LawRun) (idRef iqRef id iq : Int) : DqOut :=
  let k := chooseSet (fun _ => env.p 8) (env.p 9) l.nsets x.gset (schedVar l env)
  let g (i : Nat) : Gains := { kp := env.p (4 * k + 2 * i), ki := env.p (4 * k + 2 * i + 1), kaw := env.p 10, shkp := l.shkp, nki := l.nki,
                               awm := l.awm, umax := env.p 11, umin := -(env.p 11) }
  { d := piLaw (g 0) (x.loops.getD 0 {}) x.kpLast[0]? (errWord idRef id) 0, q := piLaw (g 1) (x.loops.getD 1 {}) x.kpLast[1]? (errWord iqRef iq) 0,
    gset := k, kps := [(g 0).kp, (g 1).kp], sat := sats18 (idRef - id) || sats18 (iqRef - iq) || schedSat l env }

/-- The overmodulation gain (R206), beyond the linear range of V_dc' / √3. -/
def overmod (l : LawInst) (env : LawEnv) (v : Int × Int) (vdc : Int) : Int × Int :=
  let m := len2 v.1 v.2
  if l.ovm = 1 && decide (vdc * vdc < 3 * m * m) then
    let g := lutFree l.ovmTab 5 (sat18 (quotI (m * piScaled * 2 ^ 17) (2 * vdc * 2 ^ 64))) (env.fn 7)
    (mulWord v.1 g, mulWord v.2 g)
  else v

/-- The three phase voltages of a vector (R205). -/
def invClarke (v : Int × Int) : List Int := [v.1, rndSurd (-v.1) v.2 2, rndSurd (-v.1) (-v.2) 2]

/-- The phase voltages of six phases (R209). -/
def invVsd (v xy : Int × Int) : List Int × List Int :=
  ([v.1 + xy.1, rndSurd (-v.1 - xy.1) (v.2 - xy.2) 2, rndSurd (-v.1 - xy.1) (xy.2 - v.2) 2],
   [rndSurd (v.2 + xy.2) (v.1 - xy.1) 2, rndSurd (v.2 + xy.2) (xy.1 - v.1) 2, -v.2 - xy.2])

/-- Twice the numerators of the duties of one star over 2 V_dc' (R205): V_dc' + 2 v − max − min. -/
def dutyNums (v : List Int) (vdc : Int) : List Int :=
  let hi := v.foldl max (v.headD 0)
  let lo := v.foldl min (v.headD 0)
  v.map fun k => vdc + 2 * k - hi - lo

/-- A compare value δ × P with δ = num / (2 V_dc') + c clipped to 0 to 1, c in 2^-17, and whether the clip acts (R205, R206, R208,
R345). -/
def dutyCmp (num vdc c : Int) (p : Nat) : W18 × Bool :=
  let den := 2 * vdc * 2 ^ 17
  let n := num * 2 ^ 17 + 2 * vdc * c
  if vdc = 0 then (BitVec.ofNat 18 (if 0 < num then p else if num < 0 then 0 else (p + 1) / 2), num != 0)
  else (BitVec.ofNat 18 (rndDiv (clampI 0 den n * p) den).toNat, decide (num < 0) || decide (2 * vdc < num))

/-- P of a leg's unit as the context's state area holds it (R345). -/
def legPeriod (l : LawInst) (env : LawEnv) (leg : Nat) : Nat :=
  match l.pAddr.lookup leg with | some a => unsigned18 (env.ld a) | none => 0

/-- The compares of the legs from their duty numerators and corrections: shadows, and whether any duty was clipped. -/
def legCmps (l : LawInst) (env : LawEnv) (nums cs : List Int) (vdc : Int) : List (Nat × W18) × Bool :=
  let o := l.legs.zipIdx.map fun q => (q.1, dutyCmp (nums.getD q.2 0) vdc (cs.getD q.2 0) (legPeriod l env q.1))
  (o.map fun q => (4 * q.1, q.2.1), o.any fun q => q.2.2)

/-- Load-all for the units of the law's legs. -/
def legMask (l : LawInst) : Nat := (l.legs.dedup.map fun k => 2 ^ k).sum

/-- The sharing corrections of the paralleled arrangement, per leg, and whether one has reached CC_MAX (R208). -/
def sharing (l : LawInst) (env : LawEnv) : List Int × Bool :=
  if l.legs.length ≠ 6 then ([], false)
  else
    let i (k : Nat) : Int := env.ld (2 * l.curSrc.getD k 0)
    let raw := (List.range 3).map fun k => rndDiv (l.kCc * (i (k + 3) - i k)) (2 ^ 17)
    let c := raw.map (clampI (-l.ccMax) l.ccMax)
    (c ++ c.map fun v => -v, raw.any fun v => decide (l.ccMax ≤ |v|))

/-- The stage lets the law write compares (R240): in stage 1 the outputs stay held. -/
def writesOut (stage : Nat) : Bool := stage != 1

/-- FOC_ flag bits 8 to 15 (R223). -/
def focFlags (vlim fw ilim tlim ovm flux vdc aux : Bool) : Nat :=
  256 * b2n vlim + 512 * b2n fw + 1024 * b2n ilim + 2048 * b2n tlim + 4096 * b2n ovm + 8192 * b2n flux + 16384 * b2n vdc + 32768 * b2n aux

/-- The advance ω × ADV in angle counts (R194). -/
def thetaAdv (l : LawInst) (env : LawEnv) : Int :=
  match l.advAddr with | some a => rndDiv (env.ld l.spdSrc * env.ld a) (2 ^ 16) | none => 0

/-- The signal words of R192 in their order. -/
def signals (l : LawInst) (v : List Int) : List (Nat × Int) := v.zipIdx.map fun q => (l.sigBase + q.2, q.1)

/-- |v_αβ| as a fraction of the six-step fundamental 2 × V_dc / π (R192). -/
def modFraction (v : Int × Int) (vdc : Int) : Int := quotI (len2 v.1 v.2 * piScaled * 2 ^ 17) (2 * vdc * 2 ^ 64)

/-- The ULIM_SRC words and the values that PI_DQ takes as u_lim (R164, R199). -/
def ulimWords (l : LawInst) (v : Int × Int) (ff : Int × Int) : List (Nat × Int) := l.ulimSrc.zip [v.1 - ff.1, v.2 - ff.2]

/-- u_lim of axis `i` (R164). -/
def ulimOf (l : LawInst) (i : Nat) (vlim ff u : Int) : Int := if i < l.ulimSrc.length then sat18 (vlim - ff) else u

/-- FOC3 (R190 to R208, R213). -/
def lawFoc3 (l : LawInst) (env : LawEnv) (x : LawRun) (f : FocIn) : LawOut :=
  let ph := phaseCur l env
  let th := lawAngle l env x f.stage
  let w := env.ld l.spdSrc
  let sn := sinFree th (env.fn 0)
  let cs := cosFree th (env.fn 1)
  let i := unrotate sn cs (clarke ph)
  let id := sat18 i.1
  let iq := sat18 i.2
  let pr := psiRef l env x (env.fn 4)
  let r := references l env x f th
  let dq := piDq l env x r.id r.iq id iq
  let ff := feedForward l w id iq
  let vd := vdcUsed l env
  let vm := vMax (env.p 12) vd.1
  let req : Int × Int := (dq.d.u + ff.1, dq.q.u + ff.2)
  let lim := limitVec req vm
  let fw := fwStep l env x r.idBase (len2 req.1 req.2) vm
  let thv := (((th : Int) + thetaAdv l env) % 262144).toNat
  let vab := rotate (sinFree thv (env.fn 2)) (cosFree thv (env.fn 3)) lim.1
  let sh := sharing l env
  let nums := dutyNums (invClarke (overmod l env vab vd.1)) vd.1
  let cmps := legCmps l env (nums ++ nums) sh.1 vd.1
  let fl := if l.mtype = 2 then fluxStep l env x pr id iq else (x.psi, x.slip)
  let out := writesOut f.stage
  { run := if f.stage = 1 then { x with gset := dq.gset, kpLast := dq.kps, tRef := r.tRef }
           else { x with loops := [dq.d.close (ulimOf l 0 lim.1.1 ff.1 dq.d.u), dq.q.close (ulimOf l 1 lim.1.2 ff.2 dq.q.u)],
                         gset := dq.gset, kpLast := dq.kps, idFw := fw, psi := fl.1, slip := fl.2, fluxed := fluxUp l x pr, tRef := r.tRef }
    words := signals l [id, iq, r.id, r.iq, lim.1.1, lim.1.2, tEst l x id iq, rndDiv ph.sum 3, modFraction vab (env.ld (2 * l.vdcSrc))]
      ++ ulimWords l lim.1 ff
    shadows := if out then cmps.1 else []
    ldall := if out then legMask l else 0
    flags := loopFlags dq.d (some dq.q) x.gset dq.gset
      + focFlags (lim.2.1 || lim.2.2) (decide (fw < 0)) r.ilim (lim.2.2 || r.tlim) cmps.2 r.flux vd.2 sh.2
    mask := 0xFFFF
    sat := dq.sat || dq.d.sat || dq.q.sat || sats18 i.1 || sats18 i.2 }

/-- One axis of the xy plane (R210): PI with KP_XY and KI_XY, AWM = 0, limits ±XYLIM × VMAX. -/
def xyPi (l : LawInst) (x : Loop) (lim e : Int) : PiOut :=
  piLaw { kp := l.kpXy, ki := l.kiXy, kaw := 0, shkp := l.shkp, nki := l.nki, awm := 0, umax := lim, umin := -lim } x none e 0

/-- FOC6 (R190 to R211, R213). -/
def lawFoc6 (l : LawInst) (env : LawEnv) (x : LawRun) (f : FocIn) : LawOut :=
  let z := vsd (l.curSrc.map fun e => env.ld (2 * e))
  let th := lawAngle l env x f.stage
  let w := env.ld l.spdSrc
  let sn := sinFree th (env.fn 0)
  let cs := cosFree th (env.fn 1)
  let i := unrotate sn cs (z.1, z.2.1)
  let id := sat18 i.1
  let iq := sat18 i.2
  let xy := unrotate sn cs (z.2.2.1, z.2.2.2.1)
  let pr := psiRef l env x (env.fn 4)
  let r := references l env x f th
  let dq := piDq l env x r.id r.iq id iq
  let ff := feedForward l w id iq
  let vd := vdcUsed l env
  let vm := vMax (env.p 12) vd.1
  let xl := mulWord l.xyLim vm
  let px := xyPi l (x.loops.getD 2 {}) xl (errWord 0 xy.1)
  let py := xyPi l (x.loops.getD 3 {}) xl (errWord 0 xy.2)
  let vxy := limitVec (px.u, py.u) xl
  let req : Int × Int := (dq.d.u + ff.1, dq.q.u + ff.2)
  let lim := limitVec req (max 0 (vm - len2 vxy.1.1 vxy.1.2))
  let fw := fwStep l env x r.idBase (len2 req.1 req.2) vm
  let thv := (((th : Int) + thetaAdv l env) % 262144).toNat
  let snv := sinFree thv (env.fn 2)
  let csv := cosFree thv (env.fn 3)
  let vab := rotate snv csv lim.1
  let ph := invVsd (overmod l env vab vd.1) (rotate snv csv vxy.1)
  let cmps := legCmps l env (dutyNums ph.1 vd.1 ++ dutyNums ph.2 vd.1) [] vd.1
  let fl := if l.mtype = 2 then fluxStep l env x pr id iq else (x.psi, x.slip)
  let out := writesOut f.stage
  { run := if f.stage = 1 then { x with gset := dq.gset, kpLast := dq.kps, tRef := r.tRef }
           else { x with loops := [dq.d.close (ulimOf l 0 lim.1.1 ff.1 dq.d.u), dq.q.close (ulimOf l 1 lim.1.2 ff.2 dq.q.u), px.loop, py.loop],
                         gset := dq.gset, kpLast := dq.kps, idFw := fw, psi := fl.1, slip := fl.2, fluxed := fluxUp l x pr, tRef := r.tRef }
    words := signals l [id, iq, r.id, r.iq, lim.1.1, lim.1.2, tEst l x id iq, max |z.2.2.2.2.1| |z.2.2.2.2.2|, modFraction vab (env.ld (2 * l.vdcSrc))]
      ++ ulimWords l lim.1 ff
    shadows := if out then cmps.1 else []
    ldall := if out then legMask l else 0
    flags := loopFlags dq.d (some dq.q) x.gset dq.gset
      + focFlags (lim.2.1 || lim.2.2) (decide (fw < 0)) r.ilim (lim.2.2 || r.tlim) cmps.2 r.flux vd.2
          (vxy.2.1 || vxy.2.2 || px.ulim || py.ulim)
    mask := 0xFFFF
    sat := dq.sat || dq.d.sat || dq.q.sat || px.sat || py.sat || sats18 i.1 || sats18 i.2 }

/-- A coefficient moved towards its parameter by at most HRATE (R212). -/
def towards (v target step : Int) : Int := v + clampI (-step) step (target - v)

/-- HARM (R212, R214). -/
def lawHarm (l : LawInst) (env : LawEnv) (x : LawRun) : LawOut :=
  let h := x.harm.zipIdx.map fun q => towards q.1 (env.p q.2) l.hrate
  { run := { x with harm := h }, words := signals l h }

end Sys2Proof.Machine
end

