-- ==== Sys2Proof/Machine/Predict.lean ====
section
/-! DEFINITION. Finite-set predictive control, FCS6 (R215 to R220). Predictions and costs are exact rationals in counts of
2^-17. -/

namespace Sys2Proof.Machine

/-- A word times 2^SH in pu. -/
def puOf (w : Int) (sh : Nat) : Rat := ((w * 2 ^ sh : Int) : Rat) / 131072

/-- √3 as a rational (2^-64). -/
def sqrt3Rat : Rat := (sqrt3Scaled : Rat) / 2 ^ 64

/-- The voltages of a switching state in counts: α, β, x and y for a pole voltage of V_dc' (R209, R215). -/
def stateVolts (vdc : Int) (st : Nat) : Rat × Rat × Rat × Rat :=
  let g (k : Nat) : Rat := if st.testBit k then (vdc : Rat) / 3 else 0
  let h := sqrt3Rat / 2
  (g 0 - (g 1 + g 2) / 2 + h * (g 3 - g 4), h * (g 1 - g 2) + (g 3 + g 4) / 2 - g 5,
   g 0 - (g 1 + g 2) / 2 - h * (g 3 - g 4), h * (g 2 - g 1) + (g 3 + g 4) / 2 - g 5)

/-- What the model of R215 uses: T / LD, T / LQ, T / L_XY, RS, ω LD, ω LQ, ω PSI. -/
structure FcsModel where
  kd : Rat
  kq : Rat
  kx : Rat
  rs : Rat
  wld : Rat
  wlq : Rat
  wpsi : Rat

/-- The model of a law at a speed; for MTYPE 0 and 1 both inductances of the αβ plane are L_AB (R215). -/
def fcsModel (l : LawInst) (w : Int) (tPu : Rat) : FcsModel :=
  let ld := if l.mtype = 2 then puOf l.ld l.shl else puOf l.lAb l.shlx
  let lq := if l.mtype = 2 then puOf l.lq l.shl else puOf l.lAb l.shlx
  let wr : Rat := (w : Rat) / 131072
  { kd := tPu / ld, kq := tPu / lq, kx := tPu / puOf l.lXy l.shlx, rs := puOf l.rs 0, wld := wr * ld, wlq := wr * lq,
    wpsi := wr * puOf l.psi l.shpsi * 131072 }

/-- Currents id, iq, ix, iy in counts. -/
abbrev Cur4 := Rat × Rat × Rat × Rat

/-- One step of R215 with the voltages of a state rotated by an angle of the given sine and cosine. -/
def fcsStep (m : FcsModel) (sn cs : Int) (i : Cur4) (v : Rat × Rat × Rat × Rat) : Cur4 :=
  let s : Rat := (sn : Rat) / 131072
  let c : Rat := (cs : Rat) / 131072
  let vd := v.1 * c + v.2.1 * s
  let vq := v.2.1 * c - v.1 * s
  (i.1 + m.kd * (vd - m.rs * i.1 + m.wlq * i.2.1), i.2.1 + m.kq * (vq - m.rs * i.2.1 - m.wld * i.1 - m.wpsi),
   i.2.2.1 + m.kx * (v.2.2.1 - m.rs * i.2.2.1), i.2.2.2 + m.kx * (v.2.2.2 - m.rs * i.2.2.2))

/-- Legs in which two switching states differ (R216). -/
def switched (a b : Nat) : Nat := ((List.range 6).filter fun k => a.testBit k != b.testBit k).length

/-- A candidate of the second step: its state, cost in units of 2^-34, |i_dq|² and n_sw. -/
structure Candidate where
  st : Nat
  cost : Rat
  mag : Rat
  nsw : Nat
  deriving Inhabited

/-- The candidate of a state (R216). -/
def candidate (env : LawEnv) (m : FcsModel) (sn cs : Int) (i : Cur4) (vdc idRef iqRef : Int) (applied st : Nat) : Candidate :=
  let q := fcsStep m sn cs i (stateVolts vdc st)
  let n := switched applied st
  { st := st
    cost := (idRef - q.1) * (idRef - q.1) + (iqRef - q.2.1) * (iqRef - q.2.1)
      + (env.p 0 : Rat) / 131072 * (q.2.2.1 * q.2.2.1 + q.2.2.2 * q.2.2.2) + (env.p 1 : Rat) / 131072 * n * 131072 * 131072
    mag := q.1 * q.1 + q.2.1 * q.2.1
    nsw := n }

/-- The order of two candidates by a value, then n_sw, then the state number (R218). -/
def Candidate.before (key : Candidate → Rat) (a b : Candidate) : Bool :=
  decide (key a < key b) || (decide (key a = key b) && (decide (a.nsw < b.nsw) || (a.nsw == b.nsw && decide (a.st < b.st))))

/-- The first candidate in that order. -/
def firstOf (key : Candidate → Rat) (l : List Candidate) : Candidate :=
  l.foldl (fun a b => if b.before key a then b else a) (l.headD default)

/-- The choice among 64 candidates (R216 to R218), and whether all of them exceed IMAX_EFF. -/
def chooseState (l : List Candidate) (imax : Int) : Nat × Bool :=
  let ok := l.filter fun c => decide (c.mag ≤ ((imax * imax : Int) : Rat))
  if ok.isEmpty then ((firstOf Candidate.mag l).st, true) else ((firstOf Candidate.cost ok).st, false)

/-- FCS6 (R215 to R220): steps 1 to 5 of R190 as FOC6, then the prediction. The spec gives VD and VQ of this law no value (log
entry 2). -/
def lawFcs6 (l : LawInst) (env : LawEnv) (x : LawRun) (f : FocIn) : LawOut :=
  let z := vsd (l.curSrc.map fun e => env.ld (2 * e))
  let th := lawAngle l env x f.stage
  let w := env.ld l.spdSrc
  let i := unrotate (sinFree th (env.fn 0)) (cosFree th (env.fn 1)) (z.1, z.2.1)
  let id := sat18 i.1
  let iq := sat18 i.2
  let pr := psiRef l env x (env.fn 4)
  let r := references l env x f th
  let vd := vdcUsed l env
  let vm := vMax (env.p 12) vd.1
  let m := fcsModel l w f.tPu
  let adv := thetaAdv l env
  let t1 := (((th : Int) + rndDiv adv 3) % 262144).toNat
  let t2 := (((th : Int) + adv) % 262144).toNat
  let i1 := fcsStep m (sinFree t1 (env.fn 2)) (cosFree t1 (env.fn 3)) (id, iq, z.2.2.1, z.2.2.2.1) (stateVolts vd.1 x.fcs)
  let sn := sinFree t2 (env.fn 9)
  let cs := cosFree t2 (env.fn 10)
  let best := chooseState ((List.range 64).map fun st => candidate env m sn cs i1 vd.1 r.id r.iq x.fcs st) r.imax
  let sd := rndRat (m.rs * id - m.wlq * iq)
  let sq := rndRat (m.rs * iq + m.wld * id + m.wpsi)
  let mag := len2 sd sq
  let fw := fwStep l env x r.idBase mag vm
  let lo := min 0 ((env.p 14 - r.idBase) * 2 ^ 17)
  let vlim := decide (fw = lo) && decide (l.vfw * vm < mag * 2 ^ 17)
  let v := stateVolts vd.1 best.1
  let fl := if l.mtype = 2 then fluxStep l env x pr id iq else (x.psi, x.slip)
  let out := writesOut f.stage
  { run := if f.stage = 1 then { x with tRef := r.tRef } else { x with fcs := best.1, idFw := fw, psi := fl.1, slip := fl.2, fluxed := fluxUp l x pr, tRef := r.tRef }
    words := signals l [id, iq, r.id, r.iq, s18 (BitVec.ofNat 18 (env.fn 11)), s18 (BitVec.ofNat 18 (env.fn 12)), tEst l x id iq,
                        max |z.2.2.2.2.1| |z.2.2.2.2.2|, modFraction (rndRat v.1, rndRat v.2.1) (env.ld (2 * l.vdcSrc))]
    shadows := if out then [(0x30, BitVec.ofNat 18 best.1)] else []
    ldall := if out then legMask l else 0
    flags := focFlags vlim (decide (fw < 0)) (r.ilim || best.2) (vlim || r.tlim) false r.flux vd.2 false
    mask := 0xFF00
    sat := sats18 i.1 || sats18 i.2 }

end Sys2Proof.Machine
end

