-- ==== Sys2Proof/Machine/DmdLaw.lean ====
section
/-! DEFINITION. The demand law DMD (R224, R229 to R239, R244, R248). References are held in 2^-34. -/

namespace Sys2Proof.Machine

/-- What DMD takes over at a release: the mode and source that CTL_MODE has set, the message words, the curves, the stream
entries of REGEN_LIM and of the allocation, the stage of the catch, the catch's flags, a stop ramp with its remaining time and
the context's period (both in quarters of a nanosecond), and the torque reference in use. -/
structure DmdIn where
  mode : Nat
  src : Nat
  srcArg : Nat
  msg : Tab 8 W18
  curves : Tab 4 Curve
  regenSlot : Nat
  allocSlot : Nat
  running : Bool
  stage : Nat
  bemf : Bool
  rev : Bool
  ramp : Option (Int × Int)
  inUse : Int

/-- Speed used for limits and ramps (R226). -/
def dmdSpeed (l : LawInst) (env : LawEnv) : Int := env.ld l.spdSrc

/-- The fold of R229 as a fraction: numerator and denominator. -/
def foldOf (env : LawEnv) (w : Int) : Int × Int :=
  let sl := if 0 ≤ w then env.p 6 else env.p 7
  let b := env.p 8
  if b = 0 then (if |w| < sl then 1 else 0, 1) else (clampI 0 b (sl - |w|), b)

/-- TLIM_P and TLIM_N (R229): `regen` is the regenerative limit. -/
def torqueLimits (env : LawEnv) (w regen : Int) : Int × Int :=
  let f := foldOf env w
  let mot := rndDiv (env.p 4 * f.1) f.2
  let gen := min (env.p 5) regen
  if 0 < w then (mot, -gen) else if w < 0 then (gen, -mot) else (env.p 4, -(env.p 4))

/-- The piece of a curve that an input lies in (R238). -/
def curvePiece (x : Int) : List Int → List Int → Int
  | x0 :: x1 :: xs, y0 :: y1 :: ys =>
    if x < x1 then y0 + rndQuot ((x - x0) * (y1 - y0)) (x1 - x0) else curvePiece x (x1 :: xs) (y1 :: ys)
  | _, y :: _ => y
  | _, [] => 0

/-- The output of a curve that is on (R238). -/
def curveOut (c : Curve) (x : Int) : Int :=
  if x ≤ c.xs.headD 0 then c.ys.headD 0 else if c.xs.getLastD 0 ≤ x then c.ys.getLastD 0 else curvePiece x c.xs c.ys

/-- A curve's turn-on variable after a release (R238). -/
def curveOn (c : Curve) (on ovr : Bool) (x : Int) : Bool :=
  if ovr then false else if on then !decide (x < c.on - c.hyst) else decide (c.on ≤ x)

/-- Input and over-range flag of a curve (R136, R237). -/
def curveIn (d : DmdIn) (env : LawEnv) (c : Curve) : Int × Bool :=
  if c.insel then (s18 (d.msg.at c.inarg), false) else (env.ld (2 * c.inarg), decide (131072 ≤ unsigned18 (env.ld (2 * c.inarg + 1))))

/-- The demand of the source in use, the turn-on variables after it, and whether a curve input was over-range (R234, R238). -/
def demandOf (d : DmdIn) (env : LawEnv) (on : Tab 4 Bool) (src arg : Nat) : Int × Tab 4 Bool × Bool :=
  if src = 0 then (s18 (d.msg.at arg), on, false)
  else if src = 1 then
    let c := d.curves.at arg
    let i := curveIn d env c
    let o := curveOn c (on.at arg) i.2 i.1
    (if o then curveOut c i.1 else 0, on.put arg o, i.2)
  else (env.ld (2 * d.allocSlot), on, false)

/-- A reference moved by at most a rising or a falling step (R235); a ramp through zero falls to zero and then rises. -/
def rampTo (r d up down : Int) : Int :=
  if r = 0 || (decide (0 < r) && decide (r < d)) || (decide (r < 0) && decide (d < r)) then r + clampI (-up) up (d - r)
  else if (decide (0 < r) && decide (d < 0)) || (decide (r < 0) && decide (0 < d)) then
    if |r| < down then clampI (-up) up d else if 0 < r then r - down else r + down
  else r + clampI (-down) down (d - r)

/-- A step word as an increment in 2^-34 (R226). -/
def rampWord (l : LawInst) (w : Int) : Int := w * 2 ^ (17 - l.nrmp)

/-- The stop ramp (R109, R236): what is left of the torque shrinks in proportion to the time that is left (log entry 17). -/
def stopStep (r : Int) (rest period : Int) : Int := if rest ≤ period then 0 else (if 0 ≤ r then r * (rest - period) / rest else -(-r * (rest - period) / rest))

/-- The mode, the source and the references as a release takes them over (R232): a change of mode in RUNNING is bumpless. -/
def takeMode (d : DmdIn) (x : LawRun) (w : Int) : LawRun :=
  if 1 ≤ d.stage ∧ d.stage ≤ 4 then x
  else
    let y := { x with mode := d.mode, src := d.src, srcArg := d.srcArg }
    if !d.running || x.mode == d.mode then y
    else if d.mode = 1 then { y with rW := w * 2 ^ 17, rT := 0 } else { y with rT := d.inUse * 2 ^ 17 }

/-- Bits 0 to 7 of DMD's flags (R248). -/
def dmdFlags (tlim fold ramp inbad bemf rev stop : Bool) (stage : Nat) : Nat :=
  b2n tlim + 2 * b2n fold + 4 * b2n ramp + 8 * b2n inbad + 16 * b2n (decide (1 ≤ stage) && decide (stage ≤ 4)) + 32 * b2n bemf + 64 * b2n rev
    + 128 * b2n stop

/-- DMD, with whether its ramp has reached the demand (R229 to R238, R244). -/
def lawDmd (l : LawInst) (env : LawEnv) (x0 : LawRun) (d : DmdIn) : LawOut × Bool :=
  let w := dmdSpeed l env
  let x := takeMode d x0 w
  let lim := torqueLimits env w (env.ld (2 * d.regenSlot))
  let f := foldOf env w
  let q := demandOf d env x.curveOn x.src x.srcArg
  let torque := x.mode == 0
  let lo := if torque then lim.2 else -(env.p 7)
  let hi := if torque then lim.1 else env.p 6
  let dm := clampI lo hi q.1
  let catching := decide (1 ≤ d.stage) && decide (d.stage ≤ 3)
  let up := rampWord l (if torque then env.p 0 else env.p 2)
  let down := rampWord l (if torque then env.p 1 else env.p 3)
  let ref := if torque then x.rT else x.rW
  let next := if catching then ref else rampTo ref (dm * 2 ^ 17) up down
  let y : LawRun :=
    match d.ramp with
    | some t =>
      let r0 := if torque || x.stopping then x.rT else d.inUse * 2 ^ 17
      { x with rT := if catching then 0 else stopStep r0 t.1 t.2, stopping := true, curveOn := q.2.1 }
    | none =>
      if torque then { x with rT := if catching then 0 else next, stopping := false, curveOn := q.2.1 }
      else { x with rT := 0, rW := next, stopping := false, curveOn := q.2.1 }
  let moving := match d.ramp with | some _ => y.rT != 0 | none => next != dm * 2 ^ 17
  let reached := d.ramp.isNone && !catching && !moving
  let stage := if d.stage = 4 && reached then 5 else d.stage
  ({ run := y
     words := signals l [rndDiv y.rT (2 ^ 17), if torque then w else rndDiv y.rW (2 ^ 17), lim.1, lim.2, stage]
     flags := dmdFlags (torque && d.ramp.isNone && dm != q.1) (decide (f.1 < f.2)) moving q.2.2 d.bemf d.rev d.ramp.isSome stage
     mask := 0xFF }, reached)

end Sys2Proof.Machine
end

