-- ==== Sys2Proof/Machine/Trace.lean ====
section
/-! DEFINITION. The trace unit (R89): DIA_TRACE, and the sample that a normal completion takes. -/

namespace Sys2Proof.Machine

/-- Words of the trace buffer (R89). -/
def traceWords : Nat := 65536

/-- The first word and the length of a context's state area (R143). -/
def Ctx.areaFirst (x : Ctx) : Nat := fld x.area 14 0
def Ctx.areaLen (x : Ctx) : Nat := fld x.area 30 16

/-- The context whose state area holds a word of a region. -/
def areaOwner (s : State) (g a : Nat) : Option Nat :=
  ((placed s).find? fun i =>
    let x := ctxAt s i.num
    x.region == g && decide (x.areaFirst ≤ a) && decide (a < x.areaFirst + x.areaLen)).map CtxImg.num

/-- A region word as it stands outside any activation: a stream word, a signal word as its writer has published it, a state word as
the last normal completion left it (R138, R139). -/
def regionWord (s : State) (g a : Nat) : W18 :=
  if a < 0x400 then memGet (s.thk.rmem.at g) a
  else if a < 0x1000 then memGet (bankOf s.thk g (signalBank s g a {})) a
  else memGet (bankOf s.thk g (((areaOwner s g a).map fun c => (ctxAt s c).stBank).getD false)) a

/-- A channel of a sample at the completion of context `c` (R89): a signal word of its own comes from the bank `b` that the completion
publishes. -/
def traceWord (s : State) (c : Nat) (b : Bool) (ch : Nat) : W18 :=
  let g := ch / 32768 % 4
  let a := ch % 32768
  if 0x400 ≤ a && a < 0x1000 && (memGet (s.thk.sigOwner.at g) a).toNat == c + 1 then memGet (bankOf s.thk g b) a
  else regionWord s g a

/-- The trigger condition at a sample (R89). -/
def traceHit (t : Trace) (v : Int) : Bool :=
  match t.tmode with
  | 0 => true
  | 1 => match t.last0 with | some p => decide (p < t.tlvl) && decide (t.tlvl ≤ v) | none => false
  | 2 => match t.last0 with | some p => decide (t.tlvl < p) && decide (v ≤ t.tlvl) | none => false
  | _ => t.hit

/-- One sample put into a capture: a ring until the trigger, then up to the end of the buffer (R89); `late` counts a sample whose reads
took too long. -/
def Trace.take (t : Trace) (row : List W18) (late : Bool) (time : W64) : Trace :=
  let n := traceWords / max 1 t.nch
  let v := s18 (row.headD 0)
  let c := t.cap
  let c : Capture :=
    if bit c.stat 30 then { c with samples := c.samples ++ [row] }
    else if traceHit t v then
      let pre := c.samples.drop (c.samples.length - t.pre)
      { c with samples := pre ++ [row], trigIdx := pre.length, trigTime := time, stat := setBit c.stat 30 true }
    else { c with samples := (c.samples ++ [row]).drop (c.samples.length + 1 - n) }
  let full := bit c.stat 30 && decide (n ≤ c.samples.length)
  let st := setFld (if late then incSat c.stat 28 21 else c.stat) 16 0 c.samples.length
  { t with cap := { c with stat := if full then setBit (setBit st 31 false) 29 true else st }, divCount := 0, last0 := some v, hit := false }

/-- The sample of a normal completion of context `c`, whose signal words lie in bank `b` (R89): a complete capture is saved in the flash
log. Whether the reads are late is open (log entry 2). -/
def traceSample (s : State) (c : Nat) (b : Bool) : State :=
  let t := s.trc
  if !bit t.cap.stat 31 || t.ctx != c then s
  else if t.divCount < t.div then { s with trc := { t with divCount := t.divCount + 1 } }
  else
    let t := t.take (t.chans.map (traceWord s c b)) (freeVal s % 2 == 1) (now s)
    let s := { freeTaken s with trc := t }
    if bit t.cap.stat 29 && flashOk s then { s with nv := { s.nv with saved := t.cap, savedNch := t.nch } } else s

/-- The fields of DIA_TRACE that only ARM uses hold 0 (R89). -/
def traceUnused (r : Req) : Bool := zeroAt r 9 7

/-- A channel of ARM is well formed: [31:17] reserved. -/
def chanOk (v : Nat) : Bool := decide (v < 2 ^ 17)

/-- The channels of ARM. -/
def traceChans (r : Req) (n : Nat) : List Nat := (List.range n).map fun i => fieldAt r (24 + 4 * i) 4

/-- The payload of ARM within its ranges (R89). -/
def traceArmOk (r : Req) : Bool :=
  let nch := fieldAt r 9 1
  opForm r 48 0 && decide (1 ≤ nch) && decide (nch ≤ 8) && decide (fieldAt r 10 1 < 160) && decide (fieldAt r 14 1 ≤ 3)
    && (if fieldAt r 14 1 = 3 then decide (1 ≤ fieldAt r 15 1) && decide (fieldAt r 15 1 ≤ 13) else fieldAt r 15 1 == 0)
    && (sext18? (fieldAt r 16 4)).isSome && zeroAt r 20 4 && (traceChans r nch).all chanOk && zeroAt r (24 + 4 * nch) (32 - 4 * nch)
    && decide (fieldAt r 12 2 < traceWords / max 1 nch)

/-- DIA_TRACE ARM (R89). -/
def execDiaTraceArm (r : Req) (s : State) : Host.Outcome State Fault Refusal :=
  let nch := fieldAt r 9 1
  .next (runJob 0x6002 r s
    (guardSt (traceArmOk r) stRange
      (guardSt (s.drv.st != .coppice && s.drv.st != .standby) stBusy
        (ok { s with trc :=
          { cap := { stat := BitVec.ofNat 32 (2 ^ 31 + nch * 2 ^ 17) }, nch := nch, ctx := fieldAt r 10 1, div := fieldAt r 11 1,
            pre := fieldAt r 12 2, tmode := fieldAt r 14 1, tclass := fieldAt r 15 1, tlvl := s18 (BitVec.ofNat 18 (fieldAt r 16 4)),
            chans := traceChans r nch } }))))

/-- DIA_TRACE STOP (R89): a capture in progress ends at once; it does not count as complete. -/
def execDiaTraceStop (r : Req) (s : State) : Host.Outcome State Fault Refusal :=
  .next (runJob 0x6002 r s
    (guardSt (opForm r 1 1) stRange
      (ok { s with trc := { s.trc with cap := { s.trc.cap with stat := setBit s.trc.cap.stat 31 false } } })))

/-- The capture that OP names: bit 7 selects the one saved in the flash log (R89). -/
def captureOf (s : State) (op : Nat) : Capture := if op < 128 then s.trc.cap else s.nv.saved

/-- The result of READ: TRC_STAT, FIRST and the samples, each word sign-extended (R89). -/
def traceBytes (c : Capture) (first n : Nat) : List Byte :=
  leBytes 4 c.stat.toNat ++ leBytes 4 first ++ ((c.samples.drop first).take n).flatMap fun row => row.flatMap fun w => leBytes 4 (ext18 w)

/-- DIA_TRACE READ (R60, R89): samples that the capture does not hold are out of range. -/
def execDiaTraceRead (r : Req) (s : State) : Host.Outcome State Fault Refusal :=
  let op := fieldAt r 8 1
  let c := captureOf s op
  let first := fieldAt r 16 4
  let n := fieldAt r 20 2
  .next (runJob 0x6002 r s
    (guardSt (formOk r 16 && op % 128 == 2 && traceUnused r && zeroAt r 22 2 && decide (1 ≤ n) && decide (first + n ≤ c.samples.length)
        && decide (entriesOf (traceBytes c first n).length ≤ 64)) stRange
      (.done s stOk (traceBytes c first n))))

/-- DIA_TRACE STATUS (R89). -/
def execDiaTraceStatus (r : Req) (s : State) : Host.Outcome State Fault Refusal :=
  let op := fieldAt r 8 1
  let c := captureOf s op
  .next (runJob 0x6002 r s
    (guardSt (formOk r 1 && op % 128 == 3) stRange
      (.done s stOk (leBytes 4 c.stat.toNat ++ leBytes 4 c.trigIdx ++ leBytes 8 c.trigTime.toNat))))

end Sys2Proof.Machine
end

