-- ==== Sys2Proof/Machine/Context.lean ====
section
/-! DEFINITION. Releases and completions of the loop contexts (R123 to R125, R137 to R139, R144 to R149, R154, R160): the laws of a
context are computed at its release, from what it latches there, and their results take effect at its normal completion. -/

namespace Sys2Proof.Machine

/-- A law of a machine with its context and its state words. -/
def findLaw (s : State) (m : Nat) (k : LawKind → Bool) : Option (CtxImg × LawInst × LawRun) :=
  (placed s).findSome? fun i =>
    ((i.laws.zip (lawRuns s i)).find? fun p => k p.1.kind && p.1.machine == m).map fun p => (i, p.1, p.2)

/-- The DMD law and the current loop of a machine. -/
def dmdRun (s : State) (m : Nat) : Option (CtxImg × LawInst × LawRun) := findLaw s m fun k => k == .dmd
def currentRun (s : State) (m : Nat) : Option (CtxImg × LawInst × LawRun) := findLaw s m isCurrent

/-- The words of a state area replaced by the image's initial values (R147); the parameters stay as they are. -/
def resetArea (m : Mem 18) (inside : Nat → Bool) (l : List (Nat × W18)) : Mem 18 :=
  memPuts (m.filter fun w => !inside w.1) (l.filter fun w => inside w.1)

/-- A word of a context's state area that is no parameter (R143, R147). -/
def Ctx.inArea (x : Ctx) (a : Nat) : Bool :=
  decide (x.areaFirst ≤ a) && decide (a < x.areaFirst + x.areaLen) && !(decide (x.parBase ≤ a) && decide (a < x.parBase + 16))

/-- The state area set to its initial values, with the words that Icsis maintains there, before the first release since entry into
RUNNING (R147). -/
def prime (s : State) (i : CtxImg) : State :=
  let x := ctxAt s i.num
  if x.primed then s
  else
    let old := lawRuns s i
    let words := match s.thk.body with | some b => regionWords b x.region | none => []
    let put (m : Mem 18) : Mem 18 := resetArea m x.inArea words
    let s := updThk s fun t => { t with rmem := t.rmem.upd x.region put, rmemB := t.rmemB.upd x.region put }
    let runs := ((lawRuns s i).zip old).map fun p => primedRun p.1 p.2
    let s := putLaws (putLaws s i false runs) i true runs
    let s := updCtx s i.num fun x => { x with primed := true }
    maintainThr (16 - s.thm.step) (maintain s i) i

/-- Input entries that have not come by the release: STALE in their flag words and in CTX_STATUS (R136, R137). -/
def markStale (s : State) (i : CtxImg) (late : List Nat) : State :=
  let x := ctxAt s i.num
  let src := fld x.ctrl 23 16
  let es := if 1 ≤ src && src ≤ 8 then i.inputs.filter late.contains else []
  if es.isEmpty then s
  else
    updCtx (es.foldl (fun s e =>
      putBank s x.region false (2 * e + 1) (setBit (memGet (s.thk.rmem.at x.region) (2 * e + 1)) 14 true)) s) i.num fun x =>
        { x with status := setBit x.status 4 true }

/-- Curves that CFG_CURVE has written replace the old ones whole, switched off (R238, R239). -/
def takeCurves (s : State) : State :=
  let p := s.dmd.pend
  let s := { s with dmd := { s.dmd with curves := Vector.ofFn fun k : Fin 4 => (p.at k.val).getD (s.dmd.curves.at k.val), pend := Vector.replicate 4 none } }
  mapLaws s fun _ x => { x with curveOn := Vector.ofFn fun k : Fin 4 => x.curveOn.at k.val && (p.at k.val).isNone }

/-- The environment of one law of an activation: `base` numbers the free values it may take. -/
def lawEnv (s : State) (c : Nat) (a : Activation) (base : Nat) : LawEnv :=
  let x := ctxAt s c
  { ld := fun w => let q := srcWord x.region w; s18 (ctxLoad s c q.1 q.2 a), p := fun k => s18 (paramAt s c k), fn := fun k => Config.freeNat (base + k) }

/-- The update period times the base speed, in radians (R215). -/
def periodPu (s : State) (i : CtxImg) : Rat :=
  match periodNow (unitRecs s) s i.num, f32Rat (ctxAt s i.num).wBase with
  | some p, some w => (p : Rat) / 64000000000 * w
  | _, _ => 0

/-- The stage of the catch that a law of machine `m` sees. -/
def stageSeen (s : State) (m : Nat) : Nat := if s.drv.st == .running then (s.dmd.catch_.at m).stage else 0

/-- The harmonic set that a current loop names: the HARM context and its law (R213). -/
def harmOf (s : State) (l : LawInst) : Option (Nat × LawInst) :=
  l.harmCtx.bind fun h => (imgOf s h).bind fun j => (j.laws.find? fun q => q.kind == .harm).map fun q => (h, q)

/-- What a current loop latches beside its own inputs (R190, R213, R215, R224, R236): T_DMD in torque mode and during a stop ramp, the
speed loop's output otherwise. -/
def focIn (s : State) (i : CtxImg) (l : LawInst) (env : LawEnv) : FocIn :=
  let d := dmdRun s l.machine
  let h := harmOf s l
  { tRef := match d with
      | some (j, q, x) => if x.mode == 0 || x.stopping then published s j.num q.sigBase else env.ld l.trefSrc
      | none => env.ld l.trefSrc
    limits := d.map fun q => (published s q.1.num (q.2.1.sigBase + 2), published s q.1.num (q.2.1.sigBase + 3))
    stage := stageSeen s l.machine
    alignI := match d with | some q => s18 (paramAt s q.1.num 10) | none => 0
    harm := match h with | some q => (List.range 16).map fun k => published s q.1 (q.2.sigBase + k) | none => []
    horder := match h with | some q => q.2.hord | none => []
    hscale := match h with | some q => q.2.hscale | none => 0
    tPu := periodPu s i }

/-- What DMD takes over at its release (R229, R232, R236). -/
def dmdIn (s : State) (i : CtxImg) (l : LawInst) : DmdIn :=
  let k := s.dmd.catch_.at l.machine
  { mode := s.dmd.mode, src := s.dmd.src, srcArg := s.dmd.srcArg, msg := s.dmd.msg, curves := s.dmd.curves
    regenSlot := fld s.prt.ctl 56 48, allocSlot := aslot s.crd.par l.machine, running := s.drv.st == .running
    stage := stageSeen s l.machine, bemf := k.bemf, rev := k.rev
    ramp := s.drv.ramp.map fun r => ((r.endsAt : Int) - s.clk.tb, ((periodNow (unitRecs s) s i.num).getD 0 / 16 : Nat))
    inUse := match currentRun s l.machine with | some q => q.2.2.tRef | none => 0 }

/-- One law computed, with whether a DMD's ramp has reached its demand. -/
def runLaw (s : State) (i : CtxImg) (l : LawInst) (x : LawRun) (env : LawEnv) : LawOut × Bool :=
  match l.kind with
  | .piSch => (lawPiSch l env x, false)
  | .pid => (lawPid l env x, false)
  | .notch3 => (lawNotch l env x, false)
  | .foc3 => (lawFoc3 l env x (focIn s i l env), false)
  | .foc6 => (lawFoc6 l env x (focIn s i l env), false)
  | .fcs6 => (lawFcs6 l env x (focIn s i l env), false)
  | .harm => (lawHarm l env x, false)
  | .dmd => lawDmd l env x (dmdIn s i l)

/-- Free values that one law may take. -/
def lawFree : Nat := 64

/-- The machine of a context's current loop or DMD. -/
def ctxMachine (i : CtxImg) : Option Nat := (i.laws.find? fun l => isCurrent l.kind || l.kind == .dmd).map LawInst.machine

/-- The activation with its laws computed, and whether a word saturated. -/
def compute (s : State) (i : CtxImg) (a : Activation) : Activation × Bool :=
  let outs := ((i.laws.zip (lawRuns s i)).zipIdx).map fun q =>
    runLaw s i q.1.1 q.1.2 (lawEnv s i.num a (s.free + lawFree * q.2))
  let laws := outs.map Prod.fst
  let words := laws.flatMap LawOut.words
  ({ a with
      outWords := words.map fun w => (w.1, w18 (sat18 w.2))
      outShadows := laws.flatMap LawOut.shadows
      outLdall := BitVec.ofNat 8 (laws.foldl (fun m o => m ||| o.ldall) 0)
      laws := laws.map LawOut.run
      zeroTorque := i.laws.all fun l => !isCurrent l.kind || (focIn s i l (lawEnv s i.num a s.free)).tRef == 0
      outFlags := BitVec.ofNat 16 (laws.foldl (fun m o => m ||| o.flags) 0)
      outMask := BitVec.ofNat 16 (laws.foldl (fun m o => m ||| o.mask) 0)
      stageAt := match ctxMachine i with | some m => stageSeen s m | none => 0
      reached := outs.any Prod.snd },
   laws.any (fun o => o.sat) || words.any fun w => sats18 w.2)

/-- A change to speed mode in RUNNING sets the speed loop's integrator to the torque reference in use (R232). -/
def speedStart (s : State) (i : CtxImg) (a : Activation) : State :=
  if s.drv.st != .running then s
  else
    (i.laws.zip ((lawRuns s i).zip a.laws)).foldl (fun s p =>
      if p.1.kind == .dmd && p.2.1.mode == 0 && p.2.2.mode == 1 then
        let t := (dmdIn s i p.1).inUse
        mapLaws s fun l x => if l.kind == .piSch && l.machine == p.1.machine then { x with loops := x.loops.map fun q => { q with i := t * 2 ^ 18 } } else x
      else s) s

/-- A catch whose stage in progress has ended under a stop (R246): the module leaves RUNNING, or, while the ramp of the other machine
still has torque, the ramp's end takes it there. -/
def endStopped (s : State) (m : Nat) : State :=
  let k := s.dmd.catch_.at m
  let s := { s with dmd := { s.dmd with catch_ := s.dmd.catch_.put m { k with stage := 0, stop := false } } }
  if s.drv.ramp.isSome && !torqueZero s then s else if k.stopThermal then arrive s .thermal 0x9013 else arrive s .runEnd 0x2004

/-- A stop that came in stage 3 of a catch ends RUNNING at the current loop's release after that stage (R246). -/
def stopAfterCatch (s : State) (i : CtxImg) : State :=
  match ctxMachine i with
  | some m =>
    let k := s.dmd.catch_.at m
    if k.stop && k.stage == 4 && s.drv.st == .running && i.laws.any (fun l => isCurrent l.kind) then endStopped s m else s
  | none => s

/-- v_αβ of the phase voltages (R193, R209, R241): the rows of R209 for a six-phase law. -/
def emfVector (l : LawInst) (v : List Int) : Int × Int :=
  if l.kind = .foc3 then clarke v else let z := vsd v; (z.1, z.2.1)

/-- One sample of the back-EMF detection (R241, R242, R245); `n` numbers the free value of the angle (log entries 5 and 37). -/
def Catch.sample (k : Catch) (v : Int × Int) (n : Nat) : Catch :=
  let a : W18 := if v = (0, 0) then 0 else let f := angleFloor v.1 v.2; BitVec.ofInt 18 (within 8 ((f.1 : Int), f.2) n)
  let d := if k.samples = 0 then 0 else s18 (a - k.angle)
  { k with samples := k.samples + 1, sumV := k.sumV + (len2 v.1 v.2).toNat, adv := k.adv + d, fwd := k.fwd || decide (0 < d),
           bwd := k.bwd || decide (d < 0), angle := a }

/-- The current-loop context forms v_αβ from VPH_SRC in each period of stage 1 with back-EMF detection (R241). -/
def catchSample (s : State) (i : CtxImg) : State :=
  match i.laws.find? fun l => isCurrent l.kind with
  | none => s
  | some l =>
    let k := s.dmd.catch_.at l.machine
    if s.drv.st == .running && k.stage == 1 && k.bemf then
      let src := match dmdRun s l.machine with | some q => q.2.1.vphSrc | none => []
      let v := src.map fun e => s18 (ctxLoad s i.num (ctxAt s i.num).region (2 * e) {})
      let k := k.sample (emfVector l v) (freeVal s)
      let s := freeTaken s
      { s with dmd := { s.dmd with catch_ := s.dmd.catch_.put l.machine k } }
    else s

/-- The watchdog deadline in ticks of 6.25 ns, rounded up (R154). -/
def deadlineOf (s : State) (c : Nat) : Nat := (s.clk.tb + 2 * twiceW (ctxAt s c).bound.toNat + 24) / 25

/-- The writers whose signal words a context's activations read (R139). -/
def writersOf (s : State) (i : CtxImg) : List Nat :=
  ((imgLoads i).filterMap (fun q =>
    let o := (memGet (s.thk.sigOwner.at q.1) q.2).toNat
    if inSignal q.2 && o != 0 then some (o - 1) else none) ++ imgPeers (placed s) i).dedup

/-- The activation that a release begins: its deadline, the banks that it latches, and the first slot of each of its runs (R120, R139,
R154). -/
def newAct (s : State) (i : CtxImg) : Activation :=
  { deadline := deadlineOf s i.num, held := (writersOf s i).map fun w => (w, (ctxAt s w).pubBank),
    pos := i.runs.map fun r => ((r.block, r.cell), r.first) }

/-- A release (R137 to R139, R147, R154, R160). -/
def release (s : State) (i : CtxImg) (late : List Nat) : State :=
  let s := markStale (mergeParams (prime s i) i.num) i late
  let s := if hasDmd i then takeCurves s else s
  let s := catchSample (stopAfterCatch s i) i
  let r := compute s i (newAct s i)
  let s := speedStart s i r.1
  let s := { s with free := s.free + lawFree * i.laws.length }
  updCtx s i.num fun x =>
    { x with act := some r.1, flagsPend := BitVec.ofNat 16 x.flags.toNat, status := if r.2 then setBit x.status 0 true else x.status }

/-- A committed, enabled context that is not lost runs in the states of R147. -/
def ctxRuns (s : State) (c : Nat) : Bool :=
  let x := ctxAt s c
  x.en && !x.lost && (if x.outPwm then s.drv.st == .running else countState s.drv.st)

/-- A dropped trigger (R148). -/
def dropTrigger (s : State) (c : Nat) : State :=
  recCtx (updCtx s c fun x => { x with status := incSat (setBit x.status 5 true) 15 8 }) c 0x5006

/-- A trigger of a context (R144, R146 to R148): the divider counts it from the enabling on, whether or not the context runs in the
present state, and every (TRIG_DIV + 1)-th releases the context where it runs. -/
def trigger (s : State) (i : CtxImg) (late : List Nat) : State :=
  let x := ctxAt s i.num
  if !x.en || x.lost then s
  else if x.divCount < fld x.ctrl 7 0 then updCtx s i.num fun x => { x with divCount := x.divCount + 1 }
  else
    let s := updCtx s i.num fun x => { x with divCount := 0 }
    if !ctxRuns s i.num then s else if x.act.isSome then dropTrigger s i.num else release s i late

/-- CONTEXT_RELEASE (R137, R144 to R148): a trigger of the context has come, and its inputs are delivered but for those in `late`.
PWM6 and PWM7 fire no sample trigger (R337); a completion triggers in CONTEXT_COMPLETION. -/
def execContextRelease (c : Fin 160) (late : List Nat) (s : State) : Host.Outcome State Fault Refusal :=
  let src := fld (ctxAt s c.val).ctrl 23 16
  match imgOf s c.val with
  | some i => if src = 0 ∨ src = 7 ∨ src = 8 ∨ src = 0x20 then .next s else .next (trigger s i late)
  | none => .next s

/-- END has run on every logical cell of the activation, and none is preempted (R122, R149). -/
def actDone (s : State) (c : Nat) (a : Activation) : Bool :=
  a.pos.all (fun p => a.ended.contains p.1) && !s.thk.preempted.any fun p => p.ctx == c

/-- The laws' compares and load-all (R124, R190, R636), in RUNNING and in a context with OUT_PWM. -/
def putOutputs (s : State) (c : Nat) (a : Activation) : State :=
  if pwmWrites s c && !(a.outShadows.isEmpty && a.outLdall == 0) then
    let s := a.outShadows.foldl (fun s k => putShadow s k.1 k.2) s
    snoop (if a.outLdall = 0 then s else setLda s a.outLdall.toNat true) 0x10 (a.outShadows.map fun k => shadowItem k.1 k.2) (a.outLdall != 0)
  else s

/-- What a completion does to the catch of its machine (R204, R244, R247): the load-all of a synchronised activation, the built flux, the
reached demand. -/
def catchStep (s : State) (i : CtxImg) (a : Activation) : State :=
  match ctxMachine i with
  | none => s
  | some m =>
    let k := s.dmd.catch_.at m
    let cur := i.laws.any fun l => isCurrent l.kind
    let k' : Catch :=
      if cur && a.stageAt == 3 && k.stage == 3 then
        (if mtypeOf s m = 2 then (if bit a.outFlags 13 then k else { k with stage := 4 }) else { k with sync := k.sync || a.outLdall != 0 })
      else if hasDmd i && a.stageAt == 4 && k.stage == 4 && a.reached then { k with stage := 5 } else k
    if s.drv.st == .running then { s with dmd := { s.dmd with catch_ := s.dmd.catch_.put m k' } } else s

/-- The words that a normal completion leaves (R138, R139): the signal words of its slots and laws in the unpublished bank, the laws'
other words and their state in the bank that the activation did not read. -/
def putResults (s : State) (i : CtxImg) (a : Activation) : State :=
  let x := ctxAt s i.num
  let sig := a.sig.reverse ++ a.outWords.filter fun w => inSignal w.1
  let own := a.outWords.filter fun w => decide (0x1000 ≤ w.1)
  putLaws (putWords (putWords s x.region (!x.pubBank) sig) x.region (!x.stBank) own) i (!x.stBank) a.laws

/-- A normal completion (R125, R138, R139, R149): words and outputs, the banks, the flags, the count, the law state. -/
def finishAct (s : State) (i : CtxImg) (a : Activation) : State :=
  let c := i.num
  let b := !(ctxAt s c).pubBank
  let s := putOutputs (putResults s i a) c a
  let cur := i.laws.any fun l => isCurrent l.kind
  let zero := cur && a.zeroTorque && rampZero s
  let s := updCtx s c fun x =>
    { x with stBank := !x.stBank, deferred := true, overran := false, acts := x.acts + 1, zeroDone := zero
             flags := BitVec.ofNat 32 ((x.flagsPend &&& ~~~a.outMask) ||| (a.outFlags &&& a.outMask)).toNat }
  catchStep (traceSample (dropAct s c) c b) i a

/-- The contexts that a context's normal completion triggers (R145). -/
def dependents (s : State) (c : Nat) : List CtxImg :=
  (placed s).filter fun i => fld (ctxAt s i.num).ctrl 23 16 == 0x20 && fld (ctxAt s i.num).ctrl 15 8 == c

/-- CONTEXT_COMPLETION (R123 to R125, R138, R139, R149): an activation whose outputs are suppressed changes no state and triggers
nothing. -/
def execContextCompletion (c : Fin 160) (s : State) : Host.Outcome State Fault Refusal :=
  match imgOf s c.val, (ctxAt s c.val).act with
  | some i, some a =>
    if !actDone s c.val a then .next s
    else if a.suppressed then .next (dropAct (updCtx s c.val fun x => { x with overran := false }) c.val)
    else .next ((dependents s c.val).foldl (fun s j => trigger s j []) (finishAct s i a))
  | _, _ => .next s

end Sys2Proof.Machine
end

