-- ==== Sys2Proof/Machine/Catch.lean ====
section
/-! DEFINITION. The stages of the catch that end by themselves (R241 to R246), and the torque monitor (R466 to R469). -/

namespace Sys2Proof.Machine

/-- A catch changed. -/
def updCatch (s : State) (m : Nat) (f : Catch → Catch) : State :=
  { s with dmd := { s.dmd with catch_ := s.dmd.catch_.put m (f (s.dmd.catch_.at m)) } }

/-- The word at an address that a context's laws name, as a release would latch it now. -/
def wordNow (s : State) (i : CtxImg) (a : Nat) : Int :=
  let q := srcWord (ctxAt s i.num).region a
  s18 (ctxLoad s i.num q.1 q.2 {})

/-- An alignment of the observer that serves ANG_SRC: OFFSET such that θe is `theta`, and ABS (R323). -/
def alignObs (s : State) (l : LawInst) (theta : Int) : State :=
  match angObs s l with
  | some o => updObs s o fun x =>
      { x with offset := BitVec.ofInt 18 (theta - obsEpp x.cfgA * x.thm.toNat), the := BitVec.ofInt 18 theta, aligned := true, abs := true }
  | none => s

/-- The speed of back-EMF detection in words (R241): the net angle advance over the window, in pu of the current loop's base. -/
def emfSpeed (s : State) (m : Nat) (window : Nat) : Int :=
  let k := s.dmd.catch_.at m
  match (currentRun s m).bind fun q => f32Rat (ctxAt s q.1.num).wBase with
  | some w => if w = 0 ∨ window = 0 then 0 else sat18 (rndRat ((k.adv : Rat) * (piScaled : Rat) * 1000000 / (2 ^ 64 * (window : Rat) * w)))
  | none => 0

/-- The electrical angle of R241: a quarter of a revolution behind the back-EMF in the direction of turning. -/
def emfAngle (k : Catch) (w : Int) : Int := (k.angle.toNat : Int) + (if w < 0 then 65536 else -65536)

/-- |ω| × PSI is at most VFW × VMAX (R243); `psi` is PSI in 2^-17. -/
def emfFits (l : LawInst) (w vmax : Int) : Bool := decide (|w| * (l.psi * 2 ^ l.shpsi) ≤ l.vfw * vmax)

/-- ID_FW of R243 in 2^-34; a zero inductance leaves it open (log entry 2). -/
def catchFw (l : LawInst) (w vmax : Int) (free : Nat) : Int :=
  if emfFits l w vmax then 0
  else
    let ld := l.ld * 2 ^ l.shl
    if ld = 0 then (free : Int) else rndQuot ((l.vfw * vmax - l.psi * 2 ^ l.shpsi * |w|) * 2 ^ 34) (|w| * ld)

/-- The words that stage 3 initialises (R243), by law; `w` is ω in words and `fw` ID_FW in 2^-34. -/
def syncRun (m : Nat) (w fw : Int) (l : LawInst) (x : LawRun) : LawRun :=
  if l.machine ≠ m then x
  else match l.kind with
    | .piSch => { x with loops := x.loops.map fun q => { q with i := 0 } }
    | .dmd => { x with rW := w * 2 ^ 17, rT := 0 }
    | .foc3 | .foc6 | .fcs6 =>
      let q := rndDiv (w * (l.ld * 2 ^ l.shl) * fw) (2 ^ 33)
      { x with idFw := fw, psi := if l.mtype = 2 then 0 else x.psi, fluxed := x.fluxed && l.mtype != 2, slip := if l.mtype = 2 then 0 else x.slip,
               loops := x.loops.zipIdx.map fun p => if p.2 = 0 then { p.1 with i := 0 } else if p.2 = 1 then { p.1 with i := q } else p.1 }
    | _ => x

/-- Stage 3 begins at a speed (R243), or the catch ends because ID_FW would lie below ID_MIN (R245). -/
def synchronise (s : State) (m : Nat) (w : Int) : State :=
  let s := (placed s).foldl (fun s i => if i.laws.any fun l => l.machine == m then prime s i else s) s
  match currentRun s m with
  | none => updCatch s m fun k => { k with stage := 3, speed := w }
  | some (i, l, _) =>
    let p (k : Nat) : Int := s18 (paramAt s i.num k)
    let vdc := max (wordNow s i (2 * l.vdcSrc)) l.vdcMin
    let fw := catchFw l w (vMax (p 12) vdc) (freeVal s)
    if fw < p 14 * 2 ^ 17 then catchAbort (freeTaken s) m
    else updCatch (mapLaws (freeTaken s) (syncRun m w fw)) m fun k => { k with stage := 3, speed := w }

/-- The end of stage 1 or 2: a stop that waits takes the drive to ARMED (R246); otherwise stage 3 begins. -/
def leaveStage (s : State) (m : Nat) (w : Int) : State :=
  if (s.dmd.catch_.at m).stop then endStopped s m else synchronise s m w

/-- DMD_REV: the speed at the catch is opposite to the demand (R248). -/
def catchRev (s : State) (i : CtxImg) (l : LawInst) (x : LawRun) (w : Int) : Bool :=
  let d := (demandOf (dmdIn s i l) (lawEnv s i.num {} s.free) x.curveOn x.src x.srcArg).1
  decide (w * d < 0)

/-- The mean of |v_αβ| over the window lies below BEMF_MIN (R242), as it does where the window held no sample. -/
def emfWeak (k : Catch) (bemfMin : Int) : Bool := k.samples == 0 || decide ((k.sumV : Int) < bemfMin * k.samples)

/-- Stage 1 has lasted `ns`: two periods of the current loop, or CATCH_WIN with back-EMF detection (R241). -/
def detectDue (s : State) (m : Nat) (l : LawInst) (ns : Nat) : Bool :=
  if (s.dmd.catch_.at m).bemf then decide (1000 * l.catchWin ≤ ns)
  else match (currentRun s m).bind fun q => periodNow (unitRecs s) s q.1.num with
    | some p => decide (2 * p ≤ 64 * ns)
    | none => true

/-- CATCH_DETECT_END (R241, R242, R245): stage 1 has lasted `ns`. -/
def execCatchDetectEnd (m : Fin 2) (ns : Nat) (s : State) : Host.Outcome State Fault Refusal :=
  let k := s.dmd.catch_.at m.val
  match dmdRun s m.val with
  | none => .next s
  | some (i, l, r) =>
    if s.drv.st != .running || k.stage != 1 || !detectDue s m.val l ns then .next s
    else if !k.bemf then
      let w := wordNow s i l.spdSrc
      .next (leaveStage (updCatch s m.val fun k => { k with rev := catchRev s i l r w }) m.val w)
    else if k.fwd && k.bwd then .next (catchAbort s m.val)
    else
      let w := emfSpeed s m.val l.catchWin
      let s1 := updCatch s m.val fun k => { k with rev := catchRev s i l r w }
      if emfWeak k (s18 (paramAt s i.num 9)) then
        if k.stop then .next (endStopped s1 m.val)
        else .next (updCatch s1 m.val fun k => { k with stage := 2, still := true })
      else .next (leaveStage (alignObs s1 l (emfAngle k w)) m.val w)

/-- ALIGN_END (R242): stage 2 has lasted ALIGN_T; θ = 0 is written as the offset, and the machine stands. -/
def execAlignEnd (m : Fin 2) (s : State) : Host.Outcome State Fault Refusal :=
  match dmdRun s m.val with
  | none => .next s
  | some (_, l, _) =>
    if s.drv.st != .running || (s.dmd.catch_.at m.val).stage != 2 then .next s
    else .next (leaveStage (alignObs s l 0) m.val 0)

/-- TMTOL as a word: it is given in 1/65,536 pu (R473). -/
def tmTol (s : State) : Int := 2 * (s.saf.icsLim.tmtol : Int)

/-- NMIS (R473). -/
def nMis (s : State) : Nat := fld (sfWord s 9) 14 13

/-- The larger of the TLIM_MOT and TLIM_GEN values that Icsis last wrote for a machine (R228, R468). -/
def torqueLimit (s : State) (m : Nat) : Int :=
  match dmdRun s m with
  | some (i, _, _) => max (pendingParams s i.num (ctxAt s i.num) 4) (pendingParams s i.num (ctxAt s i.num) 5)
  | none => 0

/-- A check of the torque monitor fails (R468). -/
def monitorFails (s : State) (m : Nat) (tMon : W18) : Bool :=
  let tEst := match currentRun s m with | some (i, l, _) => published s i.num (l.sigBase + 6) | none => 0
  decide (tmTol s < |s18 tMon - tEst|) || decide (torqueLimit s m + tmTol s < |s18 tMon|) || !(s.pos.obs.at (monObs s m)).valid

/-- A machine's monitor constants as the image gives them: the eight words MTYPE, PSI, SHPSI, LD, LQ, SHL, KT and SHKT of R188, 32 bytes a
machine (log entry 73). -/
def monLaw (b : List Byte) (m : Nat) : LawInst :=
  let g (k : Nat) : Nat := imgU b (32 * m + 4 * k) 4
  { kind := .foc3, mtype := g 0, psi := g 1, shpsi := g 2, ld := g 3, lq := g 4, shl := g 5, kt := g 6, shkt := g 7 }

/-- The committed image's monitor constants of a machine (R466, R473). -/
def monNow (s : State) (m : Nat) : LawInst := monLaw ((s.thk.body.map ImageBody.monitor).getD []) m

/-- The code in word 0 of a result entry (R270), as R274 takes it. -/
def codeOf (e : W64) (w : W32) : Int :=
  let c := if bit e 61 then fld w 31 14 else fld w 17 0
  if entDiff e then s18 (BitVec.ofNat 18 c) else c

/-- The scaled result of entry `i` of converter group 1 (R274, R466). -/
def monCur (s : State) (i : Nat) : Int :=
  let g := s.acq.groups.at 1
  sat18 (scaled (g.scale.at i) (codeOf (g.seq.at i) (g.shown.at i).1))

/-- The current vector of a machine from converter group 1: entries 0 to 2 or 3 to 5, or 0 to 5 of a six-phase machine (R193, R209, R466). -/
def monVec (s : State) (m : Nat) : Int × Int :=
  if s.drv.arrange = 1 then let z := vsd ((List.range 6).map (monCur s)); (z.1, z.2.1)
  else clarke ((List.range 3).map fun k => monCur s (3 * m + k))

/-- A sine or cosine at scale 2^64 as a factor at 2^17. -/
def monTrig (v : Int) : Int := rndDiv v (2 ^ 47)

/-- T_MON of a PM machine: the torque equation of R188 on the currents in the frame of MONOBS (R193, R466). -/
def tMonPm (s : State) (m : Nat) : Int :=
  let th := (s.pos.obs.at (monObs s m)).the.toNat
  let i := unrotate (monTrig (sinScaled th)) (monTrig (cosScaled th)) (monVec s m)
  sat18 (torquePm (monNow s m) i.1 i.2)

/-- T_MON (R466): for an induction machine what the monitor's own rotor-flux model gives, an operand since the spec does not state that
model; otherwise computed. -/
def tMonOf (s : State) (m : Nat) (own : W18) : W18 := if (monNow s m).mtype = 2 then own else w18 (tMonPm s m)

/-- TORQUE_MONITOR_CHECK (R466 to R469): NMIS consecutive failures confirm a mismatch and apply the monitor stop. `own` is the result of
the monitor's rotor-flux model, for an induction machine. -/
def execTorqueMonitorCheck (m : Fin 2) (own : W18) (s : State) : Host.Outcome State Fault Refusal :=
  if !tmen s || s.drv.st != .running || !inUse s m.val then .next s
  else
    let tMon := tMonOf s m.val own
    let n := if monitorFails s m.val tMon then satInc 3 (s.saf.mach.at m.val).tmFail else 0
    let was := (s.saf.mach.at m.val).tmFail
    let s := updMach s m.val fun x => { x with tMon := tMon, tmFail := n }
    if nMis s ≤ n && was < nMis s then .next (monitorStop (recBlk s m.val 0x3030)) else .next s

end Sys2Proof.Machine
end

