-- ==== Sys2Proof/Machine/Can.lean ====
section
/-! DEFINITION. The CAN FD controllers (chapter 17): stored frames and their locks, message words, transmit requests, errors and
bus-off, Icsis descriptors over CAN, and CFG_CAN. -/

namespace Sys2Proof.Machine

/-- A controller, and an object of it, changed. -/
def updCan (s : State) (c : Nat) (f : Can → Can) : State := { s with can := s.can.upd c f }
def updObj (s : State) (c o : Nat) (f : CanObj → CanObj) : State := updCan s c fun x => { x with objs := x.objs.upd o f }

/-- Fields of CAN_CTRL (R560). -/
def Can.en (x : Can) : Bool := bit x.ctrl 31
def Can.mode (x : Can) : Nat := fld x.ctrl 30 29
def Can.fden (x : Can) : Bool := bit x.ctrl 28
def Can.cmden (x : Can) : Bool := bit x.ctrl 18
def Can.cmdrx (x : Can) : Nat := fld x.ctrl 17 11
def Can.cmdtx (x : Can) : Nat := fld x.ctrl 10 4

/-- Fields of CAN_MOBJA and CAN_MOBJB (R562). -/
def CanObj.en (x : CanObj) : Bool := bit x.a 63
def CanObj.tx (x : CanObj) : Bool := bit x.a 62
def CanObj.ide (x : CanObj) : Bool := bit x.a 61
def CanObj.fdf (x : CanObj) : Bool := bit x.a 60
def CanObj.rlim (x : CanObj) : Nat := fld x.a 58 55
def CanObj.dlc (x : CanObj) : Nat := fld x.a 54 51
def CanObj.wen (x : CanObj) : Bool := bit x.a 47
def CanObj.word (x : CanObj) : Nat := fld x.a 46 44
def CanObj.ofs (x : CanObj) : Nat := fld x.a 43 38
def CanObj.tout (x : CanObj) : Nat := fld x.a 37 22
def CanObj.period (x : CanObj) : Nat := fld x.a 21 6
def CanObj.id (x : CanObj) : Nat := fld x.b 63 35
def CanObj.mask (x : CanObj) : Nat := fld x.b 34 6

/-- Data bytes of a DLC, in the FD and in the classical format (R562). -/
def dlcBytes (fdf : Bool) (dlc : Nat) : Nat :=
  if fdf then [0, 1, 2, 3, 4, 5, 6, 7, 8, 12, 16, 20, 24, 32, 48, 64].getD dlc 0 else min 8 dlc

/-- A frame's data bytes. -/
def canBytes (f : CanFrame) : List Byte := padTo (dlcBytes f.fdf f.dlc.val) f.data

/-- The controller takes part in the bus (R557, R573). -/
def canRuns (s : State) (c : Nat) : Bool := (s.can.at c).en && fromStandbyOn s.drv.st && (s.can.at c).estate != 2

/-- CAN_STAT (R576). -/
def Can.stat (x : Can) : W32 :=
  BitVec.ofNat 32 (min 255 x.tec * 2 ^ 24 + min 255 x.rec_ * 2 ^ 16 + x.estate * 2 ^ 14 + x.txlate * 2 ^ 11 + x.flags.toNat)

/-- A fault record of a controller. -/
def recCan (s : State) (c : Nat) (code : W16) : State := record s code c (s.can.at c).stat

/-- A W1C flag set. -/
def canSet (s : State) (c i : Nat) : State := updCan s c fun x => { x with flags := setBit x.flags i true }

/-- A W1C flag set, with a record where it changes from 0 to 1 (R565, R569). -/
def canFlag (s : State) (c i : Nat) (code : W16) : State :=
  if bit (s.can.at c).flags i then s else recCan (canSet s c i) c code

/-- The error state that the counters give, with its flags and records (R573): bus-off keeps every pending request. -/
def canErrState (s : State) (c : Nat) : State :=
  let x := s.can.at c
  if x.estate = 2 then s
  else if 256 ≤ x.tec then
    recCan (canSet (updCan s c fun x => { x with estate := 2, recovering := bit x.ctrl 27 }) c 1) c 0xB001
  else if 128 ≤ x.tec ∨ 128 ≤ x.rec_ then
    if x.estate = 1 then s else recCan (canSet (updCan s c fun x => { x with estate := 1 }) c 2) c 0xB002
  else updCan s c fun x => { x with estate := 0 }

/-- The counters after an error (R573; log entry 18); in restricted operation they do not change (R561). -/
def canError (s : State) (c : Nat) (e : CanErr) : State :=
  if (s.can.at c).mode = 1 then s
  else
    canErrState (updCan s c fun x =>
      match e with
      | .transmit => { x with tec := x.tec + 8 }
      | .receive => { x with rec_ := min 255 (x.rec_ + 1) }
      | .receiveDominant => { x with rec_ := min 255 (x.rec_ + 8) }) c

/-- The counters after a frame received or sent without error (R573; log entry 18): from above 127 the receive counter takes a value
of 119 to 127 that the standard leaves open. -/
def canGood (s : State) (c : Nat) (sent : Bool) : State :=
  if (s.can.at c).mode = 1 then s
  else if sent then canErrState (updCan s c fun x => { x with tec := x.tec - 1 }) c
  else
    let n := freeVal s
    canErrState (updCan (freeTaken s) c fun x => { x with rec_ := if 127 < x.rec_ then 119 + n % 9 else x.rec_ - 1 }) c

/-- CAN_ERROR_DETECTED (R561, R573, R576). -/
def execCanErrorDetected (c : Fin 4) (e : CanErr) (bitErr : Bool) (s : State) : Host.Outcome State Fault Refusal :=
  if !canRuns s c.val then .next s
  else .next (canError (if bitErr then canSet s c.val 3 else s) c.val e)

/-- CAN_BUSOFF_RECOVERY (R573). -/
def execCanBusoffRecovery (c : Fin 4) (s : State) : Host.Outcome State Fault Refusal :=
  let x := s.can.at c.val
  if x.en && fromStandbyOn s.drv.st && x.estate == 2 && x.recovering then
    .next (updCan s c.val fun x => { x with estate := 0, tec := 0, rec_ := 0, recovering := false })
  else .next s

/-- PROTOCOL_EXCEPTION (R556): bus integration, with no error frame and the counters unchanged. -/
def execProtocolException (c : Fin 4) (s : State) : Host.Outcome State Fault Refusal :=
  if canRuns s c.val then .next (updCan s c.val fun x => { x with integrating := true }) else .next s

/-- A message word written (R233, R570, R571). -/
def putMsg (s : State) (k : Nat) (v : W18) : State := { s with dmd := { s.dmd with msg := s.dmd.msg.put k v } }

/-- The message-word path reads an object that has just stored a frame (R569, R570); it holds the lock until its last word. -/
def msgPath (s : State) (c o : Nat) : State :=
  let x := (s.can.at c).objs.at o
  match x.frame with
  | none => s
  | some f =>
    if !x.wen then s
    else
      let s := updObj s c o fun x => { x with lock := some .msgWord }
      let d := (canBytes f)
      if d.length < x.ofs + 4 then canSet s c 10
      else match sext18? (leNat d x.ofs 4) with
        | some v => putMsg s x.word v
        | none => canSet s c 10

/-- A frame enters an unlocked object (R569); a frame that was unread is lost. -/
def putFrame (s : State) (c o : Nat) (f : CanFrame) (lost : Bool) : State :=
  let was := ((s.can.at c).objs.at o).new
  let s := updObj s c o fun x => { x with frame := some f, new := true, lost := x.lost || was || lost }
  msgPath (if was then canFlag s c 5 0xB004 else s) c o

/-- A frame stored in a receive object, or in its hold slot while the lock is held (R569). -/
def storeFrame (s : State) (c o : Nat) (f : CanFrame) : State :=
  let x := (s.can.at c).objs.at o
  if x.lock.isNone then putFrame s c o f false
  else
    let full := x.hold.isSome
    let s := updObj s c o fun x => { x with hold := some f, holdLost := full }
    if full then canFlag s c 5 0xB004 else s

/-- A lock that ends (R569): Icsis's release clears NEW and LOST, and the hold slot moves in. -/
def unlock (s : State) (c o : Nat) (clears : Bool) : State :=
  let x := (s.can.at c).objs.at o
  let s := updObj s c o fun x =>
    { x with lock := none, new := x.new && !clears, lost := x.lost && !clears, hold := none, holdLost := false }
  match x.hold with
  | some f => putFrame s c o f x.holdLost
  | none => s

/-- CAN_LOCK_RELEASE (R569): a reader has read the last word. -/
def execCanLockRelease (c : Fin 4) (o : Fin 128) (by_ : CanReader) (s : State) : Host.Outcome State Fault Refusal :=
  if ((s.can.at c.val).objs.at o.val).lock = some by_ then .next (unlock s c.val o.val (by_ == .icsis)) else .next s

/-- CAN_LOCK_TIMEOUT (R569): a reader has held the lock for 10 µs. -/
def execCanLockTimeout (c : Fin 4) (o : Fin 128) (s : State) : Host.Outcome State Fault Refusal :=
  if ((s.can.at c.val).objs.at o.val).lock.isSome then .next (canSet (unlock s c.val o.val false) c.val 6) else .next s

/-- The receive object that a frame matches (R563). -/
def matchObj (x : Can) (f : CanFrame) : Option Nat :=
  (List.range 128).find? fun o =>
    let y := x.objs.at o
    let m := if y.ide then y.mask else y.mask % 2048
    y.en && !y.tx && y.ide == f.ide && (f.id.toNat ^^^ y.id) &&& m == 0

/-- The submission ring that CAN (SOURCE 2) or Adexia (SOURCE 1) feeds: the lowest enabled one (R51, R574, R590). -/
def sourceRing (io : Io) (src : Nat) : Option Nat :=
  ((List.range 56).map fun i => i + 8).find? fun n => (io.q n).isSub && (io.q n).source == src

/-- The ring has no room for `k` further entries (R53). -/
def ringFull (q : QueueRec) (k : Nat) : Bool := decide (q.n ≤ q.held + k)

/-- A descriptor entry put into a submission ring by another sender than the host port; the advance is its doorbell (R574, R590). -/
def feedRing (s : State) (n : Nat) (entry : List Byte) : State :=
  let q := s.io.q n
  { s with io := { s.io with qsram := memWrite s.io.qsram (slotAddr n q.hostPtr) (padTo 64 entry) }.updQ n fun q => { q with hostPtr := (q.hostPtr + 1) % q.n } }

/-- A frame stored in CMDRX (R574); a module without a CAN-sourced ring has no room for it. -/
def canDescriptor (s : State) (c : Nat) (f : CanFrame) : State :=
  if !(f.fdf && f.dlc.val == 15) then canSet s c 9
  else match sourceRing s.io 2 with
    | some n => if ringFull (s.io.q n) 1 then recCan (canSet s c 8) c 0xB005 else feedRing s n (canBytes f)
    | none => recCan (canSet s c 8) c 0xB005

/-- A frame at its end-of-frame (R556, R563, R569, R570, R574, R636): a remote frame is stored nowhere, a data frame in the object that it
matches. -/
def canReceive (s : State) (c : Nat) (f : CanFrame) : State :=
  if f.remote then s
  else match matchObj (s.can.at c) f with
    | none => s
    | some o =>
      let s := snoop (storeFrame s c o f) (0x50 + c) [{ addr := o, seq := 0, data := (canBytes f) }] true
      if (s.can.at c).cmden && o == (s.can.at c).cmdrx then canDescriptor s c f else s

/-- CAN_FRAME_RECEIVED (R556, R560, R563, R569, R570, R574, R636). In internal loopback the receiver does not hear the bus. -/
def execCanFrameReceived (c : Fin 4) (f : CanFrame) (s : State) : Host.Outcome State Fault Refusal :=
  if !canRuns s c.val || (s.can.at c.val).mode == 3 then .next s
  else
    let s := updCan s c.val fun x => { x with integrating := false }
    if f.fdf && !(s.can.at c.val).fden then .next (canError s c.val .receive)
    else .next (canReceive (canGood s c.val false) c.val f)

/-- CAN_MESSAGE_WORD_TIMEOUT (R570): no frame has come for TOUT ms in ARMED or RUNNING. -/
def execCanMessageWordTimeout (c : Fin 4) (o : Fin 128) (s : State) : Host.Outcome State Fault Refusal :=
  let x := (s.can.at c.val).objs.at o.val
  if (s.can.at c.val).en && x.en && !x.tx && x.wen && x.tout != 0 && (s.drv.st == .armed || s.drv.st == .running) then
    .next (recCan (canSet (putMsg s x.word 0) c.val 7) c.val 0xB006)
  else .next s

/-- A message object's records put into force (R567): a change of DIR, IDE, ID or MASK empties it. -/
def CanObj.load (x : CanObj) (a b : W64) : CanObj :=
  let y := { x with a := a, b := b, next := none }
  if x.tx != y.tx || x.ide != y.ide || x.id != y.id || x.mask != y.mask then
    { y with frame := none, new := false, lost := false, hold := none, holdLost := false, lock := none, req := false, fails := 0,
             begun := false, after := none, data := [] }
  else y

/-- The end of an attempt series (R565 to R567): data that waited becomes a new request, a record that waited takes effect. -/
def CanObj.endSeries (x : CanObj) : CanObj :=
  let y := { x with req := x.after.isSome, fails := 0, begun := false, data := x.after.getD x.data, after := none }
  match x.next with
  | some r => y.load r.1 r.2
  | none => y

/-- The order in which pending frames win arbitration (R564; log entry 18): the base identifier, base before extended format, the
identifier extension, classical before FD format, the object's number. -/
def arbKey (x : CanObj) (o : Nat) : Nat :=
  let base := if x.ide then x.id / 2 ^ 18 else x.id % 2048
  let ext := if x.ide then x.id % 2 ^ 18 else 0
  (((base * 2 + b2n x.ide) * 2 ^ 18 + ext) * 2 + b2n x.fdf) * 128 + o

/-- The object whose frame the controller offers (R560, R564). -/
def offered (x : Can) : Option Nat :=
  ((List.range 128).filter fun o => (x.objs.at o).en && (x.objs.at o).tx && (x.objs.at o).req && (x.fden || !(x.objs.at o).fdf)).foldl (fun best o =>
    match best with
    | none => some o
    | some b => if arbKey (x.objs.at o) o < arbKey (x.objs.at b) b then some o else best) none

/-- The completion ring that CMDTX serves (R574). -/
def canCplRing (s : State) : Option Nat := (sourceRing s.io 2).map fun n => (s.io.q n).pairRing

/-- HOST_PTR of a completion ring past `k` entries that have been sent (R53, R73). -/
def consume (s : State) (n k : Nat) : State :=
  { s with io := s.io.updQ n fun q => { q with hostPtr := (q.hostPtr + k) % q.n, timed := false } }

/-- CMDTX's completion frame has been sent, or its request has failed (R574). -/
def cmdtxEnd (s : State) (c o : Nat) (sent : Bool) : State :=
  let x := s.can.at c
  if !(x.cmden && o == x.cmdtx && x.sending) then s
  else if sent then
    let s := updCan s c fun x => { x with sending := false }
    match canCplRing s with
    | some n => if 0 < (s.io.q n).held then consume s n 1 else s
    | none => s
  else updCan s c fun x => { x with retry := true }

/-- A failed attempt (R561, R565). -/
def failAttempt (s : State) (c o : Nat) : State :=
  let x := (s.can.at c).objs.at o
  if (s.can.at c).mode = 1 ∨ x.rlim ≤ x.fails then
    cmdtxEnd (canFlag (updObj s c o fun x => { x.endSeries with failed := true }) c 4 0xB003) c o false
  else updObj s c o fun x => { x with fails := x.fails + 1, begun := true }

/-- The frame that an object sends (R562, R568): base frames have 11 identifier bits, BRS is for FD frames only. The instant of its
start-of-frame is not told by the command, so TSTAMP is a free value. -/
def sentFrame (s : State) (c o : Nat) : CanFrame :=
  let x := (s.can.at c).objs.at o
  { ide := x.ide, fdf := x.fdf, brs := x.fdf && bit x.a 59, esi := (s.can.at c).estate == 1,
    id := BitVec.ofNat 29 (if x.ide then x.id else x.id % 2048), dlc := ⟨x.dlc % 16, Nat.mod_lt _ (by decide)⟩, remote := false,
    data := x.data, tstamp := BitVec.ofNat 30 (freeVal s) }

/-- In internal loopback the controller receives the frame that it has sent (R560). -/
def loopBack (s : State) (c o : Nat) (t : State) : State :=
  if (s.can.at c).mode = 3 then canReceive (freeTaken t) c (sentFrame s c o) else t

/-- CAN_TX_ATTEMPT_END (R560, R561, R564, R565, R572, R574): an attempt of the frame that the controller offers. -/
def execCanTxAttemptEnd (c : Fin 4) (o : Fin 128) (how : TxEnd) (s : State) : Host.Outcome State Fault Refusal :=
  let x := s.can.at c.val
  if !canRuns s c.val || x.mode == 2 || offered x != some o.val then .next s
  else
    let s := updCan s c.val fun x => { x with integrating := false }
    match how with
    | .sent =>
      .next (loopBack s c.val o.val
        (cmdtxEnd (canGood (updObj s c.val o.val fun x => { x.endSeries with failed := false }) c.val true) c.val o.val true))
    | .arbitrationLost => .next (updObj s c.val o.val fun x => { x with begun := true })
    | .bitError => .next (failAttempt (canSet s c.val 3) c.val o.val)
    | .otherError => .next (failAttempt s c.val o.val)

/-- CAN_PERIOD_REQUEST (R566). -/
def execCanPeriodRequest (c : Fin 4) (o : Fin 128) (s : State) : Host.Outcome State Fault Refusal :=
  let x := (s.can.at c.val).objs.at o.val
  if !((s.can.at c.val).en && fromStandbyOn s.drv.st && x.en && x.tx && x.period != 0) then .next s
  else if x.req then .next (updCan s c.val fun x => { x with txlate := satInc 7 x.txlate })
  else .next (updObj s c.val o.val fun x => { x with req := true })

/-- A completion entry requested from CMDTX (R574). -/
def requestCpl (s : State) (c n : Nat) : State :=
  let e := memRead s.io.qsram (slotAddr n (s.io.q n).hostPtr) 64
  updObj (updCan s c fun x => { x with sending := true, retry := false }) c (s.can.at c).cmdtx fun x =>
    { x with data := e, req := true, fails := 0, begun := false }

/-- CMDTX can send for the ring (R574). -/
def cmdtxReady (s : State) (c : Nat) : Bool :=
  let x := s.can.at c
  x.en && x.cmden && fromStandbyOn s.drv.st && (x.objs.at x.cmdtx).en && (x.objs.at x.cmdtx).tx

/-- CAN_COMPLETION_SEND (R574): the oldest entry of the paired ring is requested from CMDTX. -/
def execCanCompletionSend (c : Fin 4) (s : State) : Host.Outcome State Fault Refusal :=
  match canCplRing s with
  | some n => if cmdtxReady s c.val && !(s.can.at c.val).sending && decide (0 < (s.io.q n).held) then .next (requestCpl s c.val n) else .next s
  | none => .next s

/-- CAN_COMPLETION_RETRY (R574): 10 ms after a completion's request has failed. -/
def execCanCompletionRetry (c : Fin 4) (s : State) : Host.Outcome State Fault Refusal :=
  match canCplRing s with
  | some n => if cmdtxReady s c.val && (s.can.at c.val).retry && decide (0 < (s.io.q n).held) then .next (requestCpl s c.val n) else .next s
  | none => .next s

/-- The bit rates of CAN_BT (R558, R559); rates are compared through their bit lengths in CLK_CAN cycles. -/
def canBtOk (ctrl : W32) (t : W64) : Bool :=
  let nq := 1 + fld t 54 46 + fld t 45 39
  let dq := 1 + fld t 25 20 + fld t 19 15
  let nlen := fld t 63 55 * nq
  let dlen := fld t 31 26 * dq
  fld t 9 0 == 0
    && decide (1 ≤ fld t 63 55) && decide (fld t 63 55 ≤ 256) && decide (2 ≤ fld t 54 46) && decide (fld t 54 46 ≤ 256)
    && decide (1 ≤ fld t 45 39) && decide (1 ≤ fld t 38 32) && decide (1 ≤ fld t 31 26) && decide (fld t 31 26 ≤ 32)
    && decide (1 ≤ fld t 25 20) && decide (fld t 25 20 ≤ 32) && decide (1 ≤ fld t 19 15) && decide (fld t 19 15 ≤ 16)
    && decide (1 ≤ fld t 14 10) && decide (fld t 14 10 ≤ 16)
    && decide (fld t 38 32 ≤ fld t 45 39) && decide (fld t 14 10 ≤ fld t 19 15)
    && decide (80 ≤ nlen) && decide (10 ≤ dlen) && decide (dlen ≤ nlen) && (bit ctrl 26 || decide (40 ≤ dlen))

/-- RW of CAN_CTRL: BOAUTO (R560). -/
def canRw : W32 := 0x0800_0000

/-- CFG_CAN CTRL (R559, R560, R574, R575). -/
def execCfgCanCtrl (r : Req) (s : State) : Host.Outcome State Fault Refusal :=
  let c := fieldAt r 9 1
  let w : W32 := BitVec.ofNat 32 (fieldAt r 12 4)
  let t : W64 := BitVec.ofNat 64 (fieldAt r 16 8)
  let x := s.can.at c
  let alone := !bit w 18 || (List.range 4).all fun k => k == c || !(s.can.at k).cmden
  .next (runJob 0x1030 r s
    (guardSt (opForm r 16 0 && decide (c < 4) && zeroAt r 10 2 && fld w 3 0 == 0 && canBtOk w t && alone) stRange
      (guardSt ((sameOutside canRw x.ctrl w && x.bt == t) || s.drv.st == .standby || s.drv.st == .configured) stState
        (ok (updCan s c fun x => { x with ctrl := w, bt := t })))))

/-- A message object's records are well formed (R562). -/
def mobjOk (a b : W64) : Bool := fld a 50 48 == 0 && fld a 5 0 == 0 && fld b 5 0 == 0 && decide (fld a 43 38 ≤ 60) && fld a 43 38 % 4 == 0

/-- The records of CFG_CAN MOBJ. -/
def mobjRecs (r : Req) (n : Nat) : List (W64 × W64) :=
  (List.range n).map fun i => (BitVec.ofNat 64 (fieldAt r (16 + 16 * i) 8), BitVec.ofNat 64 (fieldAt r (24 + 16 * i) 8))

/-- A record written to an object (R567): at once, the bus being idle between commands, or after its attempt series. -/
def CanObj.write (x : CanObj) (q : W64 × W64) : CanObj := if x.begun then { x with next := some q } else x.load q.1 q.2

/-- CFG_CAN MOBJ (R562, R567, R574, R575). -/
def execCfgCanMobj (r : Req) (s : State) : Host.Outcome State Fault Refusal :=
  let c := fieldAt r 9 1
  let o := fieldAt r 10 1
  let n := fieldAt r 11 1
  let x := s.can.at c
  let names (k : Nat) : Bool := decide (o ≤ k) && decide (k < o + n)
  .next (runJob 0x1030 r s
    (guardSt (opForm r (8 + 16 * n) 1 && decide (c < 4) && decide (1 ≤ n) && decide (n ≤ 16) && decide (o + n ≤ 128) && zeroAt r 12 4
        && (mobjRecs r n).all fun q => mobjOk q.1 q.2) stRange
      (guardSt (!(x.cmden && (names x.cmdrx || names x.cmdtx))) stBusy
        (ok ((mobjRecs r n).zipIdx.foldl (fun s q => updObj s c (o + q.2) fun x => x.write q.1) s)))))

/-- CFG_CAN TXDATA (R566, R575): data of a series in progress waits for its end. -/
def execCfgCanTxdata (r : Req) (s : State) : Host.Outcome State Fault Refusal :=
  let c := fieldAt r 9 1
  let o := fieldAt r 10 1
  let n := fieldAt r 11 1
  let x := (s.can.at c).objs.at o
  .next (runJob 0x1030 r s
    (guardSt (opForm r (8 + n) 2 && decide (c < 4) && decide (o < 128) && zeroAt r 12 4 && x.en && x.tx && n == dlcBytes x.fdf x.dlc) stRange
      (ok (updObj s c o fun x =>
        if x.begun then { x with after := some (bytesAt r 16 n) } else { x with data := bytesAt r 16 n, req := true, fails := 0 }))))

/-- CFG_CAN RECOVER (R573, R575). -/
def execCfgCanRecover (r : Req) (s : State) : Host.Outcome State Fault Refusal :=
  let c := fieldAt r 9 1
  .next (runJob 0x1030 r s
    (guardSt (opForm r 8 3 && decide (c < 4) && zeroAt r 10 6) stRange
      (guardSt ((s.can.at c).estate == 2) stBusy
        (ok (updCan s c fun x => { x with recovering := true })))))

/-- CFG_CAN STATUS_CLR (R575, R576): clearing TXFAIL clears the failed-object mask. -/
def execCfgCanStatusClr (r : Req) (s : State) : Host.Outcome State Fault Refusal :=
  let c := fieldAt r 9 1
  let m := fieldAt r 12 4
  .next (runJob 0x1030 r s
    (guardSt (opForm r 8 4 && decide (c < 4) && zeroAt r 10 2 && BitVec.ofNat 32 m &&& 0xFFFF_F801 == 0) stRange
      (ok (updCan s c fun x =>
        { x with flags := w1c x.flags (BitVec.ofNat 11 m)
                 objs := if m.testBit 4 then x.objs.map fun y => { y with failed := false } else x.objs }))))

end Sys2Proof.Machine
end

