-- ==== Sys2Proof/Machine/Adx.lean ====
section
/-! DEFINITION. Adexia and network time (chapter 18) but the reception of frames: ports, sending, the local clock's
synchronisation, and CFG_ADX. -/

namespace Sys2Proof.Machine

/-- Adexia changed, and a port of it. -/
def updAdx (s : State) (f : Adx → Adx) : State := { s with adx := f s.adx }
def updPort (s : State) (p : Nat) (f : AdxPort → AdxPort) : State := updAdx s fun a => { a with ports := a.ports.upd p f }

/-- The module's node ID (R99, R583). -/
def nodeId (s : State) : Nat := fld s.boot.fuses.startCfg 9 0

/-- ADX_CTRL in force; in COPPICE the one that Icsis has kept in the flash log (R591, R602). -/
def adxCtl (s : State) : W64 := if s.drv.st == .coppice then s.nv.adxCtrl.getD State.reset.adx.ctrl else s.adx.ctrl

/-- Fields of ADX_CTRL (R602). -/
def adxEn (w : W64) : Bool := bit w 63
def adxPort (w : W64) (p : Nat) : Bool := bit w (62 - p)
def adxSysid (w : W64) : Nat := fld w 60 47
def adxType (w : W64) : Nat := fld w 46 31
def adxCmdsrc (w : W64) : Nat := fld w 30 21
def adxCmden (w : W64) : Bool := bit w 20
def adxRxmax (w : W64) : Nat := fld w 19 12
def adxC1ofs (w : W64) : Nat := fld w 11 2

/-- Adexia runs: in STANDBY and every later state, and in COPPICE by the boot ROM (R591). -/
def adxRuns (s : State) : Bool := adxEn (adxCtl s) && (fromStandbyOn s.drv.st || s.drv.st == .coppice)

/-- Adexia runs with all its frame classes and the time synchronisation (R591). -/
def adxFull (s : State) : Bool := adxRuns s && s.drv.st != .coppice

/-- A port is in use with its link up (R579, R580, R602). -/
def portLive (s : State) (p : Nat) : Bool := adxRuns s && adxPort (adxCtl s) p && (s.adx.ports.at p).link

/-- The MAC address of a node, and the address of all nodes (R583). -/
def nodeMac (w : W64) (n : Nat) : BitVec 48 := BitVec.ofNat 48 (0x025A96000000 + adxSysid w * 1024 + n)
def allMac (w : W64) : BitVec 48 := BitVec.ofNat 48 (0x035A960000FF + adxSysid w * 4 * 256)

/-- ADX_STAT, ADX_PSTAT and TIM_STAT (R606). -/
def adxStat (s : State) : W32 := s.adx.stat.zeroExtend 32
def AdxPort.misses (x : AdxPort) (now : Nat) : Nat := (x.missAt.filter fun t => decide (now < t + 4000000000)).length
def portStat (s : State) (p : Nat) : W32 :=
  let x := s.adx.ports.at p
  BitVec.ofNat 32 (b2n x.link * 2 ^ 31 + b2n (s.adx.sport == p) * 2 ^ 30 + min 255 (x.misses s.clk.tb) * 2 ^ 16 + x.drop * 2 ^ 8 + x.flags.toNat)
def timStat (s : State) : W32 :=
  let a := s.adx
  BitVec.ofNat 32 (b2n a.sync * 2 ^ 31 + b2n a.gm * 2 ^ 30 + a.sport * 2 ^ 28 + b2n a.stepped * 2 ^ 27 + b2n a.syncLoss * 2 ^ 26
    + (clampI (-8388608) 8388607 a.ofs % 16777216).toNat)

/-- Fault records of a port, of the module's Adexia block and of the time. -/
def recPort (s : State) (p : Nat) (code : W16) : State := record s code p (portStat s p)
def recAdx (s : State) (unit : Nat) (code : W16) : State := record s code unit (adxStat s)
def recTim (s : State) (code : W16) : State := record s code noUnit (timStat s)

/-- A W1C flag of a port set, with a record where it changes from 0 to 1 (R588). -/
def portFlag (s : State) (p i : Nat) (code : W16) : State :=
  let was := bit (s.adx.ports.at p).flags i
  let s := updPort s p fun x => { x with flags := setBit x.flags i true }
  if was then s else recPort s p code

/-- A W1C flag of ADX_STAT set. -/
def adxSet (s : State) (i : Nat) : State := updAdx s fun a => { a with stat := setBit a.stat i true }

/-- PORT_LINK_CHANGE (R579, R606, R608): a link of an enabled port that goes down is recorded, and so is the loss of both. -/
def execPortLinkChange (p : Fin 2) (up : Bool) (s : State) : Host.Outcome State Fault Refusal :=
  let was := (s.adx.ports.at p.val).link
  let s1 := updPort s p.val fun x => { x with link := up }
  if up || !was || !adxRuns s || !adxPort (adxCtl s) p.val then .next s1
  else
    let s2 := recPort (updPort s1 p.val fun x => { x with flags := setBit x.flags 0 true }) p.val 0xA001
    .next (if (s2.adx.ports.at (1 - p.val)).link then s2 else recAdx s2 noUnit 0xA002)

/-- Frames sent in one step, each on every live port; a frame with an RCT takes the next sequence number (R580, R585). -/
def sendFrames (s : State) (l : List (Nat × BitVec 48 × List Byte)) : State :=
  let ports := (List.range 2).filter (portLive s)
  let fs := l.zipIdx.map fun q =>
    { ports := ports, cls := q.1.1, dst := q.1.2.1, body := q.1.2.2, seq := some ((s.adx.seq.toNat + q.2) % 65536) : SentFrame }
  updAdx s fun a => { a with sent := fs, seq := a.seq + BitVec.ofNat 16 l.length }

/-- The header and payload of an Adexia frame of the module (R585). -/
def adxBody (s : State) (cls dst : Nat) (payload : List Byte) : List Byte :=
  [1, BitVec.ofNat 8 cls] ++ leBytes 2 (nodeId s) ++ leBytes 2 dst ++ leBytes 2 payload.length ++ payload

/-- SUPERVISION_SEND (R580): the octets of the frame are those of IEC 62439-3 and are not held (log entry 19). -/
def execSupervisionSend (s : State) : Host.Outcome State Fault Refusal :=
  if adxFull s then .next (sendFrames s [(0, 0x01154E000100, [])]) else .next s

/-- TMODE, PROFILE, PRIO1 and OFSLIM (R604). -/
def tmode (w : W64) : Nat := fld w 63 62
def prio1 (w : W64) : Nat := fld w 60 53
def ofslim (w : W64) : Nat := fld w 48 41

/-- A grandmaster identity in force; a change of one is recorded (R600). -/
def setGm (s : State) (gm : W64) : State :=
  let old := s.adx.gmId
  let s := updAdx s fun a => { a with gmId := gm }
  if old != 0 && old != gm then recTim s 0xA013 else s

/-- TXLAT and RXLAT of a port, in ns (R604). -/
def txlat (s : State) (p : Nat) : Nat := if p = 0 then fld s.adx.tlat 63 48 else fld s.adx.tlat 31 16
def rxlat (s : State) (p : Nat) : Nat := if p = 0 then fld s.adx.tlat 47 32 else fld s.adx.tlat 15 0

/-- The local clock in ns. -/
def localNs (s : State) : Int := ((s.clk.sec.toNat * 1000000000 + s.clk.ns.toNat : Nat) : Int)

/-- The instant at which a frame passes the SGMII pins, as a timestamp tells it: with an error of at most 4 ns, by a free value
(R598). -/
def pinNs (s : State) : Int := localNs s + ((freeVal s % 9 : Nat) : Int) - 4

/-- A PTP event message: Sync, Delay_Req, Pdelay_Req or Pdelay_Resp (R597; log entry 71). -/
def ptpEvent (b : List Byte) : Bool := decide (byteAt b 0 % 16 < 4)

/-- A PTP frame received: an event message is timestamped at the pins and corrected by RXLAT (R598; log entry 71). -/
def ptpArrives (s : State) (p : Nat) (b : List Byte) : State :=
  let s' := updPort s p fun x => { x with accepted := x.accepted + 1 }
  if ptpEvent b then updPort (freeTaken s') p fun x => { x with rxStamp := some (pinNs s - (rxlat s p : Int)) } else s'

/-- PTP_SYNC_INTERVAL (R597 to R599): the periodic messages of a port instance, without an RCT; whether the master selection makes a capable
module grandmaster, and the identity it then shows, are open (log entry 2). The event message among them is timestamped at the pins
and corrected by TXLAT (R598). -/
def execPtpSyncInterval (p : Fin 2) (s : State) : Host.Outcome State Fault Refusal :=
  if !adxFull s || !portLive s p.val then .next s
  else
    let dst : BitVec 48 := if bit s.adx.tcfg 61 then 0x011B19000000 else 0x0180C200000E
    let s := updAdx (freeTaken s) fun a => { a with sent := [{ ports := [p.val], cls := 0, dst := dst, body := [], seq := none, stamp := some (pinNs s + (txlat s p.val : Int)) }] }
    if tmode s.adx.tcfg = 1 ∧ prio1 s.adx.tcfg < 255 then
      let gm := freeVal s % 2 == 1
      let id : W64 := BitVec.ofNat 64 (freeVal (freeTaken s))
      let s' := freeTaken (freeTaken s)
      if gm && !s.adx.gm then .next (setGm (updAdx s' fun a => { a with gm := true }) id)
      else .next (updAdx s' fun a => { a with gm := gm })
    else .next (updAdx s fun a => { a with gm := false })

/-- The least and the largest TIM_INC: 7.996 and 8.004 ns (R592). -/
def incMin : Nat := 34342558499
def incMax : Nat := 34376918237

/-- A TIM_INC brought into its range (R592). -/
def incClamp (v : BitVec 40) : BitVec 40 := BitVec.ofNat 40 (min incMax (max incMin v.toNat))

/-- SYNC cleared: SYNCLOSS and its record (R600). -/
def loseSync (s : State) : State :=
  if s.adx.sync then recTim (updAdx s fun a => { a with sync := false, syncLoss := true, good := 0 }) 0xA010
  else updAdx s fun a => { a with good := 0 }

/-- SYNC after a measurement (R600). -/
def judgeSync (s : State) (m : Int) : State :=
  let lim := ofslim s.adx.tcfg
  if (16 * lim : Nat) < |m| then loseSync s
  else
    let good := if |m| ≤ (4 * lim : Nat) then satInc 8 s.adx.good else 0
    updAdx s fun a => { a with good := good, sync := a.sync || good == 8 }

/-- The offset correction of the servo (R599). -/
def servo (s : State) (m : Int) : State :=
  let put (v : Int) : State := { s with clk := { s.clk with offset := some v } }
  if |m| ≤ 1000 then put (-m)
  else if s.drv.st == .armed || s.drv.st == .running then put (if 0 < m then -1000 else 1000)
  else recTim (updAdx (put (-m)) fun a => { a with stepped := true }) 0xA011

/-- PTP_SYNC_MEASUREMENT (R599, R600): a Sync exchange on the slave port, or on the first port to bring one, while the module follows
the network. -/
def execPtpSyncMeasurement (p : Fin 2) (m : Int) (timInc : BitVec 40) (gm : W64) (s : State) : Host.Outcome State Fault Refusal :=
  if !adxFull s || !portLive s p.val || tmode s.adx.tcfg != 0 || (s.adx.sport != 3 && s.adx.sport != p.val) then .next s
  else
    let s := setGm (updAdx s fun a => { a with sport := p.val, ofs := m, gm := false }) gm
    let s := { s with clk := { s.clk with incNext := some (incClamp timInc) } }
    .next (judgeSync (servo s m) m)

/-- SYNC_TIMEOUT (R600): three intervals without Sync on the slave port; the other port takes over where it still receives Sync. -/
def execSyncTimeout (otherAlive : Bool) (s : State) : Host.Outcome State Fault Refusal :=
  if !adxFull s || tmode s.adx.tcfg != 0 || s.adx.sport == 3 then .next s
  else if otherAlive then .next (recTim (updAdx s fun a => { a with sport := 1 - a.sport }) 0xA012)
  else .next (loseSync s)

/-- ONE_SHOT_OFFSET_APPLY (R593): the tick that applies a pending offset and a pending TIM_INC. -/
def execOneShotOffsetApply (s : State) : Host.Outcome State Fault Refusal :=
  if s.clk.offset.isSome || s.clk.incNext.isSome then .next (tick s) else .next s

/-- The paired ring of the Adexia-sourced submission ring (R590). -/
def adxCplRing (s : State) : Option Nat := (sourceRing s.io 1).map fun n => (s.io.q n).pairRing

/-- CPL_FRAME_SEND (R580, R585, R590): while a link is up, up to 16 completion entries to CMDSRC, and HOST_PTR past them. -/
def execCplFrameSend (s : State) : Host.Outcome State Fault Refusal :=
  match adxCplRing s with
  | none => .next s
  | some n =>
    let w := adxCtl s
    let q := s.io.q n
    let k := min 16 q.held
    if !adxRuns s || !adxCmden w || k == 0 || !(portLive s 0 || portLive s 1) then .next s
    else
      let es := (List.range k).flatMap fun i => memRead s.io.qsram (slotAddr n ((q.hostPtr + i) % q.n)) 64
      .next (consume (sendFrames s [(4, nodeMac w (adxCmdsrc w), adxBody s 4 (adxCmdsrc w) es)]) n k)

/-- Fields of ADX_MW (R603). -/
def mwEn (w : W32) : Bool := bit w 31
def mwSrc (w : W32) : Nat := fld w 30 21
def mwIdx (w : W32) : Nat := fld w 20 18
def mwWord (w : W32) : Nat := fld w 17 15
def mwTout (w : W32) : Nat := fld w 14 0

/-- ADEXIA_MSG_TIMEOUT (R589): no MSG frame for TOUT ms in ARMED or RUNNING. -/
def execAdexiaMsgTimeout (k : Fin 8) (s : State) : Host.Outcome State Fault Refusal :=
  let w := s.adx.mw.at k.val
  if adxFull s && mwEn w && mwTout w != 0 && (s.drv.st == .armed || s.drv.st == .running) then
    .next (recAdx (adxSet (putMsg s (mwWord w) 0) 1) k.val 0xA006)
  else .next s

/-- 400 ms in quarters of a nanosecond. -/
def ms400 : Nat := 1600000000

/-- MISSING_DUPLICATE_TIMEOUT (R582): the oldest frame accepted on the other port has had no duplicate on port `p` for 400 ms. -/
def execMissingDuplicateTimeout (p : Fin 2) (s : State) : Host.Outcome State Fault Refusal :=
  let q := 1 - p.val
  match (s.adx.ports.at q).awaited.reverse with
  | [] => .next s
  | w :: t =>
    if s.clk.tb < w.2.2 + ms400 then .next s else
    let s := updPort s q fun x => { x with awaited := t.reverse }
    let old := (s.adx.ports.at p.val).misses s.clk.tb
    let s := updPort s p.val fun x =>
      { x with missAt := (s.clk.tb :: x.missAt.filter fun u => decide (s.clk.tb < u + 4000000000)).take 256
               flags := if 15 ≤ old then setBit x.flags 2 true else x.flags }
    .next (if old = 15 then recPort s p.val 0xA003 else s)

/-- CFG_ADX CTRL (R591, R602, R605): in force from the next cycle instant; what is applied in STANDBY is kept in the flash log. -/
def execCfgAdxCtrl (r : Req) (s : State) : Host.Outcome State Fault Refusal :=
  let w : W64 := BitVec.ofNat 64 (fieldAt r 16 8)
  .next (runJob 0x1031 r s
    (guardSt (opForm r 16 0 && zeroAt r 9 7 && fld w 1 0 == 0 && adxType w != 0x88F7 && adxType w != 0x88FB && adxRxmax w != 0
        && decide (adxC1ofs w ≤ 999)) stRange
      (guardSt (w == s.adx.ctrlNext.getD s.adx.ctrl || s.drv.st == .standby || s.drv.st == .configured) stState
        (ok { s with adx := { s.adx with ctrlNext := some w }
                     nv := if s.drv.st == .standby && flashOk s then { s.nv with adxCtrl := some w } else s.nv }))))

/-- CFG_ADX MW (R603, R605). -/
def execCfgAdxMw (r : Req) (s : State) : Host.Outcome State Fault Refusal :=
  let k := fieldAt r 9 1
  .next (runJob 0x1031 r s
    (guardSt (opForm r 8 1 && decide (k < 8) && zeroAt r 10 2) stRange
      (ok (updAdx s fun a => { a with mw := a.mw.put k (BitVec.ofNat 32 (fieldAt r 12 4)) }))))

/-- TIM_CFG within its ranges (R604). -/
def timCfgOk (w : W64) : Bool :=
  tmode w != 3 && (!bit w 61 || prio1 w == 255) && (fld w 52 49 == 0 || decide (11 ≤ fld w 52 49)) && ofslim w != 0 && fld w 40 0 == 0

/-- OFSLIM, the RW field of TIM_CFG (R604). -/
def timRw : W64 := 0x0001_FE00_0000_0000

/-- CFG_ADX TIME_CFG (R599, R604, R605): with TMODE = 1, TIM_INC is 8.0. -/
def execCfgAdxTimeCfg (r : Req) (s : State) : Host.Outcome State Fault Refusal :=
  let w : W64 := BitVec.ofNat 64 (fieldAt r 16 8)
  let l : W64 := BitVec.ofNat 64 (fieldAt r 24 8)
  let e : BitVec 48 := BitVec.ofNat 48 (fieldAt r 32 6)
  .next (runJob 0x1031 r s
    (guardSt (opForm r 32 2 && zeroAt r 9 7 && zeroAt r 38 2 && timCfgOk w) stRange
      (guardSt ((sameOutside timRw s.adx.tcfg w && l == s.adx.tlat && e == s.adx.epoch) || s.drv.st == .standby || s.drv.st == .configured) stState
        (ok { s with adx := { s.adx with tcfg := w, tlat := l, epoch := e }
                     clk := if tmode w = 1 then { s.clk with incNext := some 0x08_0000_0000 } else s.clk }))))

/-- CFG_ADX TIME_SET (R605). -/
def execCfgAdxTimeSet (r : Req) (s : State) : Host.Outcome State Fault Refusal :=
  let n := fieldAt r 24 4
  .next (runJob 0x1031 r s
    (guardSt (opForm r 28 3 && zeroAt r 9 7 && zeroAt r 22 2 && zeroAt r 28 8 && decide (n < 1000000000)) stRange
      (guardSt (tmode s.adx.tcfg == 2 && s.drv.st != .armed && s.drv.st != .running) stBusy
        (ok { s with clk := { s.clk with sec := BitVec.ofNat 48 (fieldAt r 16 6), ns := BitVec.ofNat 30 n }
                     adx := { s.adx with stepped := true } }))))

/-- A one-shot offset that may be written now (R593, R605). -/
def offsetOk (s : State) (v : Int) : Bool :=
  decide (0 ≤ (s.clk.sec.toNat : Int) * 1000000000 + s.clk.ns.toNat + v)
    && (!(s.drv.st == .armed || s.drv.st == .running) || decide (|v| ≤ 1000))

/-- CFG_ADX TIME_ADJ (R592, R593, R605): an offset, or a TIM_INC in the longer form. -/
def execCfgAdxTimeAdj (r : Req) (s : State) : Host.Outcome State Fault Refusal :=
  let v := (BitVec.ofNat 32 (fieldAt r 12 4)).toInt
  let i := fieldAt r 16 5
  if r.len = 16 then
    .next (runJob 0x1031 r s
      (guardSt (opForm r 16 4 && zeroAt r 9 7 && zeroAt r 21 3 && decide (incMin ≤ i) && decide (i ≤ incMax)) stRange
        (guardSt (tmode s.adx.tcfg == 2) stBusy
          (ok { s with clk := { s.clk with incNext := some (BitVec.ofNat 40 i) } }))))
  else
    .next (runJob 0x1031 r s
      (guardSt (opForm r 8 4 && zeroAt r 9 3 && offsetOk s v) stRange
        (guardSt (tmode s.adx.tcfg == 2) stBusy
          (ok { s with clk := { s.clk with offset := some v } }))))

/-- The mask of STATUS_CLR has no bit over a reserved field of the instance's status word (R12, R605, R606). -/
def adxMaskOk (k m : Nat) : Bool :=
  if k = 0 then decide (m < 16)
  else if k ≤ 2 then m / 2 ^ 4 % 16 == 0 && m / 2 ^ 24 % 64 == 0
  else m / 2 ^ 24 % 4 == 0

/-- The flags of an instance cleared, each counter together with its flag (R606); bits of the mask over RO fields have no effect
(R8). -/
def adxClear (s : State) (k m : Nat) : State :=
  if k = 0 then updAdx s fun a => { a with stat := w1c a.stat (BitVec.ofNat 4 (m % 8)) }
  else if k ≤ 2 then
    updPort s (k - 1) fun x =>
      { x with flags := w1c x.flags (BitVec.ofNat 4 m), drop := if m.testBit 1 then 0 else x.drop, missAt := if m.testBit 2 then [] else x.missAt }
  else updAdx s fun a => { a with stepped := a.stepped && !m.testBit 27, syncLoss := a.syncLoss && !m.testBit 26 }

/-- CFG_ADX STATUS_CLR (R605, R606). -/
def execCfgAdxStatusClr (r : Req) (s : State) : Host.Outcome State Fault Refusal :=
  let k := fieldAt r 9 1
  let m := fieldAt r 12 4
  .next (runJob 0x1031 r s
    (guardSt (opForm r 8 5 && decide (k ≤ 3) && zeroAt r 10 2 && adxMaskOk k m) stRange (ok (adxClear s k m))))

end Sys2Proof.Machine
end

