-- ==== Sys2Proof/Machine/Crd.lean ====
section
/-! DEFINITION. Torque allocation and coordinator fail-over (chapter 19): the cycle instant, the latch, the pair link, the arbiter,
and CFG_CRD. -/

namespace Sys2Proof.Machine

/-- Coordination changed. -/
def updCrd (s : State) (f : Crd → Crd) : State := { s with crd := f s.crd }

/-- Fields of CRD_CFG (R629). -/
def crdEn (w : W64) : Bool := bit w 63
def crdArbiter (w : W64) : Bool := bit w 61
def pairPos (w : W64) : Nat := fld w 60 59
def crdCompat (w : W64) : Bool := bit w 58
def demSrc (w : W64) : Nat := fld w 57 55
def crdGroup (w : W64) : Nat := fld w 54 43
def homeNode (w : W64) : Nat := fld w 42 33
def partnerNode (w : W64) : Nat := fld w 32 23
def arbNode (w : W64) : Nat := fld w 22 13

/-- The roles run: in STANDBY and every later state while EN is set and Adexia runs (R610). -/
def crdRuns (s : State) : Bool := adxFull s && crdEn s.crd.cfg

/-- The module is of the pair (R609, R629). -/
def isPair (s : State) : Bool := crdRuns s && (pairPos s.crd.cfg == 0 || pairPos s.crd.cfg == 1)

/-- The module is the arbiter (R609). -/
def isArbiter (s : State) : Bool := crdRuns s && crdArbiter s.crd.cfg

/-- The module holds HOME's place (R629). -/
def isHome (s : State) : Bool := pairPos s.crd.cfg == 0

/-- STBYRDY (R627): intact copies of both of the last two cycles, with the module's own epoch. -/
def standbyReady (s : State) : Bool :=
  let c := s.crd
  isPair s && !c.sending && c.copyPrev &&
    match c.copy with
    | some a => a.epoch == c.epoch && (a.cycle == c.cycle || a.cycle + 1 == c.cycle)
    | none => false

/-- RETREQ (R628): HOME is standby and has received 100 intact copies in a row. -/
def returnWanted (s : State) : Bool := isPair s && isHome s && !s.crd.sending && decide (100 ≤ s.crd.copies)

/-- CRD_STAT (R631). -/
def crdStat (s : State) : W32 :=
  let c := s.crd
  BitVec.ofNat 32 (b2n (isPair s && c.sending) * 2 ^ 31 + b2n (standbyReady s) * 2 ^ 30 + b2n (isArbiter s) * 2 ^ 29 + min 15 c.gap * 2 ^ 25
    + b2n c.noAlloc * 2 ^ 24 + b2n c.short * 2 ^ 23 + b2n (returnWanted s) * 2 ^ 22 + c.flags.toNat)

/-- A record of coordination (R82, R634), and a flag with its record. -/
def recCrd (s : State) (code : W16) : State := record s code noUnit (crdStat s)
def crdSet (s : State) (i : Nat) : State := updCrd s fun c => { c with flags := setBit c.flags i true }
def crdFlag (s : State) (i : Nat) (code : W16) : State := recCrd (crdSet s i) code

/-! ### Capability (R615) -/

/-- What one machine can deliver, forward and braking, in N·m at the group reference; none where a factor is no number. -/
def capOf (s : State) (m : Nat) : Option (Rat × Rat) :=
  match dmdRun s m with
  | some (i, l, x) =>
    if s.drv.st == .running && x.src == 2 && (s.dmd.catch_.at m).stage == 5 then
      let lim (k : Nat) : Rat := (published s i.num (l.sigBase + k) : Rat) / 131072
      match f32Rat (ctxAt s i.num).tBase, f32Rat (s.crd.kg.at m) with
      | some t, some g =>
        let f : Rat := ((16 - s.thm.step : Nat) : Rat) / 16 * t * g
        some (max 0 (lim 2) * f, max 0 (-(lim 3)) * f)
      | _, _ => none
    else none
  | none => none

/-- The contributions of both machines, rounded to binary32 (log entry 20). -/
def capsNow (s : State) : Tab 2 (W32 × W32) :=
  Vector.ofFn fun m : Fin 2 =>
    match (if (crdMachines s).contains m.val then capOf s m.val else none) with
    | some q => (ratF32 q.1, ratF32 q.2)
    | none => (0, 0)

/-- At least one machine counts (R615). -/
def crdAvail (s : State) : Bool := crdMember s && (crdMachines s).any fun m => (capOf s m).isSome

/-- The sum of binary32 words, if all are numbers. -/
def sumF32 (l : List W32) : Option Rat := (l.mapM f32Rat).map List.sum

/-! ### The split (R616) -/

/-- A rational in units of 1/131,072 brought to one of the two words beside it: which, is open (log entry 20). -/
def besideWord (q : Rat) (v : Nat) : Int :=
  let n := Int.floor (q * 131072)
  if (n : Rat) = q * 131072 then n else n + (v % 2 : Nat)

/-- U moved towards its target by at most URATE; a URATE below 0 leaves it open (R616, R630). -/
def moveU (urate u target : Int) (v : Nat) : Int :=
  if urate = 0 then target
  else if urate < 0 then s18 (BitVec.ofNat 18 v)
  else if target - u > urate then u + urate else if u - target > urate then u - urate else target

/-- The demand D = word × DMAX, as binary32 (R616). -/
def groupDemand (s : State) : W32 :=
  match f32Rat s.crd.dmax with
  | some m => ratF32 ((s18 (s.dmd.msg.at (demSrc s.crd.cfg)) : Rat) / 131072 * m)
  | none => BitVec.ofNat 32 (freeVal s)

/-- The coordinator's split of a cycle (R616), from the REPORTs of the cycle before. -/
def split (s : State) (cycle : W32) : State :=
  let c := s.crd
  let d := groupDemand s
  let v0 := Config.freeNat (s.free + 1)
  let v1 := Config.freeNat (s.free + 2)
  let inc := c.before.filter fun r => r.avail && r.cycle + 1 == cycle
  let sp := sumF32 (inc.map Report.capp)
  let sn := sumF32 (inc.map Report.capn)
  let side (q : Rat) : Option Rat := (if 0 ≤ q then sp else sn).map fun t => if t = 0 then 0 else q / t
  let ut : Option Rat := (f32Rat d).bind side
  let target : Int := match ut with
    | some q => sat18 (besideWord (max (-1) (min 1 q)) v0)
    | none => s18 (BitVec.ofNat 18 v0)
  let short := match ut with | some q => decide (1 < |q|) | none => v0 / 2 ^ 18 % 2 == 1
  let u := w18 (moveU (s18 (BitVec.ofNat 18 (fld c.par 63 46))) (s18 c.u) target v1)
  let mask : BitVec 1024 := BitVec.ofNat 1024 (inc.foldl (fun a r => a ||| 2 ^ r.node) 0)
  let s := updCrd s fun c => { c with d := d, u := u, short := short, incl := mask, sp := ratF32 (sp.getD 0), sn := ratF32 (sn.getD 0) }
  { s with free := s.free + 3 }

/-! ### Sections received (R612, R621 to R623) -/

/-- INCL as a number, bit n for node n. -/
def inclBytes (v : BitVec 1024) : List Byte := leBytes 128 v.toNat

/-- The sections of one ALLOC frame taken: `own` where the module sent it itself (R612, R621, R623). -/
def takeSections (s : State) (node : Nat) (own : Bool) (p : List Byte) : State :=
  let sect := leNat p 2 1
  let rf := leNat p 3 1
  let e : W32 := BitVec.ofNat 32 (leNat p 4 4)
  let cyc : W32 := BitVec.ofNat 32 (leNat p 8 4)
  let s := if 2 ≤ sect % 8 then updCrd s fun c => { c with epoch := if c.epoch < e then e else c.epoch } else s
  let s := if sect.testBit 0 then
      let r : Report := { node := node, cycle := cyc, capp := BitVec.ofNat 32 (leNat p 12 4), capn := BitVec.ofNat 32 (leNat p 16 4)
                          avail := rf.testBit 0, ready := rf.testBit 1, retreq := rf.testBit 2 }
      updCrd s fun c => { c with reports := (c.reports.filter fun x => !(x.node == node && x.cycle == cyc)) ++ [r] }
    else s
  let s := if sect.testBit 1 then
      let a : AllocSec := { node := node, cycle := cyc, epoch := e, u := BitVec.ofNat 18 (leNat p 28 4), d := BitVec.ofNat 32 (leNat p 32 4)
                            incl := BitVec.ofNat 1024 (leNat p 52 128) }
      updCrd s fun c => { c with allocs := c.allocs ++ [a], allocEpoch := if !own && c.allocEpoch < e then e else c.allocEpoch }
    else s
  if sect.testBit 2 && !own then
    let a : ArbSec := { node := node, epoch := e, coord := leNat p 24 2, stby := leNat p 26 2 }
    let newest := match s.crd.arb with | some b => !(e < b.epoch) | none => true
    updCrd s fun c => { c with arb := if newest then some a else c.arb, arbSeen := true, namedNow := c.namedNow || a.coord == nodeId s }
  else s

/-- An ALLOC frame received (R612): one of another group is discarded. -/
def takeAlloc (s : State) (node : Nat) (p : List Byte) : State :=
  if crdRuns s && leNat p 0 2 == crdGroup s.crd.cfg then takeSections s node false p else s

/-! ### The cycle instant (R587, R602, R613, R616, R623 to R625) -/

/-- Conditions 1 to 3 of R623. -/
def namedCoord (s : State) : Bool := match s.crd.arb with | some a => a.coord == nodeId s | none => false
def heardArb (s : State) : Bool := decide (s.crd.sinceNamed ≤ 2)
def unrivalled (s : State) : Bool := !(s.crd.ownEpoch < s.crd.allocEpoch)

/-- A coordinator that has lost condition 2 or 3 fences itself (R623). -/
def fence (s : State) : State :=
  if s.crd.sending && !s.crd.leaving && !(heardArb s && unrivalled s) then
    crdFlag (updCrd s fun c => { c with leaving := true }) 5 0xA025
  else s

/-- Whether the pair module sends from this instant on (R623); a new appointment starts from the last state copy. -/
def takeOffice (s : State) : State :=
  let named := isPair s && namedCoord s
  let e := match s.crd.arb with | some a => if named then a.epoch else s.crd.ownEpoch | none => s.crd.ownEpoch
  let s := updCrd s fun c => { c with ownEpoch := e }
  let s := fence s
  let go := named && heardArb s && unrivalled s
  if go && !s.crd.sending then
    updCrd s fun c =>
      match c.copy with
      | some a => { c with sending := true, leaving := false, copies := 0, copyPrev := false, u := a.u, d := a.d, incl := a.incl }
      | none => { c with sending := true, leaving := false, copies := 0, copyPrev := false, u := 0 }
  else updCrd s fun c => { c with sending := go, leaving := false }

/-- A due appointment of the arbiter takes effect with the next epoch, which the flash log keeps first (R624, R625, R628). -/
def appoint (s : State) : State :=
  match s.crd.toAppoint with
  | none => s
  | some q =>
    let e : W32 := (if s.crd.epoch < s.nv.epoch then s.nv.epoch else s.crd.epoch) + 1
    let back := !s.crd.failed && s.crd.appointed.isSome
    let s := { s with nv := { s.nv with epoch := e } }
    let s := updCrd s fun c => { c with epoch := e, appointed := some q, toAppoint := none, misses := 0, failed := false }
    if back then recCrd s 0xA027 else s

/-- CYCLE at an instant (R612). -/
def cycleNow (c : Clock) : W32 := BitVec.ofNat 32 (c.sec.toNat * 1000 + c.ns.toNat / 1000000)

/-- ADX_CTRL that waits takes effect; a change of SYSID, P0EN or P1EN clears the node table (R602). -/
def adxCommit (s : State) : State :=
  match s.adx.ctrlNext with
  | none => s
  | some w =>
    let o := s.adx.ctrl
    let same := fld w 62 47 == fld o 62 47
    updAdx s fun a => { a with ctrl := w, ctrlNext := none, table := if same then a.table else [] }

/-- The payload of the module's ALLOC frame (R612). The delivered torque TACT is open (log entry 20). -/
def allocPayload (s : State) : List Byte :=
  let c := s.crd
  let rep := crdMember s || isPair s
  let arb := if isArbiter s then c.appointed else none
  let avail := crdAvail s
  let cap (f : W32 × W32 → W32) : Nat := (ratF32 ((sumF32 (c.cap.toList.map f)).getD 0)).toNat
  leBytes 2 (crdGroup c.cfg) ++ leBytes 1 (b2n rep + 2 * b2n c.sending + 4 * b2n arb.isSome)
    ++ leBytes 1 (if rep then b2n avail + 2 * b2n (standbyReady s) + 4 * b2n (returnWanted s) else 0)
    ++ leBytes 4 c.epoch.toNat ++ leBytes 4 c.cycle.toNat
    ++ leBytes 4 (cap Prod.fst) ++ leBytes 4 (cap Prod.snd) ++ leBytes 4 (if avail then freeVal s else 0)
    ++ leBytes 2 (arb.getD (0, 0)).1 ++ leBytes 2 (arb.getD (0, 0)).2
    ++ leBytes 4 (if c.sending then (c.u.signExtend 32).toNat else 0) ++ leBytes 4 (if c.sending then c.d.toNat else 0)
    ++ List.replicate 16 0 ++ (if c.sending then inclBytes c.incl else List.replicate 128 0)

/-- The ALLOC frame queued, unless DUPID forbids it (R584); the module takes its own sections at once. -/
def queueAlloc (s : State) : State :=
  let p := allocPayload s
  let s := freeTaken s
  let s := if bit s.adx.stat 3 then s else sendFrames s [(1, allMac (adxCtl s), adxBody s 1 0xFFFF p)]
  takeSections s (nodeId s) true p

/-- The arbiter's cycles since reset, up to 10 (R625). -/
def countStart (s : State) : State := updCrd s fun c => { c with startCycles := satInc 10 c.startCycles }

/-- ALLOC_CYCLE_INSTANT (R587, R602, R612, R613, R615, R616, R623 to R625). -/
def execAllocCycleInstant (s : State) : Host.Outcome State Fault Refusal :=
  let s := adxCommit s
  if !crdRuns s then .next s
  else
    let cyc := cycleNow s.clk
    let s := updCrd s fun c => { c with cycle := cyc, capBefore := c.cap, cap := if crdMember s then capsNow s else Vector.replicate 2 (0, 0) }
    let s := takeOffice s
    let s := if s.crd.sending then split s cyc else s
    let s := if isArbiter s then appoint (countStart s) else s
    .next (queueAlloc s)

/-! ### The latch (R613, R617 to R620, R622 to R624, R628) -/

/-- The allocation of one machine (R617): its word, saturated; a rounding is open (log entry 20). -/
def allocWord (s : State) (u : W18) (m v : Nat) : W18 :=
  let cap := s.crd.capBefore.at m
  match f32Rat (if 0 ≤ s18 u then cap.1 else cap.2), (dmdRun s m).bind fun q => f32Rat (ctxAt s q.1.num).tBase, f32Rat (s.crd.kg.at m) with
  | some c, some t, some g => if t * g = 0 then BitVec.ofNat 18 v else w18 (sat18 (besideWord ((s18 u : Rat) / 131072 * c / (t * g)) v))
  | some c, none, _ => if c = 0 then 0 else BitVec.ofNat 18 v
  | _, _, _ => BitVec.ofNat 18 v

/-- One machine's stream entry written; SEQ of its flag word is open, since no sample trigger delivers it (R136, R617). -/
def writeAslot (s : State) (m : Nat) (v : W18) : State :=
  let flag : W18 := BitVec.ofNat 18 (freeVal s % 256)
  deliver (freeTaken s) (dmdRegions s) (aslot s.crd.par m) v flag

/-- An ALLOC section applied by the member (R617). -/
def applyAlloc (s : State) (a : AllocSec) : State :=
  let inc := a.incl.getLsbD (nodeId s)
  let s := (crdMachines s).foldl (fun s m => writeAslot (freeTaken s) m (if inc then allocWord s a.u m (freeVal s) else 0)) s
  updCrd s fun c =>
    { c with gap := 0, noAlloc := false, applied := some (a.epoch, a.node)
             u := if c.sending then c.u else a.u, d := if c.sending then c.d else a.d, incl := if c.sending then c.incl else a.incl }

/-- A missed latch (R618 to R620). -/
def missAlloc (s : State) : State :=
  let s := crdSet (updCrd s fun c => { c with gap := satInc 15 c.gap }) 1
  if s.crd.gap = 8 then
    let s := if crdCompat s.crd.cfg then s else (crdMachines s).foldl (fun s m => writeAslot s m 0) s
    recCrd (updCrd s fun c => { c with noAlloc := true }) 0xA022
  else s

/-- The section with the highest epoch, and among those of one epoch the node applied last or else the lowest (R622). -/
def chooseAlloc (l : List AllocSec) (last : Option Nat) : Option AllocSec :=
  let top := l.foldl (fun e a => max e a.epoch.toNat) 0
  let l := l.filter fun a => a.epoch.toNat == top
  match l.find? fun a => some a.node == last with
  | some a => some a
  | none => l.foldl (fun b a => match b with | some x => if a.node < x.node then some a else b | none => some a) none

/-- Two sections of one epoch from different nodes (R622). -/
def epochClash (l : List AllocSec) : Bool := l.any fun a => l.any fun b => a.epoch == b.epoch && a.node != b.node

/-- The member's part of the latch (R617 to R622). -/
def memberLatch (s : State) (l : List AllocSec) : State :=
  let low := match s.crd.applied with | some q => q.1.toNat | none => 0
  let s := updCrd s fun c => { c with stale := c.stale + (l.filter fun a => decide (a.epoch.toNat < low)).length }
  let l := l.filter fun a => decide (low ≤ a.epoch.toNat)
  let s := if epochClash l then crdFlag s 6 0xA026 else s
  match chooseAlloc l (s.crd.applied.map Prod.snd) with
  | some a => applyAlloc s a
  | none => missAlloc s

/-- The other module of the pair, as seen by the arbiter (R624). -/
def otherOf (s : State) (n : Nat) : Nat := if n = homeNode s.crd.cfg then partnerNode s.crd.cfg else homeNode s.crd.cfg

/-- A REPORT of this latch from a node with a property. -/
def reported (l : List Report) (n : Nat) (p : Report → Bool) : Bool := l.any fun r => r.node == n && p r

/-- The appointment of a pair module, due at the next instant. -/
def willAppoint (s : State) (n : Nat) : State := updCrd s fun c => { c with toAppoint := some (n, otherOf s n) }

/-- The arbiter's part of the latch (R624, R628). -/
def arbiterLatch (s : State) (reps : List Report) (allocs : List AllocSec) : State :=
  match s.crd.appointed with
  | none => s
  | some (co, st) =>
    let isPairNode (r : Report) : Bool := r.ready && (r.node == homeNode s.crd.cfg || r.node == partnerNode s.crd.cfg)
    if s.crd.failed then
      match s.crd.toAppoint, reps.find? isPairNode with
      | none, some r => willAppoint s r.node
      | _, _ => s
    else
      let beat := allocs.any fun a => a.node == co && a.epoch == s.crd.epoch
      let s := updCrd s fun c => { c with misses := if beat then 0 else c.misses + 1 }
      if 2 ≤ s.crd.misses then
        let s := crdFlag (updCrd s fun c => { c with failed := true }) 3 0xA020
        if reported reps (otherOf s co) Report.ready then willAppoint s (otherOf s co) else crdFlag s 2 0xA024
      else if st == homeNode s.crd.cfg && co != st && reported reps st Report.retreq then willAppoint s st
      else s

/-- ALLOC_LATCH (R613, R617 to R624, R628). -/
def execAllocLatch (s : State) : Host.Outcome State Fault Refusal :=
  if !crdRuns s then .next s
  else
    let k := s.crd.cycle
    let reps := s.crd.reports.filter fun r => r.cycle == k
    let allocs := s.crd.allocs.filter fun a => a.cycle == k
    let s := updCrd s fun c =>
      { c with before := reps, reports := c.reports.filter fun r => r.cycle == k + 1, allocs := c.allocs.filter fun a => a.cycle == k + 1
               sinceNamed := if c.namedNow then 0 else satInc 3 c.sinceNamed, namedNow := false }
    let s := fence s
    let s := if crdMember s then memberLatch s allocs else s
    .next (if isArbiter s then arbiterLatch s reps allocs else s)

/-! ### The pair link (R626 to R628) and the arbiter's start (R625) -/

/-- The state copy (R626). -/
def copyBytes (c : Crd) : List Byte :=
  let b := leBytes 4 c.epoch.toNat ++ leBytes 4 c.cycle.toNat ++ leBytes 4 (c.u.signExtend 32).toNat ++ leBytes 4 c.d.toNat ++ inclBytes c.incl
  b ++ leBytes 4 (crc32 b).toNat

/-- STATE_COPY_SEND (R626). -/
def execStateCopySend (s : State) : Host.Outcome State Fault Refusal :=
  if isPair s && s.crd.sending then .next (updCrd s fun c => { c with copySent := copyBytes c }) else .next s

/-- STATE_COPY_RECEIVED (R626 to R628): a copy that is not intact is discarded and ends the row of intact copies. -/
def execStateCopyReceived (b : List Byte) (s : State) : Host.Outcome State Fault Refusal :=
  if !isPair s || s.crd.sending then .next s
  else if b.length = 148 ∧ leNat b 144 4 = (crc32 (b.take 144)).toNat then
    let a : AllocSec := { node := otherOf s (nodeId s), epoch := BitVec.ofNat 32 (leNat b 0 4), cycle := BitVec.ofNat 32 (leNat b 4 4)
                          u := BitVec.ofNat 18 (leNat b 8 4), d := BitVec.ofNat 32 (leNat b 12 4), incl := BitVec.ofNat 1024 (leNat b 16 128) }
    let next := match s.crd.copy with | some o => o.cycle + 1 == a.cycle | none => false
    let agree := match s.crd.copy with | some o => next && o.epoch == a.epoch | none => false
    .next (updCrd s fun c => { c with copy := some a, copyPrev := agree, copies := if next && c.copies != 0 then c.copies + 1 else 1 })
  else .next (updCrd s fun c => { c with copies := 0 })

/-- PAIR_LINK_TIMEOUT (R627). -/
def execPairLinkTimeout (s : State) : Host.Outcome State Fault Refusal :=
  if isPair s then .next (crdFlag (updCrd s fun c => { c with copies := 0 }) 4 0xA023) else .next s

/-- ARBITER_STARTUP_APPOINT (R625): after 10 cycles HOME, if it is ready or no ARB section was seen, otherwise PARTNER. -/
def execArbiterStartupAppoint (s : State) : Host.Outcome State Fault Refusal :=
  if isArbiter s && decide (10 ≤ s.crd.startCycles) && s.crd.appointed.isNone && s.crd.toAppoint.isNone then
    let home := homeNode s.crd.cfg
    if reported (s.crd.before ++ s.crd.reports) home Report.ready || !s.crd.arbSeen then .next (willAppoint s home)
    else .next (willAppoint s (partnerNode s.crd.cfg))
  else .next s

/-! ### CFG_CRD (R629 to R632) -/

/-- A binary32 number greater than 0 (R630). -/
def f32Positive (w : W32) : Bool := match f32Rat w with | some q => decide (0 < q) | none => false

/-- CRD_CFG within its ranges (R629). -/
def crdCfgOk (s : State) (w : W64) : Bool :=
  homeNode w != partnerNode w && arbNode w != homeNode w && arbNode w != partnerNode w && pairPos w != 2
    && !(pairPos w == 0 && homeNode w != nodeId s) && !(pairPos w == 1 && partnerNode w != nodeId s)
    && !(crdArbiter w && arbNode w != nodeId s) && fld w 12 0 == 0

/-- CFG_CRD CFG (R629, R632). -/
def execCfgCrdCfg (r : Req) (s : State) : Host.Outcome State Fault Refusal :=
  let w : W64 := BitVec.ofNat 64 (fieldAt r 16 8)
  let s' := updCrd s fun c => { c with cfg := w }
  .next (runJob 0x1032 r s
    (guardSt (opForm r 16 0 && zeroAt r 9 7 && crdCfgOk s w && slotsOk s') stRange
      (guardSt (w == s.crd.cfg || s.drv.st == .standby || s.drv.st == .configured) stState (ok s'))))

/-- URATE, the RW field of CRD_PAR (R630). -/
def crdRw : W64 := 0xFFFF_C000_0000_0000

/-- CFG_CRD PAR (R630, R632). The spec gives DMAX, KG0 and KG1 no access code: they may change in every state in which the command is legal
(DESIGN CHOICE, log entry 9). -/
def execCfgCrdPar (r : Req) (s : State) : Host.Outcome State Fault Refusal :=
  let w : W64 := BitVec.ofNat 64 (fieldAt r 16 8)
  let f (k : Nat) : W32 := BitVec.ofNat 32 (fieldAt r (24 + 4 * k) 4)
  let s' := updCrd s fun c => { c with par := w, dmax := f 0, kg := (c.kg.put 0 (f 1)).put 1 (f 2) }
  .next (runJob 0x1032 r s
    (guardSt (opForm r 28 1 && zeroAt r 9 7 && f32Positive (f 0) && f32Positive (f 1) && f32Positive (f 2) && fld w 26 0 == 0
        && (!bit w 45 || s.drv.arrange == 0) && slotsOk s') stRange
      (guardSt (sameOutside crdRw s.crd.par w || s.drv.st == .standby || s.drv.st == .configured) stState (ok s'))))

/-- CFG_CRD STATUS_CLR (R631, R632): the W1C mask on CRD_STAT[6:1]. -/
def execCfgCrdStatusClr (r : Req) (s : State) : Host.Outcome State Fault Refusal :=
  let m := fieldAt r 12 4
  .next (runJob 0x1032 r s
    (guardSt (opForm r 8 2 && zeroAt r 9 3 && decide (m < 128) && m % 2 == 0) stRange
      (ok (updCrd s fun c => { c with flags := w1c c.flags (BitVec.ofNat 7 m) }))))

end Sys2Proof.Machine
end

