-- ==== Sys2Proof/Machine/AdxRx.lean ====
section
/-! DEFINITION. The reception of an Adexia frame (R579 to R585, R588 to R590, R612): the frame checks, duplicate discard, and what each
class does. -/

namespace Sys2Proof.Machine

/-- A frame counted under R581 or R585 on its port. -/
def countBad (s : State) (p : Nat) : State := updPort s p fun x => { x with bad := x.bad + 1 }

/-- Fields of the Adexia header (R585). -/
def hdrVer (b : List Byte) : Nat := leNat b 0 1
def hdrCls (b : List Byte) : Nat := leNat b 1 1
def hdrSrc (b : List Byte) : Nat := leNat b 2 2
def hdrDst (b : List Byte) : Nat := leNat b 4 2
def hdrLen (b : List Byte) : Nat := leNat b 6 2

/-- The header checks (R585); a MSG payload has 32 bytes and an ALLOC payload 180 (R589, R612). -/
def headerOk (b : List Byte) : Bool :=
  hdrVer b == 1 && decide (1 ≤ hdrCls b) && decide (hdrCls b ≤ 4) && b.length == 8 + hdrLen b && decide (hdrLen b ≤ 1024)
    && !(hdrCls b == 2 && hdrLen b != 32) && !(hdrCls b == 1 && hdrLen b != 180)

/-! ### Duplicate discard (R582) -/

/-- What duplicate discard says of a frame. -/
inductive Verdict where
  | accept
  | duplicate
  | outOfWindow
  deriving DecidableEq, Repr

/-- Whether a sequence number lies above the highest one accepted, by how much, and otherwise how far below (modulo 65,536). -/
def aheadBy (hi q : Nat) : Nat := (q + 65536 - hi) % 65536
def isAhead (hi q : Nat) : Bool := decide (0 < aheadBy hi q) && decide (aheadBy hi q < 32768)
def behindBy (hi q : Nat) : Nat := (hi + 65536 - q) % 65536

/-- The verdict on a frame of a source in the table; a number more than 63 below has no record. -/
def NodeEnt.judge (e : NodeEnt) (q now : Nat) : Verdict :=
  if isAhead e.hi q then .accept
  else if 63 < behindBy e.hi q then .outOfWindow
  else if e.recent.any fun r => r.1 == q && decide (now < r.2.1 + ms400) then .duplicate
  else .accept

/-- An accepted number entered. -/
def NodeEnt.enter (e : NodeEnt) (q now port : Nat) : NodeEnt :=
  let recent := (q, now, port) :: e.recent.filter fun r => r.1 != q && decide (now < r.2.1 + ms400)
  if isAhead e.hi q then
    let n := aheadBy e.hi q
    { e with hi := q, below := if n ≤ 63 then (e.below <<< n) ||| BitVec.ofNat 63 (2 ^ (n - 1)) else 0, recent := recent, seen := now }
  else
    let d := behindBy e.hi q
    { e with below := if d = 0 then e.below else e.below ||| BitVec.ofNat 63 (2 ^ (d - 1)), recent := recent, seen := now }

/-- A new source's entry. -/
def freshNode (mac : BitVec 48) (q now port : Nat) : NodeEnt := { mac := mac, hi := q, below := 0, recent := [(q, now, port)], seen := now }

/-- The instant at which the source not seen for the longest time was seen. -/
def oldestSeen : List NodeEnt → Nat
  | [] => 0
  | [e] => e.seen
  | e :: t => min e.seen (oldestSeen t)

/-- The first entry seen at an instant replaced. -/
def replaceOldest (t : Nat) (n : NodeEnt) : List NodeEnt → List NodeEnt
  | [] => []
  | e :: r => if e.seen = t then n :: r else e :: replaceOldest t n r

/-- A new source put into the table: it has 1,088 entries, and one seen within 400 ms is not replaced. -/
def enterSource (table : List NodeEnt) (n : NodeEnt) (now : Nat) : Option (List NodeEnt) :=
  if table.length < 1088 then some (table ++ [n])
  else if oldestSeen table + ms400 ≤ now then some (replaceOldest (oldestSeen table) n table)
  else none

/-- Duplicate discard of a frame with an RCT that arrives on a port (R582): whether it is accepted, and the table and counters after. -/
def discardDup (s : State) (p : Nat) (mac : BitVec 48) (q : Nat) : Bool × State :=
  let t := s.clk.tb
  let accept (s : State) (wait : Bool) : State :=
    updPort s p fun x => { x with accepted := x.accepted + 1, awaited := if wait then (mac, q, t) :: x.awaited else x.awaited }
  let put (f : NodeEnt → NodeEnt) : State := updAdx s fun a => { a with table := a.table.map fun e => if e.mac == mac then f e else e }
  match s.adx.table.find? fun e => e.mac == mac with
  | none =>
    match enterSource s.adx.table (freshNode mac q t p) t with
    | some l => (true, accept (updAdx s fun a => { a with table := l }) true)
    | none => (true, accept s false)
  | some e =>
    match e.judge q t with
    | .accept => (true, accept (put fun e => e.enter q t p) true)
    | .duplicate =>
      let s := updPort (put fun e => { e with seen := t }) p fun x => { x with dup := x.dup + 1 }
      (false, updPort s (1 - p) fun x => { x with awaited := x.awaited.filter fun w => !(w.1 == mac && w.2.1 == q) })
    | .outOfWindow => (false, updPort (put fun e => { e with seen := t }) p fun x => { x with oow := x.oow + 1 })

/-! ### Classes -/

/-- The policer (R588): whether a MSG or CMD frame is taken in the present 1 ms window of the local clock. -/
def police (s : State) (p : Nat) : Bool × State :=
  let w := s.clk.sec.toNat * 1000 + s.clk.ns.toNat / 1000000
  let x := s.adx.ports.at p
  let n := if x.window = w then x.taken else 0
  if n < adxRxmax (adxCtl s) then (true, updPort s p fun x => { x with taken := n + 1, window := w })
  else (false, portFlag (updPort s p fun x => { x with taken := n, window := w, drop := satInc 255 x.drop }) p 1 0xA004)

/-- One map entry applied to a MSG frame (R589). -/
def msgEntry (src : Nat) (pl : List Byte) (s : State) (k : Nat) : State :=
  let w := s.adx.mw.at k
  if mwEn w && mwSrc w == src then
    match sext18? (leNat pl (4 * mwIdx w) 4) with
    | some v => putMsg s (mwWord w) v
    | none => adxSet s 0
  else s

/-- A CMD frame (R590). -/
def cmdFrame (s : State) (p src : Nat) (pl : List Byte) : State :=
  let w := adxCtl s
  if !adxCmden w then s
  else if src != adxCmdsrc w || pl.length % 64 != 0 then countBad s p
  else
    let k := pl.length / 64
    let drop := recAdx (adxSet s 2) noUnit 0xA005
    match sourceRing s.io 1 with
    | some n =>
      if ringFull (s.io.q n) k then drop
      else (List.range k).foldl (fun s i => feedRing s n ((pl.drop (64 * i)).take 64)) s
    | none => drop

/-- What an accepted Adexia frame does, by its class (R588 to R591, R612). -/
def adexiaFrame (s : State) (p : Nat) (b : List Byte) : State :=
  let src := hdrSrc b
  let pl := b.drop 8
  if hdrDst b != 0xFFFF && hdrDst b % 1024 != nodeId s then s
  else if hdrCls b = 1 then (if adxFull s then takeAlloc s (src % 1024) pl else s)
  else if hdrCls b = 2 || hdrCls b = 3 then
    if hdrCls b = 2 && !adxFull s then s
    else match police s p with
      | (false, s) => s
      | (true, s) => if hdrCls b = 2 then (List.range 8).foldl (msgEntry src pl) s else cmdFrame s p src pl
  else s

/-- An Adexia frame that the checks have passed: LANERR, duplicate discard, and the check units (R580 to R582, R636). -/
def adexiaArrives (s : State) (p : Nat) (f : EthFrame) : State :=
  let take (s : State) (seq : Nat) : State :=
    adexiaFrame (snoop s 0x40 [{ addr := hdrSrc f.body % 1024, seq := seq, data := f.body }] true) p f.body
  match f.rct with
  | some r =>
    let s := if r.lan == 0xB - p then updPort s p fun x => { x with flags := setBit x.flags 3 true } else s
    if r.lan == 0xA || r.lan == 0xB then
      match discardDup s p f.srcMac (r.seq % 65536) with
      | (true, s) => take s (r.seq % 65536)
      | (false, s) => s
    else take (updPort s p fun x => { x with accepted := x.accepted + 1 }) 0
  | none => take (updPort s p fun x => { x with accepted := x.accepted + 1 }) 0

/-- ADEXIA_FRAME_RECEIVED (R579 to R585, R588 to R590, R597, R598, R612): a frame that fails its frame check sequence is discarded; a PTP frame
carries no RCT and bypasses duplicate discard. -/
def execAdexiaFrameReceived (p : Fin 2) (f : EthFrame) (s : State) : Host.Outcome State Fault Refusal :=
  if !portLive s p.val || !f.fcsOk then .next s
  else
    let w := adxCtl s
    let own := nodeMac w (nodeId s)
    let s := if f.srcMac == own then recAdx (adxSet s 3) noUnit 0xA007 else s
    let mine := f.dstMac == own || f.dstMac.getLsbD 40
    if f.etype.toNat = adxType w then
      if !(f.dstMac == own || f.dstMac == allMac w) then .next s
      else if !headerOk f.body then .next (countBad s p.val)
      else .next (adexiaArrives s p.val f)
    else if f.etype = 0x88F7 then .next (if mine then ptpArrives s p.val f.body else s)
    else if f.etype = 0x88FB then
      match f.rct with
      | some r => .next (discardDup s p.val f.srcMac (r.seq % 65536)).2
      | none => .next (updPort s p.val fun x => { x with accepted := x.accepted + 1 })
    else .next (countBad s p.val)

end Sys2Proof.Machine
end

