-- ==== Sys2Proof/Machine/Inject.lean ====
section
/-! DEFINITION. DIA_INJECT (R90). -/

namespace Sys2Proof.Machine

/-- Largest INST of a TARGET, and the bits of ARG that it uses (R90). -/
def injectRange (target : Nat) : Option (Nat × Nat) :=
  match target with
  | 1 => some (15, 0) | 2 => some (13, 0) | 3 => some (11, 0) | 4 => some (0, 0) | 5 => some (0, 0)
  | 6 => some (3, 0x7FFF) | 7 => some (51, 0) | 8 => some (31, 0xFFFF)
  | _ => none

/-- TARGET, INST and ARG within the table (R90). -/
def injectOk (r : Req) : Bool :=
  match injectRange (fieldAt r 8 1) with
  | some q => formOk r 8 && decide (fieldAt r 9 1 ≤ q.1) && zeroAt r 10 2 && decide (fieldAt r 12 4 ≤ q.2)
  | none => false

/-- The code of the first record written since a state of the fault log (R90), 0 if there is none. -/
def firstCode (old new : Io) : Nat :=
  (((new.log.take (new.logNum - old.logNum).toNat).getLast?).map fun f => f.code.toNat).getD 0

/-- The lines of the trip path act for 100 µs without switching a gate (R90): what they hold off ends with the injection. -/
def linesBack (old : Prt) (p : Prt) : Prt :=
  { p with act := old.act, legOff := old.legOff, otherBank := old.otherBank, tripLine := old.tripLine, chAct := old.chAct,
           chAt := old.chAt, ovHold := old.ovHold }

/-- A lock-out report of a channel's positive rail, which the rail itself withdraws (R90, R391). -/
def injectLockout (s : State) (ch : Nat) : State :=
  let g := s.gdv.at ch
  if !g.en then s
  else
    let s := updGdv s ch fun x => { x with stat := setBit (setBit x.stat 6 true) 4 true }.blocked
    updGdv (channelLost s ch 0x1001) ch fun x => { x with stat := setBit x.stat 6 (bit g.stat 6) }.blocked

/-- The output of a desaturation comparator (R90, R396). -/
def injectDesat (s : State) (ch : Nat) : State :=
  let g := s.gdv.at ch
  if !g.en || !g.dsen || bit g.stat 0 then s
  else
    let s := updGdv s ch fun x => { x with soft := true, stat := setBit (setBit (incSat x.stat 23 16) 3 true) 0 true }.blocked
    let s := recGdv s ch 0x1002
    if ch < 12 then phaseDesat s ch else if b2n (ch == 12) == b2n (bit s.prt.ctl 58) then chopperFault s else s

/-- A fast-path trip line (R90, R288, R412). -/
def injectTrip (s : State) (i : Nat) : State :=
  assertTrip (recDsm (updDsm s i fun d => { d with stat := setBit d.stat 2 true }) i 0x6011) i

/-- A reading of one sensor for 10 ms: its windows and the evaluations in them; a reading changes no state, so the records alone
stay (R90, R531, R534; log entry 22). -/
def injectReading (s : State) (n : Nat) (v : Int) : State :=
  let c := s.thm.count.at n
  let t := throttle (sensorWindow (sensorWindow s n (c + 1) v) n (c + 2) v)
  { s with io := { t.io with latched := s.io.latched } }

/-- The reaction to an injection at TARGET 1 to 6 and 8. -/
def injectAt (s : State) (target inst arg : Nat) : State :=
  match target with
  | 1 => injectLockout s inst
  | 2 => injectDesat s inst
  | 3 => injectTrip s inst
  | 4 => if ovt s = 0 then s else ovReact s
  | 5 => if uvt s = 0 then s else uvReact s
  | 6 => rmemDouble s inst arg (readersOf s inst arg)
  | _ => injectReading s inst (BitVec.ofNat 16 arg).toInt

/-- An injection with its records marked INJ (R82, R90). -/
def inject (s : State) (target inst arg : Nat) : State :=
  let t := injectAt { s with io := { s.io with inj := true } } target inst arg
  let t := { t with io := { t.io with inj := s.io.inj } }
  if target ≤ 5 then updPrt t (linesBack s.prt) else t

/-- A mismatch in one compared group (R90): captured and counted in MCNT, not in REC; the kind of the group and the cycle are open. -/
def injectMismatch (s : State) (group : Nat) : State :=
  let w := mcapWord s (freeVal s % 4) (BitVec.ofNat 8 group) (BitVec.ofNat 32 (freeVal (freeTaken s)))
  let s := freeTaken (freeTaken s)
  let s := { s with aon := { s.aon with mcnt := BitVec.ofNat 8 (satInc 255 s.aon.mcnt.toNat), mcap := w }
                    io := { s.io with inj := true } }
  blkStep s (updIcp s fun p => { p with held := true, mismatchLine := true })

/-- DIA_INJECT (R90, R501): `reactNs` is the time from the injection to the first action of the reaction. -/
def execDiaInject (r : Req) (reactNs : W32) (s : State) : Host.Outcome State Fault Refusal :=
  let target := fieldAt r 8 1
  let inst := fieldAt r 9 1
  let t := inject s target inst (fieldAt r 12 4)
  let done := runJob 0x6003 r s
    (guardSt (injectOk r) stRange
      (guardSt (!s.icp.split) stBusy
        (if target = 7 then ok s
         else .done t stOk (leBytes 2 (firstCode s.io t.io) ++ [0, 0] ++ leBytes 4 reactNs.toNat))))
  if target = 7 && injectOk r && !s.icp.split && jobRuns s 0x6003 r then .next (injectMismatch done inst) else .next done

end Sys2Proof.Machine
end

