-- ==== Sys2Proof/Machine/Query.lean ====
section
/-! DEFINITION. QRY_STATE, QRY_STATUS, QRY_CONFIG and QRY_TELEMETRY (R85, R86, R107, R686 and the rules it names). -/

namespace Sys2Proof.Machine

/-! ### QRY_STATE and QRY_STATUS -/

/-- A failure of QRY_STATE in eight bytes (R107). -/
def failBytes (f : Option StartFail) : List Byte :=
  match f with
  | some f => leBytes 2 f.code.toNat ++ [f.stage, 0] ++ leBytes 4 f.secs.toNat
  | none => List.replicate 8 0

/-- RESULT of QRY_STATE (R107). -/
def stateBytes (s : State) : List Byte :=
  leBytes 1 s.drv.st.code ++ leBytes 1 s.drv.prev.code ++ leBytes 2 s.drv.cause.toNat
    ++ leBytes 2 (if s.drv.st == .coppice then s.aon.coppiceReason.toNat else 0) ++ leBytes 1 s.aon.failCount ++ [0]
    ++ ((List.range 3).flatMap fun k => failBytes s.aon.fails[k]?) ++ word8 s.drv.tState

/-- QRY_STATE (R107). -/
def execQryState (r : Req) (s : State) : Host.Outcome State Fault Refusal :=
  .next (runJob 0x3001 r s (guardSt (formOk r 0) stRange (.done s stOk (stateBytes s))))

/-- RESULT of QRY_STATUS (R85). -/
def statusBytes (s : State) : List Byte :=
  word4 (hpStatus s) ++ leBytes 2 s.io.faultCount ++ leBytes 1 (min 8 s.io.latched.length) ++ [0]
    ++ ((List.range 8).flatMap fun k => leBytes 2 (s.io.latched.getD k 0).toNat)
    ++ word4 (blkStat s) ++ word4 (prnStat s) ++ word4 s.thm.stat ++ word4 (lstat s)

/-- QRY_STATUS (R85). -/
def execQryStatus (r : Req) (s : State) : Host.Outcome State Fault Refusal :=
  .next (runJob 0x3002 r s (guardSt (formOk r 0) stRange (.done s stOk (statusBytes s))))

/-! ### QRY_CONFIG -/

/-- Bytes 8 to 35 of the CFG_DRIVE payload in force (R18). -/
def driveCfgBytes (s : State) : List Byte :=
  let d := s.drv
  leBytes 1 d.arrange ++ [d.legs, d.auxuse, 0] ++ leBytes 2 d.varmMin ++ leBytes 2 d.varmMax ++ leBytes 2 d.stopT ++ [0, 0]
    ++ leBytes 2 d.routeAcq.toNat ++ leBytes 2 d.routePos.toNat ++ leBytes 6 d.routeDsm.toNat ++ List.replicate 6 0

/-- The active image's header fields (R86, R156). -/
def imageBytes (s : State) : List Byte :=
  let d := s.thk.active
  let cut (o n : Nat) : List Byte := padTo n ((d.drop o).take n)
  if d.isEmpty then List.replicate 84 0
  else cut 20 4 ++ cut 16 4 ++ cut 8 4 ++ cut 12 2 ++ cut 14 2 ++ cut 24 1 ++ [0, 0, 0] ++ cut 64 64

/-- CTX_PERIOD (R143, R146): for a context on network time the record's own word, for another its period in ns, whose rounding the spec
does not give, and the image's word for one that is never released (log entry 67). -/
def ctxPeriod (s : State) (c : Nat) : W32 :=
  let x := ctxAt s c
  if fld x.ctrl 23 16 = 0x30 then x.period
  else match periodNow (unitRecs s) s c with
    | some p => BitVec.ofInt 32 (freeRound ((p : Rat) / 64) (freeVal s))
    | none => x.period

/-- The 13 words of a context record (R143). -/
def ctxRecBytes (s : State) (c : Nat) : List Byte :=
  let x := ctxAt s c
  [x.ctrl, ctxPeriod s c, x.minper, x.bound, x.wct, x.status, x.flags, x.acts, x.iBase, x.vBase, x.wBase, x.tBase, x.area].flatMap word4

/-- Payload bytes 12 on of CFG_ACQ (R282). -/
def acqCfg (s : State) (op g f n : Nat) : Option (List Byte) :=
  let x := s.acq.groups.at g
  if 4 ≤ g then none
  else if op = 0 then
    if f = 0 ∧ n = 0 then some (word4 x.want.1 ++ x.want.2.2.toList.flatMap word8) else none
  else if op = 1 then
    if 1 ≤ n ∧ f + n ≤ 64 then some (leBytes 4 0 ++ (List.range n).flatMap fun i => word8 (x.want.2.1.at (f + i))) else none
  else if op = 2 then
    if 1 ≤ n ∧ f + n ≤ 68 then some (leBytes 4 0 ++ (List.range n).flatMap fun i => word8 (x.scale.at (f + i))) else none
  else none

/-- Payload bytes 12 on of CFG_DSM (R291) and CFG_POS (R332). -/
def dsmCfg (s : State) (op i : Nat) : Option (List Byte) :=
  let x := s.acq.dsm.at i
  if op = 0 ∧ i = 0 then some (leBytes 4 0 ++ s.acq.clks.toList.flatMap word4)
  else if op = 1 ∧ i < 12 then some (leBytes 4 0 ++ word8 x.cfg ++ word8 x.fth ++ word8 x.scale)
  else none

def posCfg (s : State) (op u : Nat) : Option (List Byte) :=
  let z := leBytes 4 0
  let p := s.pos
  if op = 0 ∧ u < 2 then some (z ++ word8 (p.rsv.at u).cfg)
  else if op = 1 ∧ u < 4 then some (z ++ word8 (p.enc.at u).cfg)
  else if op = 2 ∧ u < 4 then some (z ++ word8 (p.enc.at u).cmp)
  else if op = 3 ∧ u < 2 then some (z ++ word4 (p.hal.at u).cfg)
  else if op = 4 ∧ u < 4 then some (z ++ word8 (p.obs.at u).cfgA ++ word8 (p.obs.at u).cfgB ++ word4 (p.obs.at u).wb)
  else if op = 5 ∧ u < 2 then some (z ++ word8 (p.pla.at u).cfg)
  else none

/-- Payload bytes 12 on of CFG_PWM (R377), CFG_GDV (R409) and CFG_PRT (R445). -/
def pwmCfg (s : State) (op u : Nat) : Option (List Byte) :=
  let x := s.pwm.units.at u
  if op = 0 ∧ u < 6 then some (leBytes 4 0 ++ word8 x.cfg ++ word8 x.tim)
  else if op = 1 ∧ u < 8 then some (leBytes 4 0 ++ word8 (s.pwm.aux.at u).cfg)
  else none

def gdvCfg (s : State) (op ch : Nat) : Option (List Byte) :=
  let g := s.gdv.at ch
  let z := leBytes 4 0
  if 16 ≤ ch then none
  else if op = 0 then some (z ++ word8 g.cfg)
  else if op = 1 then some (z ++ word8 g.ind)
  else if op = 2 then some (z ++ word4 g.ibase ++ g.ron.toList.flatMap fun w => leBytes 2 w.toNat)
  else if op = 3 then some (intBytes 4 g.tcool)
  else none

def prtCfg (s : State) (op k : Nat) : Option (List Byte) :=
  let z := leBytes 4 0
  if op = 4 then (if k < 4 then some (z ++ word4 (s.prt.cbc.at k)) else none)
  else if k ≠ 0 then none
  else if op = 0 then some (z ++ word8 s.prt.ctl)
  else if op = 1 then some (z ++ word8 s.prt.dcl ++ word4 s.prt.dck)
  else if op = 2 then some (z ++ word8 s.prt.chop)
  else if op = 3 then some (z ++ word8 s.prt.trip)
  else none

/-- Payload bytes 12 on of CFG_CURVE (R237): the arguments after the curve's number are its bytes 9 to 11 in range. -/
def curveCfg (s : State) (c f lo hi : Nat) : Option (List Byte) :=
  let x := (s.dmd.pend.at c).getD (s.dmd.curves.at c)
  let tab (l : List Int) : List Byte := (List.range 33).flatMap fun i => intBytes 4 (l.getD i 0)
  if c < 4 ∧ f < 4 ∧ lo + 256 * hi < (if f.testBit 0 then 8 else 512) then
    some (intBytes 4 x.on ++ intBytes 4 x.hyst ++ tab x.xs ++ tab x.ys)
  else none

/-- Payload bytes 12 on of CFG_CHK (R645) and CFG_CAN (R575). -/
def chkCfg (s : State) (op k : Nat) : Option (List Byte) :=
  let u := s.chk.at k
  if op = 0 ∧ k < 8 then some (leBytes 4 0 ++ word8 u.cfg ++ [u.poly, u.init, u.xorout, u.exp, u.lo, u.hi].flatMap word4) else none

def canCfg (s : State) (op c f n : Nat) : Option (List Byte) :=
  let x := s.can.at c
  if 4 ≤ c then none
  else if op = 0 then (if f = 0 ∧ n = 0 then some (word4 x.ctrl ++ word8 x.bt) else none)
  else if op = 1 then
    if 1 ≤ n ∧ n ≤ 16 ∧ f + n ≤ 128 then
      some (leBytes 4 0 ++ (List.range n).flatMap fun i =>
        let y := x.objs.at (f + i)
        let q := y.next.getD (y.a, y.b)
        word8 q.1 ++ word8 q.2)
    else none
  else none

/-- Payload bytes 12 on of CFG_ADX (R605) and CFG_CRD (R632). -/
def adxCfg (s : State) (op k : Nat) : Option (List Byte) :=
  let z := leBytes 4 0
  let a := s.adx
  if op = 1 then (if k < 8 then some (word4 (a.mw.at k)) else none)
  else if k ≠ 0 then none
  else if op = 0 then some (z ++ word8 (a.ctrlNext.getD a.ctrl))
  else if op = 2 then some (z ++ word8 a.tcfg ++ word8 a.tlat ++ leBytes 8 a.epoch.toNat)
  else if op = 3 then some (z ++ leBytes 8 s.clk.sec.toNat ++ leBytes 4 s.clk.ns.toNat ++ List.replicate 8 0)
  else none

def crdCfg (s : State) (op : Nat) : Option (List Byte) :=
  let c := s.crd
  if op = 0 then some (leBytes 4 0 ++ word8 c.cfg)
  else if op = 1 then some (leBytes 4 0 ++ word8 c.par ++ word4 c.dmax ++ word4 (c.kg.at 0) ++ word4 (c.kg.at 1))
  else none

/-- Payload bytes 12 to 27 of CFG_LIMIT for the fields that WHAT selects (R475). -/
def limitCfg (s : State) (w m k : Nat) : Option (List Byte) :=
  let l := s.saf.icsLim
  let put (i v : Nat) : List Byte := leBytes 2 (if w.testBit i then v else 0)
  if w < 64 ∧ m ≤ (if w % 16 = 0 then 0 else 1) ∧ k ≤ (if w.testBit 5 then 7 else 0) then
    some (put 0 (l.smax.at m) ++ put 1 (l.slsl.at m) ++ put 2 (l.dtol.at m) ++ put 3 (l.ptol.at m) ++ put 4 l.tmtol
      ++ put 5 (l.bhi.at k) ++ put 5 (l.blo.at k) ++ [0, 0])
  else none

/-- The law instances of a context of the committed image. -/
def lawsOf (s : State) (c : Nat) : List LawInst :=
  ((s.thk.body.bind fun b => b.contexts.find? fun x => x.num == c).map CtxImg.laws).getD []

/-- The constants of a context's law instances (R86): each absent source reads as a free value of its own (log entry 21). -/
def lawConsts (s : State) (c : Nat) : List Byte :=
  ((lawsOf s c).zipIdx.flatMap fun p => lawWords p.1 fun i => Config.freeNat (s.free + 3 * p.2 + i)).flatMap (leBytes 4)
def lawConstsTaken (s : State) (c : Nat) : State := { s with free := s.free + 3 * (lawsOf s c).length }

/-- The result of QRY_CONFIG (R86); none where the table has no such WHAT or argument. -/
def configBytes (s : State) (what a b c d : Nat) : Option (List Byte) :=
  let only (l : Option (List Byte)) : Option (List Byte) := if c = 0 ∧ d = 0 then l else none
  let alone (l : Option (List Byte)) : Option (List Byte) := if b = 0 then only l else none
  match what with
  | 0x00 => alone (if a = 0 then some (driveCfgBytes s) else none)
  | 0x01 => alone (if a = 0 then some (imageBytes s) else none)
  | 0x02 => alone (if a < 160 then some (ctxRecBytes s a) else none)
  | 0x03 => alone (if a < 16 then some (word8 (s.thk.blocks.at a).map ++ word8 (s.thk.blocks.at a).lmap) else none)
  | 0x04 => alone (if a < 160 ∧ entriesOf (lawConsts s a).length ≤ lawEntries a then some (lawConsts s a) else none)
  | 0x20 => acqCfg s a b c d
  | 0x21 => only (dsmCfg s a b)
  | 0x22 => only (posCfg s a b)
  | 0x23 => only (pwmCfg s a b)
  | 0x24 => only (gdvCfg s a b)
  | 0x25 => only (prtCfg s a b)
  | 0x26 => curveCfg s a b c d
  | 0x27 => alone (if a = 0 then some (leBytes 4 s.thm.warn.toNat) else none)
  | 0x28 => only (chkCfg s a b)
  | 0x30 => canCfg s a b c d
  | 0x31 => only (adxCfg s a b)
  | 0x32 => alone (crdCfg s a)
  | 0x40 => if d = 0 then limitCfg s a b c else none
  | _ => none

/-- QRY_CONFIG (R86); in COPPICE only WHAT 0 and 1 answer, with zeros. -/
def execQryConfig (r : Req) (s : State) : Host.Outcome State Fault Refusal :=
  let what := fieldAt r 8 1
  .next (runJob 0x3003 r s
    (match configBytes s what (fieldAt r 9 1) (fieldAt r 10 1) (fieldAt r 11 1) (fieldAt r 12 1) with
     | none => .refuse stRange
     | some l =>
       guardSt (formOk r 5) stRange
         (if s.drv.st == .coppice then
            (if what ≤ 1 then .done s stOk (List.replicate l.length 0) else .refuse stBusy)
          else .done (if what = 4 then lawConstsTaken s (fieldAt r 9 1) else if what = 2 then freeTaken s else s) stOk l)))

/-! ### QRY_TELEMETRY -/

/-- Gate drivers (R410) and fast protection (R445). -/
def telGdv (s : State) : List Byte :=
  ((List.range 16).flatMap fun k => word4 (gdvStat s k)) ++ (List.range 16).flatMap fun k =>
    let g := s.gdv.at k
    leBytes 2 g.vsns ++ leBytes 2 g.ronVal ++ intBytes 2 g.tj ++ leBytes 2 (s.nv.wear.at k)

def telPrt (s : State) : List Byte := word4 (prtStat s) ++ leBytes 2 s.prt.dcsns ++ leBytes 4 (ext18 (regenLim s))

/-- Blackthorn's speed of a machine in rpm (R457, R482), whose rounding is open (log entry 5), as it is without a speed source. -/
def rpmOf (s : State) (m v : Nat) : Int :=
  if scpr s m = 0 then (BitVec.ofNat 32 v).toInt
  else freeRound (((s.saf.mach.at m).net : Rat) * 120000 / (scpr s m : Nat)) v

/-- Blackthorn (R482). -/
def telBlk (s : State) : List Byte :=
  word4 (blkStat s) ++ intBytes 4 (rpmOf s 0 (freeVal s)) ++ intBytes 4 (rpmOf s 1 (freeVal (freeTaken s)))
    ++ (List.range 2).flatMap fun m => leBytes 4 (ext18 (s.saf.mach.at m).tMon)

/-- An ACQ group's table, each run's entries as of the boundary that ended it (R272). -/
def telAcq (s : State) (g : Nat) : List Byte :=
  let x := s.acq.groups.at g
  word4 x.gstat ++ leBytes 4 0 ++ (List.range (gLast x.gcfg + 1) ++ [64, 65, 66, 67]).flatMap fun i =>
    word4 (x.shown.at i).1 ++ word4 (x.shown.at i).2

/-- Delta-sigma inputs (R287). -/
def telDsm (s : State) : List Byte :=
  s.acq.dsm.toList.map Dsm.status ++ leBytes 4 0 ++ s.acq.dsm.toList.flatMap fun d => word4 d.word0 ++ word4 d.word1

/-- The position block (R334). -/
def telPos (s : State) : List Byte := if posUpdates s then s.pos.view.getD (posBytes s) else posBytes s

/-- The PWM generator (R378). -/
def telPwm (s : State) : List Byte :=
  (s.pwm.units.toList.flatMap fun u => word4 u.stat) ++ (List.range 6).flatMap fun u =>
    leBytes 4 (activeP s u) ++ leBytes 4 (usedCmp s u)

/-- Thermal and supply (R554). -/
def telThm (s : State) : List Byte :=
  word4 s.thm.stat ++ word4 s.thm.broken ++ word4 (supStat s) ++ s.thm.reading.toList.flatMap (intBytes 2)

/-- Adexia and time (R607). -/
def telAdx (s : State) : List Byte :=
  word4 (adxStat s) ++ word4 (portStat s 0) ++ word4 (portStat s 1) ++ word4 (timStat s) ++ leBytes 8 s.clk.inc.toNat ++ word8 s.adx.gmId
    ++ s.adx.ports.toList.flatMap fun x => word4 x.accepted ++ word4 x.dup ++ word4 x.oow ++ word4 x.bad

/-- Coordination (R633); before any appointment is known the two nodes are open. -/
def telCrd (s : State) : List Byte :=
  let c := s.crd
  let q := (if isArbiter s then c.appointed else c.arb.map fun a => (a.coord, a.stby)).getD (freeVal s, freeVal (freeTaken s))
  word4 (crdStat s) ++ word4 c.epoch ++ leBytes 2 q.1 ++ leBytes 2 q.2 ++ leBytes 4 (ext18 c.u) ++ word4 c.d ++ word4 c.sp ++ word4 c.sn
    ++ leBytes 2 ((List.range 1024).filter fun i => c.incl.getLsbD i).length ++ [0, 0] ++ inclBytes c.incl

/-- Check units (R646): what the read returns of a unit, and all the units read. -/
def telChk (s : State) : List Byte :=
  s.chk.toList.flatMap fun u =>
    let v := if bit u.cfg 63 && u.close == 2 then u.closed else u
    word4 v.stat ++ word4 v.result ++ word4 v.items ++ leBytes 4 0
def readChks (s : State) : State :=
  (List.range 8).foldl (fun s k => putChk s k (s.chk.at k).read) s

/-- The 19 words of an object (R568). -/
def objBytes (x : CanObj) : List Byte :=
  match x.frame with
  | none => List.replicate 76 0
  | some f =>
    leBytes 4 (b2n x.new * 2 ^ 31 + b2n x.lost * 2 ^ 30 + f.tstamp.toNat) ++ leBytes 4 f.id.toNat
      ++ leBytes 4 (b2n f.ide * 128 + b2n f.fdf * 64 + b2n f.brs * 32 + b2n f.esi * 16 + f.dlc.val) ++ padTo 64 (canBytes f)

/-- Icsis reads an object (R569): it waits for the message-word path's lock, and its own ends with the last word. -/
def readObj (s : State) (c o : Nat) : List Byte × State :=
  let s := if ((s.can.at c).objs.at o).lock == some .msgWord then unlock s c o false else s
  (objBytes ((s.can.at c).objs.at o), unlock s c o true)

/-- Objects read one after the other. -/
def readObjs (s : State) (c first : Nat) : Nat → List Byte × State
  | 0 => ([], s)
  | n + 1 =>
    let q := readObjs s c first n
    let t := readObj q.2 c (first + n)
    (q.1 ++ t.1, t.2)

/-- A CAN controller (R577). -/
def telCan (s : State) (c first n : Nat) : List Byte × State :=
  let x := s.can.at c
  let q := readObjs s c first n
  (word4 x.stat ++ leBytes 4 0 ++ leBytes 16 (bitsOf (x.objs.toList.map CanObj.req)) ++ leBytes 16 (bitsOf (x.objs.toList.map CanObj.failed))
    ++ q.1, q.2)

/-- The result of QRY_TELEMETRY by SEL, and what the reading changes (R686). -/
def telemetry (s : State) (sel first n : Nat) : Option (List Byte × State) :=
  match sel with
  | 0x10 => some (telGdv s, s)
  | 0x20 => some (telPrt s, s)
  | 0x30 => some (telBlk s, freeTaken (freeTaken s))
  | 0x40 => some (word4 (lstat s) ++ word8 s.aon.mcap, s)
  | 0x60 => some (telAcq s 0, s)
  | 0x61 => some (telAcq s 1, s)
  | 0x62 => some (telAcq s 2, s)
  | 0x63 => some (telAcq s 3, s)
  | 0x64 => some (telDsm s, s)
  | 0x70 => some (telPos s, s)
  | 0x80 => some (telPwm s, s)
  | 0x90 => some (telThm s, s)
  | 0xA0 => some (telAdx s, s)
  | 0xA1 => some (telCrd s, freeTaken (freeTaken s))
  | 0xB0 => some (telCan s 0 first n)
  | 0xB1 => some (telCan s 1 first n)
  | 0xB2 => some (telCan s 2 first n)
  | 0xB3 => some (telCan s 3 first n)
  | 0xD0 => some (telChk s, readChks s)
  | _ => none

/-- QRY_TELEMETRY (R577, R686): LEN is 3 for a CAN controller and 1 otherwise. -/
def execQryTelemetry (r : Req) (s : State) : Host.Outcome State Fault Refusal :=
  let sel := fieldAt r 8 1
  let can := decide (0xB0 ≤ sel) && decide (sel ≤ 0xB3)
  let first := if can then fieldAt r 9 1 else 0
  let n := if can then fieldAt r 10 1 else 0
  .next (runJob 0x3004 r s
    (guardSt (formOk r (if can then 3 else 1) && decide (n ≤ 16) && decide (first + n ≤ 128)) stRange
      (match telemetry s sel first n with
       | some q => .done q.2 stOk q.1
       | none => .refuse stRange)))

end Sys2Proof.Machine
end

