-- ==== Sys2Proof/Machine/Dispatch.lean ====
section
/-! DEFINITION. The meaning of every command: one arm per constructor of `Instr`, in the table's order. -/

namespace Sys2Proof.Machine

def exec (i : Instr) (s : State) : Host.Outcome State Fault Refusal :=
  match i with
  | .hostWriteFrame instr addr words crc clocks => Sys2Proof.Machine.execHostWriteFrame instr addr words crc clocks s
  | .hostReadFrame instr addr clocks => Sys2Proof.Machine.execHostReadFrame instr addr clocks s
  | .directRegisterWrite addr w => Sys2Proof.Machine.execDirectRegisterWrite addr w s
  | .portRst => Sys2Proof.Machine.execPortRst s
  | .doorbellWrite q w => Sys2Proof.Machine.execDoorbellWrite q w s
  | .hpTimeNsRead => Sys2Proof.Machine.execHpTimeNsRead s
  | .descriptorTake => Sys2Proof.Machine.execDescriptorTake s
  | .irqTimeExpiry ring => Sys2Proof.Machine.execIrqTimeExpiry ring s
  | .faultLogCopy => Sys2Proof.Machine.execFaultLogCopy s
  | .hostSilenceTimeout => Sys2Proof.Machine.execHostSilenceTimeout s
  | .stateEventEvaluation => Sys2Proof.Machine.execStateEventEvaluation s
  | .cfgQueue r => Sys2Proof.Machine.execCfgQueue r s
  | .cfgEvents r => Sys2Proof.Machine.execCfgEvents r s
  | .cfgDrive r intact => Sys2Proof.Machine.execCfgDrive r intact s
  | .cfgImageBegin r => Sys2Proof.Machine.execCfgImageBegin r s
  | .cfgImageData r => Sys2Proof.Machine.execCfgImageData r s
  | .cfgImageFromFlash r => Sys2Proof.Machine.execCfgImageFromFlash r s
  | .cfgImageToFlash r => Sys2Proof.Machine.execCfgImageToFlash r s
  | .cfgCommit r b => Sys2Proof.Machine.execCfgCommit r b s
  | .cfgRelease r => Sys2Proof.Machine.execCfgRelease r s
  | .cfgContextCtrl r => Sys2Proof.Machine.execCfgContextCtrl r s
  | .cfgContextPeriod r => Sys2Proof.Machine.execCfgContextPeriod r s
  | .cfgContextParam r => Sys2Proof.Machine.execCfgContextParam r s
  | .cfgContextStatusClr r => Sys2Proof.Machine.execCfgContextStatusClr r s
  | .cfgAcqGroup r => Sys2Proof.Machine.execCfgAcqGroup r s
  | .cfgAcqSeq r => Sys2Proof.Machine.execCfgAcqSeq r s
  | .cfgAcqScale r => Sys2Proof.Machine.execCfgAcqScale r s
  | .cfgAcqCal r => Sys2Proof.Machine.execCfgAcqCal r s
  | .cfgAcqStatusClr r => Sys2Proof.Machine.execCfgAcqStatusClr r s
  | .cfgAcqSwtrig r => Sys2Proof.Machine.execCfgAcqSwtrig r s
  | .cfgDsmClocks r => Sys2Proof.Machine.execCfgDsmClocks r s
  | .cfgDsmInput r => Sys2Proof.Machine.execCfgDsmInput r s
  | .cfgDsmStatusClr r => Sys2Proof.Machine.execCfgDsmStatusClr r s
  | .cfgPosRsv r => Sys2Proof.Machine.execCfgPosRsv r s
  | .cfgPosEnc r => Sys2Proof.Machine.execCfgPosEnc r s
  | .cfgPosCmp r => Sys2Proof.Machine.execCfgPosCmp r s
  | .cfgPosHal r => Sys2Proof.Machine.execCfgPosHal r s
  | .cfgPosObs r => Sys2Proof.Machine.execCfgPosObs r s
  | .cfgPosPla r => Sys2Proof.Machine.execCfgPosPla r s
  | .cfgPosStatusClr r => Sys2Proof.Machine.execCfgPosStatusClr r s
  | .cfgPwmUnit r => Sys2Proof.Machine.execCfgPwmUnit r s
  | .cfgPwmAux r => Sys2Proof.Machine.execCfgPwmAux r s
  | .cfgPwmStatusClr r => Sys2Proof.Machine.execCfgPwmStatusClr r s
  | .pwmUnitRestart u => Sys2Proof.Machine.execPwmUnitRestart u s
  | .cfgGdvChannel r => Sys2Proof.Machine.execCfgGdvChannel r s
  | .cfgGdvInd r => Sys2Proof.Machine.execCfgGdvInd r s
  | .cfgGdvTable r => Sys2Proof.Machine.execCfgGdvTable r s
  | .cfgGdvTcool r => Sys2Proof.Machine.execCfgGdvTcool r s
  | .cfgGdvStatusClr r => Sys2Proof.Machine.execCfgGdvStatusClr r s
  | .cfgPrtCtl r intact => Sys2Proof.Machine.execCfgPrtCtl r intact s
  | .cfgPrtDcl r => Sys2Proof.Machine.execCfgPrtDcl r s
  | .cfgPrtChop r => Sys2Proof.Machine.execCfgPrtChop r s
  | .cfgPrtTrip r => Sys2Proof.Machine.execCfgPrtTrip r s
  | .cfgPrtCbc r => Sys2Proof.Machine.execCfgPrtCbc r s
  | .cfgPrtStatusClr r => Sys2Proof.Machine.execCfgPrtStatusClr r s
  | .cfgCurve r => Sys2Proof.Machine.execCfgCurve r s
  | .cfgThmWarn r => Sys2Proof.Machine.execCfgThmWarn r s
  | .cfgThmStatusClr r => Sys2Proof.Machine.execCfgThmStatusClr r s
  | .cfgChkUnit r => Sys2Proof.Machine.execCfgChkUnit r s
  | .cfgChkStatusClr r => Sys2Proof.Machine.execCfgChkStatusClr r s
  | .cfgCanCtrl r => Sys2Proof.Machine.execCfgCanCtrl r s
  | .cfgCanMobj r => Sys2Proof.Machine.execCfgCanMobj r s
  | .cfgCanTxdata r => Sys2Proof.Machine.execCfgCanTxdata r s
  | .cfgCanRecover r => Sys2Proof.Machine.execCfgCanRecover r s
  | .cfgCanStatusClr r => Sys2Proof.Machine.execCfgCanStatusClr r s
  | .cfgAdxCtrl r => Sys2Proof.Machine.execCfgAdxCtrl r s
  | .cfgAdxMw r => Sys2Proof.Machine.execCfgAdxMw r s
  | .cfgAdxTimeCfg r => Sys2Proof.Machine.execCfgAdxTimeCfg r s
  | .cfgAdxTimeSet r => Sys2Proof.Machine.execCfgAdxTimeSet r s
  | .cfgAdxTimeAdj r => Sys2Proof.Machine.execCfgAdxTimeAdj r s
  | .cfgAdxStatusClr r => Sys2Proof.Machine.execCfgAdxStatusClr r s
  | .cfgCrdCfg r => Sys2Proof.Machine.execCfgCrdCfg r s
  | .cfgCrdPar r => Sys2Proof.Machine.execCfgCrdPar r s
  | .cfgCrdStatusClr r => Sys2Proof.Machine.execCfgCrdStatusClr r s
  | .cfgLimit r intact => Sys2Proof.Machine.execCfgLimit r intact s
  | .ctlArm r => Sys2Proof.Machine.execCtlArm r s
  | .ctlDisarm r => Sys2Proof.Machine.execCtlDisarm r s
  | .ctlRun r => Sys2Proof.Machine.execCtlRun r s
  | .ctlStop r => Sys2Proof.Machine.execCtlStop r s
  | .ctlMode r => Sys2Proof.Machine.execCtlMode r s
  | .ctlSetpoint r => Sys2Proof.Machine.execCtlSetpoint r s
  | .ctlForceRelease r => Sys2Proof.Machine.execCtlForceRelease r s
  | .ctlForceBothOff r => Sys2Proof.Machine.execCtlForceBothOff r s
  | .ctlForceLowerOn r => Sys2Proof.Machine.execCtlForceLowerOn r s
  | .ctlForceUpperOn r => Sys2Proof.Machine.execCtlForceUpperOn r s
  | .ctlForceShadowWrite r => Sys2Proof.Machine.execCtlForceShadowWrite r s
  | .ctlDischarge r => Sys2Proof.Machine.execCtlDischarge r s
  | .ctlSplit r => Sys2Proof.Machine.execCtlSplit r s
  | .ctlJoin r injOk => Sys2Proof.Machine.execCtlJoin r injOk s
  | .joinStopTimeout => Sys2Proof.Machine.execJoinStopTimeout s
  | .qryState r => Sys2Proof.Machine.execQryState r s
  | .qryStatus r => Sys2Proof.Machine.execQryStatus r s
  | .qryConfig r => Sys2Proof.Machine.execQryConfig r s
  | .qryTelemetry r => Sys2Proof.Machine.execQryTelemetry r s
  | .qryCapacity r => Sys2Proof.Machine.execQryCapacity r s
  | .qryCmdCost r => Sys2Proof.Machine.execQryCmdCost r s
  | .qryFaultLog r => Sys2Proof.Machine.execQryFaultLog r s
  | .qryAttestReport r => Sys2Proof.Machine.execQryAttestReport r s
  | .qryAttestEndorse r => Sys2Proof.Machine.execQryAttestEndorse r s
  | .safStop r => Sys2Proof.Machine.execSafStop r s
  | .safRelease r => Sys2Proof.Machine.execSafRelease r s
  | .blackthornReleaseTimeout r => Sys2Proof.Machine.execBlackthornReleaseTimeout r s
  | .safAck r chPass cmpPass => Sys2Proof.Machine.execSafAck r chPass cmpPass s
  | .safTest r chPass cmpPass => Sys2Proof.Machine.execSafTest r chPass cmpPass s
  | .mntFwWriteErase r => Sys2Proof.Machine.execMntFwWriteErase r s
  | .mntFwWriteData r => Sys2Proof.Machine.execMntFwWriteData r s
  | .mntFwVerify r => Sys2Proof.Machine.execMntFwVerify r s
  | .mntFwActivate r => Sys2Proof.Machine.execMntFwActivate r s
  | .mntFuseIdent r readBackOk => Sys2Proof.Machine.execMntFuseIdent r readBackOk s
  | .mntFuseKey r readBackOk => Sys2Proof.Machine.execMntFuseKey r readBackOk s
  | .mntFuseRevoke r readBackOk => Sys2Proof.Machine.execMntFuseRevoke r readBackOk s
  | .mntFusePolicy r readBackOk => Sys2Proof.Machine.execMntFusePolicy r readBackOk s
  | .mntFuseSafety r readBackOk => Sys2Proof.Machine.execMntFuseSafety r readBackOk s
  | .mntFuseRollback r readBackOk => Sys2Proof.Machine.execMntFuseRollback r readBackOk s
  | .mntLogClearRecords r => Sys2Proof.Machine.execMntLogClearRecords r s
  | .mntLogClearStartFailures r => Sys2Proof.Machine.execMntLogClearStartFailures r s
  | .mntLogClearWear r => Sys2Proof.Machine.execMntLogClearWear r s
  | .mntLogClearAgeing r => Sys2Proof.Machine.execMntLogClearAgeing r s
  | .mntReset r => Sys2Proof.Machine.execMntReset r s
  | .diaSelftestQuery r => Sys2Proof.Machine.execDiaSelftestQuery r s
  | .diaSelftestRun r outcome chPass cmpPass => Sys2Proof.Machine.execDiaSelftestRun r outcome chPass cmpPass s
  | .diaSelftestStatusClr r => Sys2Proof.Machine.execDiaSelftestStatusClr r s
  | .diaTraceArm r => Sys2Proof.Machine.execDiaTraceArm r s
  | .diaTraceStop r => Sys2Proof.Machine.execDiaTraceStop r s
  | .diaTraceRead r => Sys2Proof.Machine.execDiaTraceRead r s
  | .diaTraceStatus r => Sys2Proof.Machine.execDiaTraceStatus r s
  | .diaInject r reactNs => Sys2Proof.Machine.execDiaInject r reactNs s
  | .diaAgeingQuery r => Sys2Proof.Machine.execDiaAgeingQuery r s
  | .diaAgeingReplan r => Sys2Proof.Machine.execDiaAgeingReplan r s
  | .diaAgeingHistory r => Sys2Proof.Machine.execDiaAgeingHistory r s
  | .diaAgeingStatusClr r => Sys2Proof.Machine.execDiaAgeingStatusClr r s
  | .resetRelease => Sys2Proof.Machine.execResetRelease s
  | .nodeIdDelayExpiry => Sys2Proof.Machine.execNodeIdDelayExpiry s
  | .startSequencerStep railsOk => Sys2Proof.Machine.execStartSequencerStep railsOk s
  | .pllLockDeadline locked => Sys2Proof.Machine.execPllLockDeadline locked s
  | .bootRomStart f => Sys2Proof.Machine.execBootRomStart f s
  | .standbyEntry => Sys2Proof.Machine.execStandbyEntry s
  | .startTimeout => Sys2Proof.Machine.execStartTimeout s
  | .resetInput lowNs => Sys2Proof.Machine.execResetInput lowNs s
  | .supplyLoss aonToo => Sys2Proof.Machine.execSupplyLoss aonToo s
  | .stopRampComplete => Sys2Proof.Machine.execStopRampComplete s
  | .stopOverdue => Sys2Proof.Machine.execStopOverdue s
  | .opNop c w => Sys2Proof.Machine.execOpNop c w s
  | .opWait c w => Sys2Proof.Machine.execOpWait c w s
  | .opEnd c w => Sys2Proof.Machine.execOpEnd c w s
  | .opLdacc c w => Sys2Proof.Machine.execOpLdacc c w s
  | .opMul c w => Sys2Proof.Machine.execOpMul c w s
  | .opMac c w => Sys2Proof.Machine.execOpMac c w s
  | .opMsu c w => Sys2Proof.Machine.execOpMsu c w s
  | .opRnd c w => Sys2Proof.Machine.execOpRnd c w s
  | .opAdd c w => Sys2Proof.Machine.execOpAdd c w s
  | .opSub c w => Sys2Proof.Machine.execOpSub c w s
  | .opNeg c w => Sys2Proof.Machine.execOpNeg c w s
  | .opAbs c w => Sys2Proof.Machine.execOpAbs c w s
  | .opMin c w => Sys2Proof.Machine.execOpMin c w s
  | .opMax c w => Sys2Proof.Machine.execOpMax c w s
  | .opLim c w => Sys2Proof.Machine.execOpLim c w s
  | .opShl c w => Sys2Proof.Machine.execOpShl c w s
  | .opShr c w => Sys2Proof.Machine.execOpShr c w s
  | .opCmplt c w => Sys2Proof.Machine.execOpCmplt c w s
  | .opCmpge c w => Sys2Proof.Machine.execOpCmpge c w s
  | .opCmpeq c w => Sys2Proof.Machine.execOpCmpeq c w s
  | .opSel c w => Sys2Proof.Machine.execOpSel c w s
  | .opAnd c w => Sys2Proof.Machine.execOpAnd c w s
  | .opOr c w => Sys2Proof.Machine.execOpOr c w s
  | .opXor c w => Sys2Proof.Machine.execOpXor c w s
  | .opSincos c w => Sys2Proof.Machine.execOpSincos c w s
  | .opAtan2 c w => Sys2Proof.Machine.execOpAtan2 c w s
  | .opDiv c w => Sys2Proof.Machine.execOpDiv c w s
  | .opSqrt c w => Sys2Proof.Machine.execOpSqrt c w s
  | .opLut c w => Sys2Proof.Machine.execOpLut c w s
  | .opLdc c w => Sys2Proof.Machine.execOpLdc c w s
  | .opLd c w => Sys2Proof.Machine.execOpLd c w s
  | .opSt c w => Sys2Proof.Machine.execOpSt c w s
  | .opPut c w => Sys2Proof.Machine.execOpPut c w s
  | .opGet c w => Sys2Proof.Machine.execOpGet c w s
  | .opWcmp c w => Sys2Proof.Machine.execOpWcmp c w s
  | .opLdall c w => Sys2Proof.Machine.execOpLdall c w s
  | .opFlag c w => Sys2Proof.Machine.execOpFlag c w s
  | .contextRelease c late => Sys2Proof.Machine.execContextRelease c late s
  | .preemption by_ at_ => Sys2Proof.Machine.execPreemption by_ at_ s
  | .contextCompletion c => Sys2Proof.Machine.execContextCompletion c s
  | .watchdogDeadline c => Sys2Proof.Machine.execWatchdogDeadline c s
  | .cellParityError b cell second => Sys2Proof.Machine.execCellParityError b cell second s
  | .coefEccError b a double readers => Sys2Proof.Machine.execCoefEccError b a double readers s
  | .opmemEccError b a double readers => Sys2Proof.Machine.execOpmemEccError b a double readers s
  | .regionMemoryEccError g a double readers => Sys2Proof.Machine.execRegionMemoryEccError g a double readers s
  | .cellSwitch b k => Sys2Proof.Machine.execCellSwitch b k s
  | .cellSwitchAbandon b k => Sys2Proof.Machine.execCellSwitchAbandon b k s
  | .catchDetectEnd m ns => Sys2Proof.Machine.execCatchDetectEnd m ns s
  | .alignEnd m => Sys2Proof.Machine.execAlignEnd m s
  | .sequenceTrigger g => Sys2Proof.Machine.execSequenceTrigger g s
  | .injectedTrigger g j => Sys2Proof.Machine.execInjectedTrigger g j s
  | .runHold g => Sys2Proof.Machine.execRunHold g s
  | .conversionComplete g inj idx code ovr => Sys2Proof.Machine.execConversionComplete g inj idx code ovr s
  | .calibrationStart g => Sys2Proof.Machine.execCalibrationStart g s
  | .calibrationComplete g inBand => Sys2Proof.Machine.execCalibrationComplete g inBand s
  | .dsmResult inp sum => Sys2Proof.Machine.execDsmResult inp sum s
  | .dsmDelivery inp => Sys2Proof.Machine.execDsmDelivery inp s
  | .dsmFastTrip inp outs => Sys2Proof.Machine.execDsmFastTrip inp outs s
  | .dsmStuck inp => Sys2Proof.Machine.execDsmStuck inp s
  | .resolverSample u sn c negPeak => Sys2Proof.Machine.execResolverSample u sn c negPeak s
  | .encoderCountStep e up both => Sys2Proof.Machine.execEncoderCountStep e up both s
  | .indexEdge e falling aLevel bLevel => Sys2Proof.Machine.execIndexEdge e falling aLevel bLevel s
  | .encLine e => Sys2Proof.Machine.execEncLine e s
  | .hallChange h lines => Sys2Proof.Machine.execHallChange h lines s
  | .observerUpdate o => Sys2Proof.Machine.execObserverUpdate o s
  | .observerLatch o dtNs => Sys2Proof.Machine.execObserverLatch o dtNs s
  | .plausibilityCheck p => Sys2Proof.Machine.execPlausibilityCheck p s
  | .pwmReload u peak => Sys2Proof.Machine.execPwmReload u peak s
  | .sampleTrigger u peak => Sys2Proof.Machine.execSampleTrigger u peak s
  | .auxEvent m => Sys2Proof.Machine.execAuxEvent m s
  | .overlapLockout u => Sys2Proof.Machine.execOverlapLockout u s
  | .cbcCutoff u line ofs => Sys2Proof.Machine.execCbcCutoff u line ofs s
  | .debugHalt => Sys2Proof.Machine.execDebugHalt s
  | .debugResume => Sys2Proof.Machine.execDebugResume s
  | .debugRequest rights slot challenge sig => Sys2Proof.Machine.execDebugRequest rights slot challenge sig s
  | .scanEntry => Sys2Proof.Machine.execScanEntry s
  | .driverLockout ch negRail => Sys2Proof.Machine.execDriverLockout ch negRail s
  | .lockoutRelease ch => Sys2Proof.Machine.execLockoutRelease ch s
  | .earlyWarning ch => Sys2Proof.Machine.execEarlyWarning ch s
  | .desaturation ch => Sys2Proof.Machine.execDesaturation ch s
  | .softTurnoffEnd ch => Sys2Proof.Machine.execSoftTurnoffEnd ch s
  | .crosscheckRefusal ch => Sys2Proof.Machine.execCrosscheckRefusal ch s
  | .driverLinkSilence ch => Sys2Proof.Machine.execDriverLinkSilence ch s
  | .gdvLink ch => Sys2Proof.Machine.execGdvLink ch s
  | .onStateSample ch vsns => Sys2Proof.Machine.execOnStateSample ch vsns s
  | .indicatorUpdate ch => Sys2Proof.Machine.execIndicatorUpdate ch s
  | .overvoltageTrip volts => Sys2Proof.Machine.execOvervoltageTrip volts s
  | .undervoltageTrip volts => Sys2Proof.Machine.execUndervoltageTrip volts s
  | .legRejoin leg => Sys2Proof.Machine.execLegRejoin leg s
  | .chopperSwitching volts => Sys2Proof.Machine.execChopperSwitching volts s
  | .chopperFault cause => Sys2Proof.Machine.execChopperFault cause s
  | .dischargeSwitchOn => Sys2Proof.Machine.execDischargeSwitchOn s
  | .dischargeDone volts => Sys2Proof.Machine.execDischargeDone volts s
  | .dischargeTimeout => Sys2Proof.Machine.execDischargeTimeout s
  | .dischargeNotFalling => Sys2Proof.Machine.execDischargeNotFalling s
  | .safetyInputChange p chanB demand => Sys2Proof.Machine.execSafetyInputChange p chanB demand s
  | .discrepancyTimeout p => Sys2Proof.Machine.execDiscrepancyTimeout p s
  | .speedCounterSample m net count => Sys2Proof.Machine.execSpeedCounterSample m net count s
  | .speedSourceIllegal m => Sys2Proof.Machine.execSpeedSourceIllegal m s
  | .speedCrossCheck m => Sys2Proof.Machine.execSpeedCrossCheck m s
  | .smaxSoftwareCheck m => Sys2Proof.Machine.execSmaxSoftwareCheck m s
  | .blackthornComparatorTrip n level => Sys2Proof.Machine.execBlackthornComparatorTrip n level s
  | .latchSelfClear m cause => Sys2Proof.Machine.execLatchSelfClear m cause s
  | .torqueMonitorCheck m tMon => Sys2Proof.Machine.execTorqueMonitorCheck m tMon s
  | .monitorStopTimeout => Sys2Proof.Machine.execMonitorStopTimeout s
  | .qaQuestion q => Sys2Proof.Machine.execQaQuestion q s
  | .qaAnswer words cycles => Sys2Proof.Machine.execQaAnswer words cycles s
  | .qaWindowExpiry => Sys2Proof.Machine.execQaWindowExpiry s
  | .sackPulse ms => Sys2Proof.Machine.execSackPulse ms s
  | .referenceClockWindow edges => Sys2Proof.Machine.execReferenceClockWindow edges s
  | .lockstepMismatch kind group offset => Sys2Proof.Machine.execLockstepMismatch kind group offset s
  | .checkpointRestart => Sys2Proof.Machine.execCheckpointRestart s
  | .checkpointSeal => Sys2Proof.Machine.execCheckpointSeal s
  | .core1PartitionViolation a => Sys2Proof.Machine.execCore1PartitionViolation a s
  | .prunerSliceStart kind unit => Sys2Proof.Machine.execPrunerSliceStart kind unit s
  | .prunerSliceAbort kind unit => Sys2Proof.Machine.execPrunerSliceAbort kind unit s
  | .prunerSliceComplete kind unit pass => Sys2Proof.Machine.execPrunerSliceComplete kind unit pass s
  | .prnOverdue kind unit => Sys2Proof.Machine.execPrnOverdue kind unit s
  | .sensorWindow n count reading => Sys2Proof.Machine.execSensorWindow n count reading s
  | .thermalLineRelease => Sys2Proof.Machine.execThermalLineRelease s
  | .throttleEvaluation => Sys2Proof.Machine.execThrottleEvaluation s
  | .railOutOfWindow rail outside => Sys2Proof.Machine.execRailOutOfWindow rail outside s
  | .droopDetect half => Sys2Proof.Machine.execDroopDetect half s
  | .droopEnd => Sys2Proof.Machine.execDroopEnd s
  | .droopBudgetExhausted => Sys2Proof.Machine.execDroopBudgetExhausted s
  | .pllLockLoss => Sys2Proof.Machine.execPllLockLoss s
  | .referenceCountWindow edges => Sys2Proof.Machine.execReferenceCountWindow edges s
  | .canaryMeasurement site taps => Sys2Proof.Machine.execCanaryMeasurement site taps s
  | .dailyReplan => Sys2Proof.Machine.execDailyReplan s
  | .operatingHoursSave => Sys2Proof.Machine.execOperatingHoursSave s
  | .canFrameReceived c f => Sys2Proof.Machine.execCanFrameReceived c f s
  | .canLockRelease c o by_ => Sys2Proof.Machine.execCanLockRelease c o by_ s
  | .canLockTimeout c o => Sys2Proof.Machine.execCanLockTimeout c o s
  | .canTxAttemptEnd c o how => Sys2Proof.Machine.execCanTxAttemptEnd c o how s
  | .canPeriodRequest c o => Sys2Proof.Machine.execCanPeriodRequest c o s
  | .canErrorDetected c e bitErr => Sys2Proof.Machine.execCanErrorDetected c e bitErr s
  | .canBusoffRecovery c => Sys2Proof.Machine.execCanBusoffRecovery c s
  | .canMessageWordTimeout c o => Sys2Proof.Machine.execCanMessageWordTimeout c o s
  | .canCompletionSend c => Sys2Proof.Machine.execCanCompletionSend c s
  | .canCompletionRetry c => Sys2Proof.Machine.execCanCompletionRetry c s
  | .adexiaFrameReceived p f => Sys2Proof.Machine.execAdexiaFrameReceived p f s
  | .missingDuplicateTimeout p => Sys2Proof.Machine.execMissingDuplicateTimeout p s
  | .adexiaMsgTimeout k => Sys2Proof.Machine.execAdexiaMsgTimeout k s
  | .cplFrameSend => Sys2Proof.Machine.execCplFrameSend s
  | .supervisionSend => Sys2Proof.Machine.execSupervisionSend s
  | .portLinkChange p up => Sys2Proof.Machine.execPortLinkChange p up s
  | .ptpSyncMeasurement p m timInc gm => Sys2Proof.Machine.execPtpSyncMeasurement p m timInc gm s
  | .syncTimeout otherAlive => Sys2Proof.Machine.execSyncTimeout otherAlive s
  | .oneShotOffsetApply => Sys2Proof.Machine.execOneShotOffsetApply s
  | .allocCycleInstant => Sys2Proof.Machine.execAllocCycleInstant s
  | .allocLatch => Sys2Proof.Machine.execAllocLatch s
  | .stateCopySend => Sys2Proof.Machine.execStateCopySend s
  | .stateCopyReceived copy => Sys2Proof.Machine.execStateCopyReceived copy s
  | .pairLinkTimeout => Sys2Proof.Machine.execPairLinkTimeout s
  | .arbiterStartupAppoint => Sys2Proof.Machine.execArbiterStartupAppoint s
  | .carrierValley u err => Sys2Proof.Machine.execCarrierValley u err s
  | .linkActivityResumed ch => Sys2Proof.Machine.execLinkActivityResumed ch s
  | .encLineClear e => Sys2Proof.Machine.execEncLineClear e s
  | .earlyWarningClear ch => Sys2Proof.Machine.execEarlyWarningClear ch s
  | .protocolException c => Sys2Proof.Machine.execProtocolException c s
  | .ptpSyncInterval p => Sys2Proof.Machine.execPtpSyncInterval p s

end Sys2Proof.Machine
end

