-- ==== Sys2Proof/Safety.lean ====
section
/-! DEFINITION. What counts as a safe step and a safe run, and the conditions on a state in which claims are stated. -/

namespace Sys2Proof.Machine

/-- A step is safe when it answers a next state. -/
def safeStep (s : State) : Prop := ∃ t, step s = .next t

/-- `k` steps of the block from `s`, each answering a next state, end in `t`. -/
inductive Reaches : Nat → State → State → Prop where
  | done (s : State) : Reaches 0 s s
  | more {k : Nat} {s t u : State} : step s = .next t → Reaches k t u → Reaches (k + 1) s u

/-- The job of `r` with opcode `op` is applied in `s`: Icsis serves, R78 marks the opcode legal in the present state (R69, R77), and
no job with an earlier deadline has work left (R66). -/
abbrev applies (op : Nat) (r : Req) (s : State) : Prop := serving s = true ∧ legal s.drv.st op = true ∧ myTurn s op r = true

/-- From `s` to `t` nothing of the generator has changed but the notes of past levels that dead time needs (R353). -/
def unitsNoted (s t : State) : Prop :=
  t.pwm = { s.pwm with units := t.pwm.units } ∧
    ∀ u < 6, let y := t.pwm.units.at u
      y = { s.pwm.units.at u with upAt := y.upAt, lowAt := y.lowAt, upOff := y.upOff, lowOff := y.lowOff, mark := y.mark }

/-- No state event waits and no condition for one persists, so that a command that changes the state takes effect (R96). -/
abbrev noEvent (s : State) : Prop := winner s.drv.st (s.drv.events ++ persistent s) = none

/-- From `s` the module has entered state `m`, with PREV_STATE, CAUSE and T_STATE, and no state event waits (R107). -/
def entered (s t : State) (m : Mode) (cause : W16) : Prop :=
  t.drv.st = m ∧ t.drv.prev = s.drv.st ∧ t.drv.cause = cause ∧ t.drv.tState = now s ∧ t.drv.events = []

/-- The state that a job which is applied in `s` leaves (R69): completed with ST_RANGE where `good` fails, with the status `st` where
`may` fails, both with nothing else changed; else `s'`, completed with ST_OK. -/
def jobEnd (op : Nat) (r : Req) (s : State) (good may : Bool) (st : W16) (s' : State) : State :=
  if good = false then complete s op r stRange [] else if may = false then complete s op r st [] else complete s' op r stOk []

/-- Every memory of the block has its canonical form: addresses strictly rising, no entry equal to what an unlisted address reads as. -/
def memoriesWf (s : State) : Prop :=
  Memory.wf s.io.qsram ∧
    (∀ g < 4, Memory.wf (s.thk.rmem.at g) ∧ Memory.wf (s.thk.rmemB.at g) ∧ Memory.wf (s.thk.sigOwner.at g)) ∧
    ∀ b < 16, Memory.wf (s.thk.blocks.at b).op ∧ Memory.wf (s.thk.blocks.at b).coef

/-- The pairs of states between which a row of R95 leads, and BOOT to FAULT, where the pair may degrade (R494). Every state goes to OFF by the reset input or the loss of the supply. -/
def mayMove (m n : Mode) : Bool :=
  n == .off || [(Mode.off, Mode.boot), (.boot, .standby), (.boot, .coppice), (.boot, .fault), (.standby, .configured), (.configured, .standby),
    (.configured, .armed), (.armed, .configured), (.armed, .running), (.running, .armed), (.running, .configured),
    (.standby, .safeStop), (.configured, .safeStop), (.armed, .safeStop), (.running, .safeStop), (.standby, .fault),
    (.configured, .fault), (.armed, .fault), (.running, .fault), (.safeStop, .fault), (.safeStop, .configured),
    (.safeStop, .standby), (.fault, .safeStop)].contains (m, n)

/-- A slot with operation `op` runs for the logical cell that `c` names, on physical cell `p` of block `b`, which stands at `x`
(R118, R122, R128). -/
def slotOn (op : Nat) (c : CellSel) (w : W64) (s : State) (b p : Nat) (x : Cell) : Prop :=
  (∃ a, slotRuns op c w s = some (b, p, a)) ∧ (s.thk.blocks.at b).cells.at p = x

/-- The state that a slot with the word `w` leaves which gives its cell a new content, and whether it has saturated (R117). -/
def slotGives (c : CellSel) (w : W64) (s : State) (b p : Nat) (y : Cell × Bool) : State := slotDone (updCell s b p fun _ => y.1) c w y.2

/-- The operations of a slot with an operand B and no free value, with their operation codes (R118, R119). -/
def secondOperand (c : CellSel) (w : W64) : List (Instr × Nat) :=
  [(.opMul c w, 0x05), (.opMac c w, 0x06), (.opMsu c w, 0x07), (.opAdd c w, 0x0A), (.opSub c w, 0x0B), (.opMin c w, 0x0E), (.opMax c w, 0x0F),
   (.opLim c w, 0x10), (.opCmplt c w, 0x14), (.opCmpge c w, 0x15), (.opCmpeq c w, 0x16), (.opSel c w, 0x17), (.opAnd c w, 0x18),
   (.opOr c w, 0x19), (.opXor c w, 0x1A), (.opDiv c w, 0x1E)]

/-- A write frame is well formed: the instruction, 1 to 64 words, an aligned address whose range stays on one side of 0x10_0000 and
below 2^24, the CRC that CRC_EN asks for, and the clock count of R689 (R42, R44). -/
def writeFormed (instr : Byte) (addr : BitVec 24) (ws : List W32) (crc : Option W16) (clocks : Nat) (s : State) : Prop :=
  instr = 0x38 ∧ 1 ≤ ws.length ∧ ws.length ≤ 64 ∧ addr.toNat % 4 = 0 ∧
    (0x100000 ≤ addr.toNat ∨ addr.toNat + 4 * ws.length ≤ 0x100000) ∧ addr.toNat + 4 * ws.length ≤ 0x1000000 ∧
    crc.isSome = bit s.io.hpCtrl 1 ∧ clocks = 8 + 8 * ws.length + (if bit s.io.hpCtrl 1 then 4 else 0)

/-- The opcode of a command that applies a job (R78, R685), and its descriptor. -/
def jobOpcode (c : Instr) : Option (Nat × Req) :=
  match c with
  | .cfgQueue r => some (0x1001, r)
  | .cfgEvents r => some (0x1002, r)
  | .cfgDrive r _ => some (0x1010, r)
  | .cfgImageBegin r => some (0x1011, r)
  | .cfgImageData r => some (0x1011, r)
  | .cfgImageFromFlash r => some (0x1011, r)
  | .cfgImageToFlash r => some (0x1011, r)
  | .cfgCommit r _ => some (0x1050, r)
  | .cfgRelease r => some (0x1051, r)
  | .cfgContextCtrl r => some (0x1012, r)
  | .cfgContextPeriod r => some (0x1012, r)
  | .cfgContextParam r => some (0x1012, r)
  | .cfgContextStatusClr r => some (0x1012, r)
  | .cfgAcqGroup r => some (0x1020, r)
  | .cfgAcqSeq r => some (0x1020, r)
  | .cfgAcqScale r => some (0x1020, r)
  | .cfgAcqCal r => some (0x1020, r)
  | .cfgAcqStatusClr r => some (0x1020, r)
  | .cfgAcqSwtrig r => some (0x1020, r)
  | .cfgDsmClocks r => some (0x1021, r)
  | .cfgDsmInput r => some (0x1021, r)
  | .cfgDsmStatusClr r => some (0x1021, r)
  | .cfgPosRsv r => some (0x1022, r)
  | .cfgPosEnc r => some (0x1022, r)
  | .cfgPosCmp r => some (0x1022, r)
  | .cfgPosHal r => some (0x1022, r)
  | .cfgPosObs r => some (0x1022, r)
  | .cfgPosPla r => some (0x1022, r)
  | .cfgPosStatusClr r => some (0x1022, r)
  | .cfgPwmUnit r => some (0x1023, r)
  | .cfgPwmAux r => some (0x1023, r)
  | .cfgPwmStatusClr r => some (0x1023, r)
  | .cfgGdvChannel r => some (0x1024, r)
  | .cfgGdvInd r => some (0x1024, r)
  | .cfgGdvTable r => some (0x1024, r)
  | .cfgGdvTcool r => some (0x1024, r)
  | .cfgGdvStatusClr r => some (0x1024, r)
  | .cfgPrtCtl r _ => some (0x1025, r)
  | .cfgPrtDcl r => some (0x1025, r)
  | .cfgPrtChop r => some (0x1025, r)
  | .cfgPrtTrip r => some (0x1025, r)
  | .cfgPrtCbc r => some (0x1025, r)
  | .cfgPrtStatusClr r => some (0x1025, r)
  | .cfgCurve r => some (0x1026, r)
  | .cfgThmWarn r => some (0x1027, r)
  | .cfgThmStatusClr r => some (0x1027, r)
  | .cfgChkUnit r => some (0x1028, r)
  | .cfgChkStatusClr r => some (0x1028, r)
  | .cfgCanCtrl r => some (0x1030, r)
  | .cfgCanMobj r => some (0x1030, r)
  | .cfgCanTxdata r => some (0x1030, r)
  | .cfgCanRecover r => some (0x1030, r)
  | .cfgCanStatusClr r => some (0x1030, r)
  | .cfgAdxCtrl r => some (0x1031, r)
  | .cfgAdxMw r => some (0x1031, r)
  | .cfgAdxTimeCfg r => some (0x1031, r)
  | .cfgAdxTimeSet r => some (0x1031, r)
  | .cfgAdxTimeAdj r => some (0x1031, r)
  | .cfgAdxStatusClr r => some (0x1031, r)
  | .cfgCrdCfg r => some (0x1032, r)
  | .cfgCrdPar r => some (0x1032, r)
  | .cfgCrdStatusClr r => some (0x1032, r)
  | .cfgLimit r _ => some (0x1040, r)
  | .ctlArm r => some (0x2001, r)
  | .ctlDisarm r => some (0x2002, r)
  | .ctlRun r => some (0x2003, r)
  | .ctlStop r => some (0x2004, r)
  | .ctlMode r => some (0x2010, r)
  | .ctlSetpoint r => some (0x2011, r)
  | .ctlForceRelease r => some (0x2020, r)
  | .ctlForceBothOff r => some (0x2020, r)
  | .ctlForceLowerOn r => some (0x2020, r)
  | .ctlForceUpperOn r => some (0x2020, r)
  | .ctlForceShadowWrite r => some (0x2020, r)
  | .ctlDischarge r => some (0x2021, r)
  | .ctlSplit r => some (0x2030, r)
  | .ctlJoin r _ => some (0x2031, r)
  | .qryState r => some (0x3001, r)
  | .qryStatus r => some (0x3002, r)
  | .qryConfig r => some (0x3003, r)
  | .qryTelemetry r => some (0x3004, r)
  | .qryCapacity r => some (0x3005, r)
  | .qryCmdCost r => some (0x3006, r)
  | .qryFaultLog r => some (0x3007, r)
  | .qryAttestReport r => some (0x3008, r)
  | .qryAttestEndorse r => some (0x3008, r)
  | .safStop r => some (0x4001, r)
  | .safRelease r => some (0x4002, r)
  | .safAck r _ _ => some (0x4003, r)
  | .safTest r _ _ => some (0x4004, r)
  | .mntFwWriteErase r => some (0x5001, r)
  | .mntFwWriteData r => some (0x5001, r)
  | .mntFwVerify r => some (0x5002, r)
  | .mntFwActivate r => some (0x5003, r)
  | .mntFuseIdent r _ => some (0x5010, r)
  | .mntFuseKey r _ => some (0x5010, r)
  | .mntFuseRevoke r _ => some (0x5010, r)
  | .mntFusePolicy r _ => some (0x5010, r)
  | .mntFuseSafety r _ => some (0x5010, r)
  | .mntFuseRollback r _ => some (0x5010, r)
  | .mntLogClearRecords r => some (0x5011, r)
  | .mntLogClearStartFailures r => some (0x5011, r)
  | .mntLogClearWear r => some (0x5011, r)
  | .mntLogClearAgeing r => some (0x5011, r)
  | .mntReset r => some (0x5012, r)
  | .diaSelftestQuery r => some (0x6001, r)
  | .diaSelftestRun r _ _ _ => some (0x6001, r)
  | .diaSelftestStatusClr r => some (0x6001, r)
  | .diaTraceArm r => some (0x6002, r)
  | .diaTraceStop r => some (0x6002, r)
  | .diaTraceRead r => some (0x6002, r)
  | .diaTraceStatus r => some (0x6002, r)
  | .diaInject r _ => some (0x6003, r)
  | .diaAgeingQuery r => some (0x6004, r)
  | .diaAgeingReplan r => some (0x6004, r)
  | .diaAgeingHistory r => some (0x6004, r)
  | .diaAgeingStatusClr r => some (0x6004, r)
  | _ => none

end Sys2Proof.Machine
end

