-- ==== Sys2Proof/WellFormed.lean ====
section
/-! DEFINITION. Which commands are well formed: the bounds that the table's operands have and their types do not say. -/

namespace Sys2Proof

/-- A descriptor's own bounds (R54 to R56): the ring is a queue, CLASS is one byte, LEN is at most 3,584 and the payload has that
length. -/
def reqWf (r : Req) : Bool :=
  decide (r.ring < 64) && decide (r.cls ≤ 255) && decide (r.len ≤ 3584) && decide (r.pay.length = r.len)

/-- A received CAN frame holds at most 64 bytes (R563). -/
def canFrameWf (f : CanFrame) : Bool := decide (f.data.length ≤ 64)

/-- An Ethernet frame's payload is at most 1,500 bytes, and its trailer has a 16-bit sequence number and a 4-bit LAN identifier
(R580, R585). -/
def ethFrameWf (f : EthFrame) : Bool :=
  decide (f.body.length ≤ 1500) && (match f.rct with | some q => decide (q.seq < 65536) && decide (q.lan < 16) | none => true)

/-- A command the environment may send. Operands that their types bound need no check. -/
def instrWf (i : Instr) : Bool :=
  match i with
  | .hostWriteFrame _ _ ws _ _ => decide (ws.length ≤ 65)
  | .hostReadFrame _ _ _ => true
  | .directRegisterWrite _ _ => true
  | .portRst => true
  | .doorbellWrite _ _ => true
  | .hpTimeNsRead => true
  | .descriptorTake => true
  | .irqTimeExpiry _ => true
  | .faultLogCopy => true
  | .hostSilenceTimeout => true
  | .stateEventEvaluation => true
  | .cfgQueue r => reqWf r
  | .cfgEvents r => reqWf r
  | .cfgDrive r _ => reqWf r
  | .cfgImageBegin r => reqWf r
  | .cfgImageData r => reqWf r
  | .cfgImageFromFlash r => reqWf r
  | .cfgImageToFlash r => reqWf r
  | .cfgCommit r _ => reqWf r
  | .cfgRelease r => reqWf r
  | .cfgContextCtrl r => reqWf r
  | .cfgContextPeriod r => reqWf r
  | .cfgContextParam r => reqWf r
  | .cfgContextStatusClr r => reqWf r
  | .cfgAcqGroup r => reqWf r
  | .cfgAcqSeq r => reqWf r
  | .cfgAcqScale r => reqWf r
  | .cfgAcqCal r => reqWf r
  | .cfgAcqStatusClr r => reqWf r
  | .cfgAcqSwtrig r => reqWf r
  | .cfgDsmClocks r => reqWf r
  | .cfgDsmInput r => reqWf r
  | .cfgDsmStatusClr r => reqWf r
  | .cfgPosRsv r => reqWf r
  | .cfgPosEnc r => reqWf r
  | .cfgPosCmp r => reqWf r
  | .cfgPosHal r => reqWf r
  | .cfgPosObs r => reqWf r
  | .cfgPosPla r => reqWf r
  | .cfgPosStatusClr r => reqWf r
  | .cfgPwmUnit r => reqWf r
  | .cfgPwmAux r => reqWf r
  | .cfgPwmStatusClr r => reqWf r
  | .pwmUnitRestart _ => true
  | .cfgGdvChannel r => reqWf r
  | .cfgGdvInd r => reqWf r
  | .cfgGdvTable r => reqWf r
  | .cfgGdvTcool r => reqWf r
  | .cfgGdvStatusClr r => reqWf r
  | .cfgPrtCtl r _ => reqWf r
  | .cfgPrtDcl r => reqWf r
  | .cfgPrtChop r => reqWf r
  | .cfgPrtTrip r => reqWf r
  | .cfgPrtCbc r => reqWf r
  | .cfgPrtStatusClr r => reqWf r
  | .cfgCurve r => reqWf r
  | .cfgThmWarn r => reqWf r
  | .cfgThmStatusClr r => reqWf r
  | .cfgChkUnit r => reqWf r
  | .cfgChkStatusClr r => reqWf r
  | .cfgCanCtrl r => reqWf r
  | .cfgCanMobj r => reqWf r
  | .cfgCanTxdata r => reqWf r
  | .cfgCanRecover r => reqWf r
  | .cfgCanStatusClr r => reqWf r
  | .cfgAdxCtrl r => reqWf r
  | .cfgAdxMw r => reqWf r
  | .cfgAdxTimeCfg r => reqWf r
  | .cfgAdxTimeSet r => reqWf r
  | .cfgAdxTimeAdj r => reqWf r
  | .cfgAdxStatusClr r => reqWf r
  | .cfgCrdCfg r => reqWf r
  | .cfgCrdPar r => reqWf r
  | .cfgCrdStatusClr r => reqWf r
  | .cfgLimit r _ => reqWf r
  | .ctlArm r => reqWf r
  | .ctlDisarm r => reqWf r
  | .ctlRun r => reqWf r
  | .ctlStop r => reqWf r
  | .ctlMode r => reqWf r
  | .ctlSetpoint r => reqWf r
  | .ctlForceRelease r => reqWf r
  | .ctlForceBothOff r => reqWf r
  | .ctlForceLowerOn r => reqWf r
  | .ctlForceUpperOn r => reqWf r
  | .ctlForceShadowWrite r => reqWf r
  | .ctlDischarge r => reqWf r
  | .ctlSplit r => reqWf r
  | .ctlJoin r _ => reqWf r
  | .joinStopTimeout => true
  | .qryState r => reqWf r
  | .qryStatus r => reqWf r
  | .qryConfig r => reqWf r
  | .qryTelemetry r => reqWf r
  | .qryCapacity r => reqWf r
  | .qryCmdCost r => reqWf r
  | .qryFaultLog r => reqWf r
  | .qryAttestReport r => reqWf r
  | .qryAttestEndorse r => reqWf r
  | .safStop r => reqWf r
  | .safRelease r => reqWf r
  | .blackthornReleaseTimeout r => reqWf r
  | .safAck r _ _ => reqWf r
  | .safTest r _ _ => reqWf r
  | .mntFwWriteErase r => reqWf r
  | .mntFwWriteData r => reqWf r
  | .mntFwVerify r => reqWf r
  | .mntFwActivate r => reqWf r
  | .mntFuseIdent r _ => reqWf r
  | .mntFuseKey r _ => reqWf r
  | .mntFuseRevoke r _ => reqWf r
  | .mntFusePolicy r _ => reqWf r
  | .mntFuseSafety r _ => reqWf r
  | .mntFuseRollback r _ => reqWf r
  | .mntLogClearRecords r => reqWf r
  | .mntLogClearStartFailures r => reqWf r
  | .mntLogClearWear r => reqWf r
  | .mntLogClearAgeing r => reqWf r
  | .mntReset r => reqWf r
  | .diaSelftestQuery r => reqWf r
  | .diaSelftestRun r _ _ _ => reqWf r
  | .diaSelftestStatusClr r => reqWf r
  | .diaTraceArm r => reqWf r
  | .diaTraceStop r => reqWf r
  | .diaTraceRead r => reqWf r
  | .diaTraceStatus r => reqWf r
  | .diaInject r _ => reqWf r
  | .diaAgeingQuery r => reqWf r
  | .diaAgeingReplan r => reqWf r
  | .diaAgeingHistory r => reqWf r
  | .diaAgeingStatusClr r => reqWf r
  | .resetRelease => true
  | .nodeIdDelayExpiry => true
  | .startSequencerStep _ => true
  | .pllLockDeadline _ => true
  | .bootRomStart _ => true
  | .standbyEntry => true
  | .startTimeout => true
  | .resetInput _ => true
  | .supplyLoss _ => true
  | .stopRampComplete => true
  | .stopOverdue => true
  | .opNop _ _ => true
  | .opWait _ _ => true
  | .opEnd _ _ => true
  | .opLdacc _ _ => true
  | .opMul _ _ => true
  | .opMac _ _ => true
  | .opMsu _ _ => true
  | .opRnd _ _ => true
  | .opAdd _ _ => true
  | .opSub _ _ => true
  | .opNeg _ _ => true
  | .opAbs _ _ => true
  | .opMin _ _ => true
  | .opMax _ _ => true
  | .opLim _ _ => true
  | .opShl _ _ => true
  | .opShr _ _ => true
  | .opCmplt _ _ => true
  | .opCmpge _ _ => true
  | .opCmpeq _ _ => true
  | .opSel _ _ => true
  | .opAnd _ _ => true
  | .opOr _ _ => true
  | .opXor _ _ => true
  | .opSincos _ _ => true
  | .opAtan2 _ _ => true
  | .opDiv _ _ => true
  | .opSqrt _ _ => true
  | .opLut _ _ => true
  | .opLdc _ _ => true
  | .opLd _ _ => true
  | .opSt _ _ => true
  | .opPut _ _ => true
  | .opGet _ _ => true
  | .opWcmp _ _ => true
  | .opLdall _ _ => true
  | .opFlag _ _ => true
  | .contextRelease _ late => late.all fun e => decide (e < 512)
  | .preemption _ _ => true
  | .contextCompletion _ => true
  | .watchdogDeadline _ => true
  | .cellParityError _ _ _ => true
  | .coefEccError _ _ _ _ => true
  | .opmemEccError _ _ _ _ => true
  | .regionMemoryEccError _ _ _ _ => true
  | .cellSwitch _ _ => true
  | .cellSwitchAbandon _ _ => true
  | .catchDetectEnd _ _ => true
  | .alignEnd _ => true
  | .sequenceTrigger _ => true
  | .injectedTrigger _ _ => true
  | .runHold _ => true
  | .conversionComplete _ inj idx _ _ => !inj || decide (idx.val < 4)
  | .calibrationStart _ => true
  | .calibrationComplete _ _ => true
  | .dsmResult _ _ => true
  | .dsmDelivery _ => true
  | .dsmFastTrip _ _ => true
  | .dsmStuck _ => true
  | .resolverSample _ _ _ _ => true
  | .encoderCountStep _ _ _ => true
  | .indexEdge _ _ _ _ => true
  | .encLine _ => true
  | .hallChange _ _ => true
  | .observerUpdate _ => true
  | .observerLatch _ _ => true
  | .plausibilityCheck _ => true
  | .pwmReload _ _ => true
  | .sampleTrigger _ _ => true
  | .auxEvent _ => true
  | .overlapLockout _ => true
  | .cbcCutoff _ _ _ => true
  | .debugHalt => true
  | .debugResume => true
  | .debugRequest _ _ _ _ => true
  | .scanEntry => true
  | .driverLockout _ _ => true
  | .lockoutRelease _ => true
  | .earlyWarning _ => true
  | .desaturation _ => true
  | .softTurnoffEnd _ => true
  | .crosscheckRefusal _ => true
  | .driverLinkSilence _ => true
  | .gdvLink _ => true
  | .onStateSample _ _ => true
  | .indicatorUpdate _ => true
  | .overvoltageTrip _ => true
  | .undervoltageTrip _ => true
  | .legRejoin _ => true
  | .chopperSwitching _ => true
  | .chopperFault _ => true
  | .dischargeSwitchOn => true
  | .dischargeDone _ => true
  | .dischargeTimeout => true
  | .dischargeNotFalling => true
  | .safetyInputChange _ _ _ => true
  | .discrepancyTimeout _ => true
  | .speedCounterSample _ _ _ => true
  | .speedSourceIllegal _ => true
  | .speedCrossCheck _ => true
  | .smaxSoftwareCheck _ => true
  | .blackthornComparatorTrip _ _ => true
  | .latchSelfClear _ _ => true
  | .torqueMonitorCheck _ _ => true
  | .monitorStopTimeout => true
  | .qaQuestion _ => true
  | .qaAnswer ws _ => decide (ws.length ≤ 4)
  | .qaWindowExpiry => true
  | .sackPulse _ => true
  | .referenceClockWindow _ => true
  | .lockstepMismatch _ _ _ => true
  | .checkpointRestart => true
  | .checkpointSeal => true
  | .core1PartitionViolation _ => true
  | .prunerSliceStart _ _ => true
  | .prunerSliceAbort _ _ => true
  | .prunerSliceComplete _ _ _ => true
  | .prnOverdue _ _ => true
  | .sensorWindow _ _ _ => true
  | .thermalLineRelease => true
  | .throttleEvaluation => true
  | .railOutOfWindow _ _ => true
  | .droopDetect _ => true
  | .droopEnd => true
  | .droopBudgetExhausted => true
  | .pllLockLoss => true
  | .referenceCountWindow _ => true
  | .canaryMeasurement _ _ => true
  | .dailyReplan => true
  | .operatingHoursSave => true
  | .canFrameReceived _ f => canFrameWf f
  | .canLockRelease _ _ _ => true
  | .canLockTimeout _ _ => true
  | .canTxAttemptEnd _ _ _ => true
  | .canPeriodRequest _ _ => true
  | .canErrorDetected _ _ _ => true
  | .canBusoffRecovery _ => true
  | .canMessageWordTimeout _ _ => true
  | .canCompletionSend _ => true
  | .canCompletionRetry _ => true
  | .adexiaFrameReceived _ f => ethFrameWf f
  | .missingDuplicateTimeout _ => true
  | .adexiaMsgTimeout _ => true
  | .cplFrameSend => true
  | .supervisionSend => true
  | .portLinkChange _ _ => true
  | .ptpSyncMeasurement _ _ _ _ => true
  | .syncTimeout _ => true
  | .oneShotOffsetApply => true
  | .allocCycleInstant => true
  | .allocLatch => true
  | .stateCopySend => true
  | .stateCopyReceived _ => true
  | .pairLinkTimeout => true
  | .arbiterStartupAppoint => true
  | .carrierValley _ _ => true
  | .linkActivityResumed _ => true
  | .encLineClear _ => true
  | .earlyWarningClear _ => true
  | .protocolException _ => true
  | .ptpSyncInterval _ => true

end Sys2Proof
end

