-- ==== Sys2Proof/Certificates/Slice0/Obligations.lean ====
section
/-! DEFINITION. The statements about the model, for the provers. -/

open Sys2Proof Sys2Proof.Machine

/-- The command at the front of the queue is run on the state with the queue's rest. -/
def Obligations.StepRunsTheFrontCommand : Prop :=
  ∀ (c : Instr) (rest : List Instr) (s : State),
    step { s with pending := c :: rest } = exec c { s with pending := rest }

/-- On an empty queue the clocks advance by one CLK_NET cycle (log entry 3, the model's choice): the time base by 8 ns, and the local clock
by TIM_INC and by a pending one-shot offset, with the carry into SECONDS (R592, R593). -/
def Obligations.IdleStepTicksTheClocks : Prop :=
  ∀ s : State, s.pending = [] →
    ∃ t, step s = .next t ∧ t = { s with clk := t.clk, aon := t.aon, io := t.io } ∧ t.clk.tb = s.clk.tb + 32 ∧
      t.io = { s.io with jobs := t.io.jobs } ∧ t.clk.offset = none ∧ t.clk.incNext = none ∧
      t.clk.inc = s.clk.incNext.getD s.clk.inc ∧
      t.clk.frac.toNat = (s.clk.frac.toNat + t.clk.inc.toNat) % 2 ^ 32 ∧
      ((t.clk.sec.toNat : Int) * 1000000000 + t.clk.ns.toNat) % (2 ^ 48 * 1000000000) =
        ((s.clk.sec.toNat : Int) * 1000000000 + s.clk.ns.toNat + s.clk.offset.getD 0 +
          ((s.clk.frac.toNat + t.clk.inc.toNat) / 2 ^ 32 : Nat)) % (2 ^ 48 * 1000000000)

/-- A job whose opcode is not legal in the present state completes with ST_STATE and the state code, or with ST_PREEMPTED where it was
accepted before a transition made it illegal, and changes nothing else (R65, R70). While Icsis does not serve (OFF, BOOT, a degraded or
halted pair, scan), no job is applied and nothing changes (R77, R494, R505). -/
def Obligations.JobsAreAppliedOnlyWhereLegalAndServed : Prop :=
  (∀ (c : Instr) (op : Nat) (r : Req) (s : State), jobOpcode c = some (op, r) →
     serving s = true → legal s.drv.st op = false →
     ∃ t, exec c s = .next t ∧ t = { s with io := t.io, icp := t.icp } ∧
       t = if (jobOf s op r).isSome then complete s op r stPreempted []
           else complete s op r stState [BitVec.ofNat 8 s.drv.st.code]) ∧
  (∀ (c : Instr) (op : Nat) (r : Req) (s : State), jobOpcode c = some (op, r) → serving s = false → exec c s = .next s)

/-- Write frames (R42 to R46, R689, R690): while VIO is outside its window nothing happens; a frame that is not well formed sets
HP_ERR.FRAME and one with a wrong CRC HP_ERR.CRC, and neither writes anything; a good frame writes its words at rising addresses and is
seen by the check units. A word written into a window of a submission ring that the host port owns is stored as its four bytes, in any
other window it sets HP_ERR.QWIN, and from 0x10_0000 on it is a write of that register. Read frames (R42 to R44, R48, R689): a well-
formed frame of `k` words from the queue windows delivers their bytes as little-endian words; one word from a register delivers its
value, and that of HP_TIME_NS latches SECONDS[31:0]; an unmapped address reads 0 and sets HP_ERR.ADDR; a malformed frame drives zeros
and sets HP_ERR.FRAME. HP_TIME_NS_READ is the read of that register. -/
def Obligations.HostFramesWriteAndRead : Prop :=
  (∀ (instr : Byte) (addr : BitVec 24) (ws : List W32) (crc : Option W16) (clocks : Nat) (s : State),
     let out := exec (.hostWriteFrame instr addr ws crc clocks) s
     (portUp s = false → out = .next s) ∧
     (portUp s = true → ¬writeFormed instr addr ws crc clocks s → out = .next { s with io := s.io.err 0 }) ∧
     (portUp s = true → writeFormed instr addr ws crc clocks s → (∃ c, crc = some c ∧ c ≠ crc16 (frameBytes 0x38 addr ws)) →
       out = .next { s with io := s.io.err 1 }) ∧
     (portUp s = true → writeFormed instr addr ws crc clocks s → (∀ c, crc = some c → c = crc16 (frameBytes 0x38 addr ws)) →
       out = .next (snoop (writeWords (hostAlive s) addr.toNat ws) 0x30 (frameItems addr.toNat ws) true)) ∧
     (∀ (a : Nat) (w : W32) (rest : List W32) (s' : State), writeWords s' a [] = s' ∧
       writeWords s' a (w :: rest) =
         writeWords
           (if 0x100000 ≤ a then writeReg s' a w
            else if hostSub s'.io (a / 0x4000) then
              { s' with io := { s'.io with qsram := memWrite s'.io.qsram a (leBytes 4 w.toNat) } }
            else { s' with io := s'.io.err 3 })
           (a + 4) rest)) ∧
  (∀ (addr : BitVec 24) (k : Nat) (s : State), portUp s = true → 1 ≤ k → k ≤ 64 →
     (addr.toNat % 4 = 0 → addr.toNat + 4 * k ≤ 0x100000 →
       ∃ t, exec (.hostReadFrame 0xEB addr (16 + (if bit s.io.hpCtrl 1 then 12 else 8) * k)) s = .next t ∧
         t = { s with io := { s.io with silent := false, readData := t.io.readData, readCrcs := t.io.readCrcs } } ∧
         t.io.readData = (List.range k).map (fun i => BitVec.ofNat 32 (leNat (memRead s.io.qsram (addr.toNat + 4 * i) 4) 0 4)) ∧
         t.io.readCrcs = if bit s.io.hpCtrl 1 then readCrcs 0xEB addr t.io.readData else []) ∧
     (addr.toNat % 4 = 0 → 0x100000 ≤ addr.toNat →
       ∃ t, exec (.hostReadFrame 0xEB addr (16 + (if bit s.io.hpCtrl 1 then 12 else 8))) s = .next t ∧
         (∀ w, readWord s addr.toNat = some w → t.io.readData = [w] ∧
           t.io.hpTimeSec = (if addr.toNat = 0x100020 then s.clk.sec.setWidth 32 else s.io.hpTimeSec) ∧
           t = { s with io := { s.io with silent := false, hpTimeSec := t.io.hpTimeSec, readData := t.io.readData,
                                          readCrcs := t.io.readCrcs } }) ∧
         (readWord s addr.toNat = none → t.io.readData = [0] ∧
           t = { s with io := { s.io.err 4 with silent := false, readData := t.io.readData, readCrcs := t.io.readCrcs } })) ∧
     (∀ (instr : Byte) (clocks : Nat), instr ≠ 0xEB ∨ addr.toNat % 4 ≠ 0 →
       ∃ t, exec (.hostReadFrame instr addr clocks) s = .next t ∧ (∀ w ∈ t.io.readData, w = 0) ∧ (∀ w ∈ t.io.readCrcs, w = 0) ∧
         t = { s with io := { s.io.err 0 with readData := t.io.readData, readCrcs := t.io.readCrcs } }) ∧
     exec .hpTimeNsRead s = .next { s with io := { s.io with readData := [s.clk.ns.zeroExtend 32], silent := false,
                                                             hpTimeSec := s.clk.sec.setWidth 32 } })

/-- Direct writes, PORT_RST and doorbells (R8, R45, R46, R53, R74): what each register of the port takes; a write of HP_CTRL that sets
PORT_RST resets the frame logic too. -/
def Obligations.DirectWritesAndDoorbells : Prop :=
  ∀ (w : W32) (s : State), portUp s = true →
    exec .portRst s = .next { s with io := { s.io with readData := [], readCrcs := [] } } ∧
    (∀ a : BitVec 24, a = 0x100000 ∨ a = 0x100004 ∨ a = 0x100020 ∨ a = 0x100024 →
      exec (.directRegisterWrite a w) s = .next (hostAlive s)) ∧
    exec (.directRegisterWrite 0x10000C w) s =
      .next { s with io := { s.io with silent := false, hpErr := s.io.hpErr &&& ~~~(w &&& 0x3F) } } ∧
    exec (.directRegisterWrite 0x100010 w) s =
      .next { s with io := { s.io with silent := false, irqStat := s.io.irqStat &&& ~~~(w.zeroExtend 64) } } ∧
    exec (.directRegisterWrite 0x100014 w) s =
      .next { s with io := { s.io with silent := false, irqStat := s.io.irqStat &&& ~~~(w.zeroExtend 64 <<< 32) } } ∧
    exec (.directRegisterWrite 0x100018 w) s =
      .next { s with io := { s.io with silent := false, irqEn := setFld s.io.irqEn 31 0 w.toNat } } ∧
    exec (.directRegisterWrite 0x10001C w) s =
      .next { s with io := { s.io with silent := false, irqEn := setFld s.io.irqEn 63 32 w.toNat } } ∧
    (let rwa := s.drv.st = .standby ∨ s.drv.st = .configured
     let old := fld s.io.hpCtrl 31 16
     let new := fld w 31 16
     let tight := new = old ∨ (new ≠ 0 ∧ (old = 0 ∨ new < old))
     ((bit w 1 = bit s.io.hpCtrl 1 ∨ rwa) → tight →
        exec (.directRegisterWrite 0x100008 w) s =
          .next { s with io :=
            { s.io with silent := false, hpCtrl := w &&& 0xFFFF0002,
                        readData := if bit w 0 then [] else s.io.readData, readCrcs := if bit w 0 then [] else s.io.readCrcs } }) ∧
     (bit w 1 ≠ bit s.io.hpCtrl 1 → ¬rwa →
        exec (.directRegisterWrite 0x100008 w) s = .next (refuseDirect (hostAlive s) stState)) ∧
     ((bit w 1 = bit s.io.hpCtrl 1 ∨ rwa) → ¬tight →
        exec (.directRegisterWrite 0x100008 w) s = .next (refuseDirect (hostAlive s) stTighten))) ∧
    (∀ n : Fin 64,
      (hostOwns s.io n = true → ptrOk (s.io.q n) (fld w 7 0) = true →
        ∃ t, exec (.doorbellWrite n w) s = .next t ∧ t = { s with io := { s.io with silent := false, queues := t.io.queues } } ∧
          (t.io.q n).hostPtr = fld w 7 0 ∧ (t.io.q n).icsisPtr = (s.io.q n).icsisPtr ∧
          ∀ m, m ≠ n.val → t.io.q m = s.io.q m) ∧
      (hostOwns s.io n = false ∨ ptrOk (s.io.q n) (fld w 7 0) = false →
        exec (.doorbellWrite n w) s = .next { s with io := { s.io.err 2 with silent := false } }))

/-- CFG_QUEUE and CFG_EVENTS (R51, R52, R81): a payload outside its ranges is refused with ST_RANGE, a queue in use with ST_BUSY; else the
queue takes the fields of the payload with both pointers 0, or the event rings and the mask are taken over. IRQ_TIME_EXPIRY,
FAULT_LOG_COPY and HOST_SILENCE_TIMEOUT (R47, R73, R82, R96): the interrupt bit of a ring whose oldest completion has waited IRQ_TIME;
the records of Icsis SRAM in the flash log; the record 0x3010 once in a silent spell, with the stop of SAF_STOP outside SAFE_STOP and
FAULT. -/
def Obligations.QueueConfigurationAndInterfaceTimers : Prop :=
  (∀ (r : Req) (s : State),
     (applies 0x1001 r s →
       (parseQueue r s.io = none → exec (.cfgQueue r) s = .next (complete s 0x1001 r stRange [])) ∧
       (∀ c, parseQueue r s.io = some c → queueBusy s.io c.qnum r.ring = true →
         exec (.cfgQueue r) s = .next (complete s 0x1001 r stBusy [])) ∧
       (∀ c, parseQueue r s.io = some c → queueBusy s.io c.qnum r.ring = false →
         c.qnum = fieldAt r 8 1 ∧
         c.cfg = { dir := fieldAt r 9 1, depth := fieldAt r 10 1, source := fieldAt r 11 1, pairRing := fieldAt r 12 1,
                   irqCount := fieldAt r 13 1, irqTime := fieldAt r 14 2, hostPtr := 0, icsisPtr := 0, phase := true, timed := false } ∧
         exec (.cfgQueue r) s =
           .next (complete { s with io := { s.io with queues := s.io.queues.put c.qnum c.cfg } } 0x1001 r stOk []))) ∧
     (applies 0x1002 r s →
       let good := formOk r 8 && zeroAt r 11 1 && zeroAt r 14 2 && eventRingOk s.io 0 (fieldAt r 8 1) &&
         eventRingOk s.io 1 (fieldAt r 9 1) && eventRingOk s.io 2 (fieldAt r 10 1)
       (good = false → exec (.cfgEvents r) s = .next (complete s 0x1002 r stRange [])) ∧
       (good = true → exec (.cfgEvents r) s =
         .next (complete
           { s with io := { s.io with
               evRing := #v[fieldAt r 8 1, fieldAt r 9 1, fieldAt r 10 1], evMask := BitVec.ofNat 16 (fieldAt r 12 2) } }
           0x1002 r stOk [])))) ∧
  (∀ s : State,
     (∀ n : Fin 64, (s.io.q n).isCpl = true → (s.io.q n).irqTime ≠ 0 → (s.io.q n).held ≠ 0 → (s.io.q n).timed = false →
       ∃ t, exec (.irqTimeExpiry n) s = .next t ∧ t = { s with io := t.io } ∧ bit t.io.irqStat n = true ∧
         t.io = { s.io with irqStat := setBit s.io.irqStat n true, queues := t.io.queues } ∧
         ∀ m, t.io.q m = if m = n then { s.io.q n with timed := true } else s.io.q m) ∧
     (serving s = true → bit s.sup.railOut 4 = false →
       exec .faultLogCopy s = .next
         { s with
           nv := { s.nv with flashLog :=
             (((s.io.log.filter fun f : FaultRec => !f.copied).map fun f : FaultRec => { f with copied := true }) ++ s.nv.flashLog).take 65536 }
           io := { s.io with log := s.io.log.map fun f : FaultRec => { f with copied := true } } }) ∧
     (serving s = true → fromStandby.contains s.drv.st = true → s.io.hostWd ≠ 0 → s.io.silent = false →
       exec .hostSilenceTimeout s = .next
         (let t := record { s with io := { s.io with silent := true } } 0x3010 0xFFFF 0
          if s.drv.st = .safeStop ∨ s.drv.st = .fault then t
          else { t with drv := { t.drv with events := t.drv.events ++ [⟨.stopReq, 0x3010⟩] } }) ∧
       exec .hostSilenceTimeout { s with io := { s.io with silent := true } } = .next { s with io := { s.io with silent := true } }))

/-- DESCRIPTOR_TAKE (R57, R61, R63, R64): from the ring whose turn it is, a malformed chain is refused with ST_FORMAT, a whole one with the
first status that applies, neither with an effect on any outstanding job, and one that passes becomes an outstanding job with T_ACC, the
deadline of its class and the demands of the instant (R87); ICSIS_PTR moves past the entries. With nothing to take, nothing changes. -/
def Obligations.DescriptorTakeAcceptsOrRefuses : Prop :=
  ∀ s : State, serving s = true →
    (nextRing s = none → exec .descriptorTake s = .next s) ∧
    (∀ n es, nextRing s = some n → headChain s.io n = .bad es →
      exec .descriptorTake s = .next
        (refuseTake (advance s n es.length) (leNat (es.headD []) 0 2) (reqOf n es) stFormat [])) ∧
    (∀ n es, nextRing s = some n → headChain s.io n = .whole es →
      let op := leNat (es.headD []) 0 2
      let j : Job := { opcode := BitVec.ofNat 16 op, req := reqOf n es, tAcc := now s, cost := costOf op (reqOf n es),
                       entries := longest op (reqOf n es), due := s.clk.tb + 4 * classBound (reqOf n es).cls, demands := demandsNow s }
      (∀ st, takeCheck s n op (reqOf n es) (tailZero es) j = some st →
        exec .descriptorTake s = .next (refuseTake (advance s n es.length) op (reqOf n es) st (refusalResult s st j))) ∧
      (takeCheck s n op (reqOf n es) (tailZero es) j = none →
        ∃ t, exec .descriptorTake s = .next t ∧ t = { s with io := t.io } ∧
          t.io = { s.io with jobs := s.io.jobs ++ [j], rr := n, queues := t.io.queues } ∧
          (n < 64 → (t.io.q n).icsisPtr = ((s.io.q n).icsisPtr + es.length) % (s.io.q n).n) ∧
          ∀ m, m ≠ n → t.io.q m = s.io.q m))

/-- STATE_EVENT_EVALUATION (R95, R96, R107): of the waiting events and persisting conditions the first of the highest rank takes effect,
with PREV_STATE, CAUSE and T_STATE, and every other one is discarded. -/
def Obligations.StateEventsAreResolvedByRank : Prop :=
  ∀ s : State, serving s = true →
    ∃ t, exec .stateEventEvaluation s = .next t ∧
      (noEvent s → t = { s with drv := { s.drv with events := [] } }) ∧
      (∀ m e, winner s.drv.st (s.drv.events ++ persistent s) = some (m, e) →
        (e ∈ s.drv.events ++ persistent s ∧ judge s.drv.st e.kind = some m ∧
          ∀ e' ∈ s.drv.events ++ persistent s, (judge s.drv.st e'.kind).isSome = true → rank e'.kind ≤ rank e.kind) ∧
        t.drv.st = m ∧ t.drv.prev = s.drv.st ∧ t.drv.cause = e.cause ∧ t.drv.tState = now s ∧ t.drv.events = [] ∧ t.clk = s.clk ∧
        t.nv = s.nv ∧ t.boot = s.boot ∧ t.can = s.can ∧ t.adx = s.adx ∧ t.crd = s.crd)

/-- CFG_DRIVE (R18 to R20, R447): the ranges, ST_BUSY where a committed image would no longer hold, and the configuration taken over by
Icsis and by Blackthorn; where Blackthorn does not confirm it, ST_FAILED and fault 0x3050 with nothing taken over. A command that
changes the state completes with what its checks give, with ST_PREEMPTED where another event takes the module elsewhere first, and else
takes effect: CFG_COMMIT to CONFIGURED with the image active, CFG_RELEASE to STANDBY with no committed configuration, CTL_ARM to ARMED,
CTL_DISARM to CONFIGURED, CTL_RUN to RUNNING with the catch started (R95, R96, R98, R107, R158, R240). -/
def Obligations.DriveConfigurationAndStateCommandsTakeEffect : Prop :=
  (∀ (r : Req) (s : State), applies 0x1010 r s →
     let d := driveReq r
     let good := formOk r 28 && d.auxuse &&& 0xF8 == 0 && zeroAt r 11 1 && zeroAt r 18 2 && zeroAt r 30 6 && decide (1 ≤ d.stopT) &&
       legsOk d && windowOk s d
     (good = false → ∀ k, exec (.cfgDrive r k) s = .next (complete s 0x1010 r stRange [])) ∧
     (good = true → s.drv.st ≠ .standby → changesImage s d = true → ∀ k,
       exec (.cfgDrive r k) s = .next (complete s 0x1010 r stBusy [])) ∧
     (good = true → s.drv.st = .standby ∨ changesImage s d = false →
       exec (.cfgDrive r true) s = .next (complete
         { s with
           drv := { s.drv with
             arrange := fieldAt r 8 1, legs := BitVec.ofNat 8 (fieldAt r 9 1), auxuse := BitVec.ofNat 8 (fieldAt r 10 1),
             varmMin := fieldAt r 12 2, varmMax := fieldAt r 14 2, stopT := fieldAt r 16 2,
             routeAcq := BitVec.ofNat 16 (fieldAt r 20 2), routePos := BitVec.ofNat 16 (fieldAt r 22 2),
             routeDsm := BitVec.ofNat 48 (fieldAt r 24 6) }
           saf := { s.saf with blkArr := fieldAt r 8 1, blkLegs := BitVec.ofNat 8 (fieldAt r 9 1) } }
         0x1010 r stOk []) ∧
       exec (.cfgDrive r false) s = .next (complete (recBlk s noUnit 0x3050) 0x1010 r stFailed []))) ∧
  (∀ (r : Req) (b : ImageBody) (s : State),
     (∀ (c : Instr) (op : Nat) (check : Option (W16 × List Byte)),
       (c = .cfgCommit r b ∧ op = 0x1050 ∧ check = commitCheck s r (if fieldAt r 8 1 = 1 then s.thk.body.getD b else b)) ∨
       (c = .cfgRelease r ∧ op = 0x1051 ∧ check = if !formOk r 0 then some (stRange, []) else if s.prt.dis ≠ .idle then some (stBusy, []) else none) ∨
       (c = .ctlArm r ∧ op = 0x2001 ∧ check = armCheck s r (s.prt.dis != .idle || s.icp.split)) ∨
       (c = .ctlDisarm r ∧ op = 0x2002 ∧ check = if formOk r 0 then none else some (stRange, [])) ∨
       (c = .ctlRun r ∧ op = 0x2003 ∧ check = armCheck s r false) →
       applies op r s →
       (∀ st res, check = some (st, res) → exec c s = .next (complete s op r st res)) ∧
       (check = none → ¬noEvent s → exec c s = .next (complete (evaluate s) op r stPreempted []))) ∧
     (noEvent s →
       (applies 0x1050 r s → commitCheck s r (if fieldAt r 8 1 = 1 then s.thk.body.getD b else b) = none →
         ∃ t, exec (.cfgCommit r b) s = .next t ∧ entered s t .configured 0x1050 ∧ t.drv.committed = true ∧
           t.thk.active = (commitBytes s (fieldAt r 8 1)).getD [] ∧
           t.thk.body = some (if fieldAt r 8 1 = 1 then s.thk.body.getD b else b) ∧ t.thk.activeBad = false ∧
           t.thk.preempted = [] ∧ t.nv = s.nv ∧ t.boot = s.boot ∧ t.clk = s.clk ∧ t.acq = s.acq) ∧
       (applies 0x1051 r s → formOk r 0 = true → s.prt.dis = .idle →
         ∃ t, exec (.cfgRelease r) s = .next t ∧ entered s t .standby 0x1051 ∧ t.drv.committed = false ∧
           t.thk.active = s.thk.active ∧ (∀ c < 160, (t.thk.ctxs.at c).act = none) ∧ t.nv = (copyStartLog s).nv ∧ t.boot = s.boot ∧
           t.clk = s.clk) ∧
       (applies 0x2001 r s → armCheck s r (s.prt.dis != .idle || s.icp.split) = none →
         ∃ t, exec (.ctlArm r) s = .next t ∧ entered s t .armed 0x2001 ∧ t.drv.committed = s.drv.committed ∧ t.nv = s.nv ∧
           t.boot = s.boot ∧ t.clk = s.clk ∧ t.gdv = s.gdv ∧ t.acq = s.acq) ∧
       (applies 0x2002 r s → formOk r 0 = true →
         ∃ t, exec (.ctlDisarm r) s = .next t ∧ entered s t .configured 0x2002 ∧ t.drv.committed = s.drv.committed ∧ t.nv = s.nv ∧
           t.boot = s.boot ∧ t.clk = s.clk ∧ t.gdv = s.gdv ∧ t.acq = s.acq) ∧
       (applies 0x2003 r s → armCheck s r false = none →
         ∃ t, exec (.ctlRun r) s = .next t ∧ entered s t .running 0x2003 ∧
           t.dmd = { s.dmd with catch_ := #v[startCatch s 0, startCatch s 1] } ∧ t.nv = s.nv ∧ t.boot = s.boot ∧ t.clk = s.clk ∧
           t.acq = s.acq)))

/-- CFG_IMAGE (R155, R157): BEGIN empties the staging area and announces LENGTH, DATA appends its bytes at OFFSET, FROM_FLASH takes a slot
into the staging area, TO_FLASH copies a complete staged image of good DIGEST into a slot and else fails; a payload outside its ranges
is refused with ST_RANGE. Nothing but the staging area, or the slot, changes. -/
def Obligations.ImageCommandsMoveTheStagedImage : Prop :=
  ∀ (r : Req) (s : State), applies 0x1011 r s →
    let len := fieldAt r 12 4
    let n := r.len - 8
    let k := fieldAt r 9 1
    (let good := opForm r 8 0 && zeroAt r 9 3 && decide (192 ≤ len) && decide (len ≤ 1048576)
     (good = false → exec (.cfgImageBegin r) s = .next (complete s 0x1011 r stRange [])) ∧
     (good = true → exec (.cfgImageBegin r) s =
        .next (complete { s with thk := { s.thk with staging := [], stagingLen := len } } 0x1011 r stOk []))) ∧
    (let good := opForm r (8 + n) 1 && zeroAt r 9 3 && decide (8 ≤ n) && decide (n ≤ 3576) && n % 8 == 0 &&
       len == s.thk.staging.length && decide (len + n ≤ s.thk.stagingLen)
     (good = false → exec (.cfgImageData r) s = .next (complete s 0x1011 r stRange [])) ∧
     (good = true → exec (.cfgImageData r) s =
        .next (complete { s with thk := { s.thk with staging := s.thk.staging ++ bytesAt r 16 n } } 0x1011 r stOk []))) ∧
    (let good := opForm r 8 2 && decide (k < 4) && zeroAt r 10 6
     (good = false → exec (.cfgImageFromFlash r) s = .next (complete s 0x1011 r stRange [])) ∧
     (good = true → exec (.cfgImageFromFlash r) s =
        .next (complete { s with thk := { s.thk with staging := s.nv.slots.at k, stagingLen := (s.nv.slots.at k).length } }
          0x1011 r stOk []))) ∧
    (let good := opForm r 8 3 && decide (k < 4) && zeroAt r 10 6
     let whole := stagedWhole s.thk && imgDigestOk s.thk.staging && flashOk s
     (good = false → exec (.cfgImageToFlash r) s = .next (complete s 0x1011 r stRange [])) ∧
     (good = true → whole = false → exec (.cfgImageToFlash r) s = .next (complete s 0x1011 r stFailed [])) ∧
     (good = true → whole = true → exec (.cfgImageToFlash r) s =
        .next (complete { s with nv := { s.nv with slots := s.nv.slots.put k s.thk.staging } } 0x1011 r stOk [])))

/-- CFG_CONTEXT in its four rows (R159, R160, R195): what fails a check is refused with the status of that check and changes nothing; else
the context takes CTX_CTRL, CTX_PERIOD, the W1C mask of CTX_STATUS and the pending parameters that WHAT selects, a context whose EN is
cleared has no activation left (log entry 65, the model's choice), and the words that Icsis maintains are written again where a trigger
changed. -/
def Obligations.ContextCommandsWriteTheSelectedFields : Prop :=
  ∀ (r : Req) (s : State), applies 0x1012 r s →
    let q := ctxReq r
    let x := ctxAt s q.n
    let y := ctxNext q x
    let s1 := updCtx s q.n (ctxNext q)
    let s2 := if (ctxAt s1 q.n).en then s1 else dropAct s1 q.n
    let t := complete (snoopConfig (if y.ctrl ≠ x.ctrl ∨ y.period ≠ x.period then writeMaintained s2 else s2)) 0x1012 r stOk []
    let ends := fun w => match ctxCheck s r w with | some st => complete s 0x1012 r st [] | none => t
    exec (.cfgContextCtrl r) s = .next (ends 0) ∧
    exec (.cfgContextPeriod r) s = .next (ends 1) ∧
    exec (.cfgContextParam r) s = .next (ends 2) ∧
    exec (.cfgContextStatusClr r) s = .next (ends 3) ∧
    (q.n < 160 → ctxAt s1 q.n = y ∧ (bit y.ctrl 31 = false → (ctxAt s2 q.n).act = none)) ∧
    (∀ k, k ≠ q.n → ctxAt s1 k = ctxAt s k) ∧
    y.ctrl = (if q.what.testBit 0 then q.ctrl else x.ctrl) ∧ y.period = (if q.what.testBit 1 then q.period else x.period) ∧
    y.status = x.status &&& ~~~q.clr ∧ y.flags = x.flags ∧ y.acts = x.acts ∧ y.act = x.act ∧
    y.pend = (ctxWrites q).foldl (fun t p => t.put p.1 (some p.2)) x.pend

/-- CTL_STOP, CTL_MODE, CTL_SETPOINT and CFG_CURVE (R92, R108, R109, R230 to R233, R237 to R239, R246): the stop ramp with T of the payload
or STOP_T, or, in stages 1 to 3 of a catch, the stop that waits for the end of the stage; the mode and source stored for DMD's next
release, the message word stored as written with ST_CLAMPED outside the limits in force, and the curve that replaces the old one. The
ends of the stop ramp and of the stages of the catch (R109, R110, R241, R242, R245, R246, R469, R533): what each puts among the state
events, and the stage that follows. -/
def Obligations.DemandCommandsAndTheEndOfAStopTakeEffect : Prop :=
  (∀ (r : Req) (s : State),
     (applies 0x2004 r s →
       (formOk r 2 = false → exec (.ctlStop r) s = .next (complete s 0x2004 r stRange [])) ∧
       (formOk r 2 = true →
         let ms := if fieldAt r 8 2 = 0 then s.drv.stopT else fieldAt r 8 2
         exec (.ctlStop r) s = .next (complete (askStop s .command ms) 0x2004 r stOk []) ∧
         (∀ m : Fin 2, (s.dmd.catch_.at m).early = true → ((askStop s .command ms).dmd.catch_.at m).stop = true) ∧
         (catchEarly s = false → ∃ p, (askStop s .command ms).drv.ramp = some p ∧
           p.endsAt = (match s.drv.ramp with | none => s.clk.tb + 4000000 * ms | some q => min q.endsAt (s.clk.tb + 4000000 * ms)) ∧
           p.kind = (match s.drv.ramp with | none => .command | some q => q.kind)))) ∧
     (applies 0x2010 r s →
       let mode := fieldAt r 8 1
       let src := fieldAt r 9 1
       let arg := fieldAt r 10 1
       let good := formOk r 4 = true ∧ zeroAt r 11 1 = true ∧ mode ≤ 1 ∧
         ((src = 0 ∧ arg ≤ 7) ∨ (src = 1 ∧ arg ≤ 3 ∧ curveFits s arg mode = true) ∨ (src = 2 ∧ arg = 0 ∧ mode = 0 ∧ crdMember s = true))
       (¬good → exec (.ctlMode r) s = .next (complete s 0x2010 r stRange [])) ∧
       (good → exec (.ctlMode r) s =
         .next (complete { s with dmd := { s.dmd with mode := mode, src := src, srcArg := arg } } 0x2010 r stOk []))) ∧
     (applies 0x2011 r s →
       let k := fieldAt r 8 1
       let good := formOk r 8 = true ∧ k ≤ 7 ∧ zeroAt r 9 3 = true
       (sext18? (fieldAt r 12 4) = none ∨ ¬good → exec (.ctlSetpoint r) s = .next (complete s 0x2011 r stRange [])) ∧
       (∀ v, sext18? (fieldAt r 12 4) = some v → good →
         ∃ st, exec (.ctlSetpoint r) s = .next (complete { s with dmd := { s.dmd with msg := s.dmd.msg.put k v } } 0x2011 r st []) ∧
           ((∃ l ∈ setpointLimits s k, s18 v < l.1 ∨ l.2 < s18 v) → st = stClamped) ∧
           ((∀ l ∈ setpointLimits s k, l.1 ≤ s18 v ∧ s18 v ≤ l.2) → st = stOk))) ∧
     (applies 0x1026 r s →
       ∀ on hyst xs ys, curveWords r 12 2 = some [on, hyst] → curveWords r 20 33 = some xs → curveWords r 152 33 = some ys →
       let c := fieldAt r 8 1
       let f := fieldAt r 9 1
       let arg := fieldAt r 10 2
       let good := formOk r 276 = true ∧ c ≤ 3 ∧ f < 4 ∧ arg < (if f.testBit 0 then 8 else 512) ∧ 0 ≤ hyst ∧ hyst ≤ 65536 ∧
         ascending xs = true ∧ -131072 ≤ on - hyst
       (¬good → exec (.cfgCurve r) s = .next (complete s 0x1026 r stRange [])) ∧
       (good → exec (.cfgCurve r) s = .next (complete
         { s with dmd := { s.dmd with pend := s.dmd.pend.put c (some
             { written := true, insel := f.testBit 0, outkind := f.testBit 1, inarg := arg, on := on, hyst := hyst, xs := xs,
               ys := ys }) } } 0x1026 r stOk [])))) ∧
  (∀ s : State, s.drv.st = .running →
     (∀ p, s.drv.ramp = some p →
       (p.kind ≠ .monitor → catchEarly s = false → torqueZero s = true → exec .stopRampComplete s =
         .next (if p.kind = .thermal then arrive s .thermal 0x9013 else arrive s .runEnd 0x2004)) ∧
       (p.kind = .monitor → rampZero s = true → exec .stopRampComplete s = .next (arrive s .runStop 0x3030)) ∧
       (p.kind ≠ .monitor → catchEarly s = false → torqueZero s = false → exec .stopOverdue s = .next (arrive (record s 0x3020 0xFFFF 0) .runStop 0x3020)) ∧
       (p.kind = .monitor → exec .monitorStopTimeout s = .next (arrive (recBlk s 0xFFFF 0x3031) .runStop 0x3031))) ∧
     (∀ (m : Fin 2) (ns : Nat) (i : CtxImg) (l : LawInst) (y : LawRun), dmdRun s m = some (i, l, y) →
       let k := s.dmd.catch_.at m
       (k.stage = 1 → detectDue s m l ns = true →
         (k.bemf = false → exec (.catchDetectEnd m ns) s = .next
           (leaveStage (updCatch s m fun k => { k with rev := catchRev s i l y (wordNow s i l.spdSrc) }) m (wordNow s i l.spdSrc))) ∧
         (k.bemf = true → k.fwd = true → k.bwd = true → exec (.catchDetectEnd m ns) s = .next (catchAbort s m)) ∧
         (k.bemf = true → (k.fwd = false ∨ k.bwd = false) →
           let w := emfSpeed s m l.catchWin
           let s1 := updCatch s m fun k => { k with rev := catchRev s i l y w }
           (k.samples = 0 ∨ (k.sumV : Int) < s18 (paramAt s i.num 9) * k.samples →
             (k.stop = true → exec (.catchDetectEnd m ns) s = .next (endStopped s1 m)) ∧
             (k.stop = false → ∃ t, exec (.catchDetectEnd m ns) s = .next t ∧ t = { s with dmd := t.dmd } ∧
               (t.dmd.catch_.at m).stage = 2 ∧ (t.dmd.catch_.at m).still = true ∧ (t.dmd.catch_.at m).angle = k.angle)) ∧
           (k.samples ≠ 0 → s18 (paramAt s i.num 9) * k.samples ≤ (k.sumV : Int) →
             exec (.catchDetectEnd m ns) s = .next
               (leaveStage (alignObs s1 l (k.angle.toNat + if w < 0 then 65536 else -65536)) m w)))) ∧
       (k.stage = 1 → detectDue s m l ns = false → exec (.catchDetectEnd m ns) s = .next s) ∧
       (k.stop = true → s.drv.ramp = none → ∀ w : Int, ∃ t, leaveStage s m w = t ∧ t = { s with dmd := t.dmd, drv := t.drv } ∧
         t.drv.events = s.drv.events ++ [if k.stopThermal then ⟨.thermal, 0x9013⟩ else ⟨.runEnd, 0x2004⟩] ∧
         (t.dmd.catch_.at m).stage = 0) ∧
       (k.stage = 2 →
         exec (.alignEnd m) s = .next (leaveStage (alignObs s l 0) m 0) ∧
         (∀ o, angObs s l = some o → o < 4 →
           ((alignObs s l 0).pos.obs.at o).aligned = true ∧ ((alignObs s l 0).pos.obs.at o).abs = true))))

/-- CFG_ACQ (R255 to R258, R265, R269, R274, R276, R277, R279 to R282): each row's ranges, ST_STATE for a change of RWA fields outside
STANDBY and CONFIGURED, ST_BUSY for a deferred calibration, and what it sets. CFG_DSM (R283 to R285, R288, R290, R291): the clocks, with
a settling anew of the inputs whose clock changes; an input's records, settling anew where it is newly enabled or its clock changes; the
W1C mask of DSM_STAT. -/
def Obligations.ConverterConfigurationTakesEffect : Prop :=
  (∀ (r : Req) (s : State), applies 0x1020 r s →
     let g := fieldAt r 9 1
     let f := fieldAt r 10 1
     let n := fieldAt r 11 1
     let w : W32 := BitVec.ofNat 32 (fieldAt r 12 4)
     let old := (s.acq.groups.at g).want
     let es : List W64 := (List.range n).map fun i => BitVec.ofNat 64 (fieldAt r (16 + 8 * i) 8)
     let inj : Tab 4 W64 := Vector.ofFn fun i : Fin 4 => BitVec.ofNat 64 (fieldAt r (16 + 8 * i.val) 8)
     let seq := es.zipIdx.foldl (fun t p => t.put (f + p.2) p.1) old.2.1
     exec (.cfgAcqGroup r) s = .next (jobEnd 0x1020 r s
       (opForm r 40 0 && decide (g < 4) && zeroAt r 10 2 && gcfgOk w && inj.toList.all injOk && groupOk s g (w, old.2.1, inj))
       ((sameOutside 0x0000FF00 w old.1 && inj == old.2.2) || rwaState s) stState (setGroup s g (w, old.2.1, inj))) ∧
     exec (.cfgAcqSeq r) s = .next (jobEnd 0x1020 r s
       (opForm r (8 + 8 * n) 1 && decide (g < 4) && decide (1 ≤ n) && decide (f + n ≤ 64) && zeroAt r 12 4 && es.all seqOk &&
         groupOk s g (old.1, seq, old.2.2))
       ((old.1, seq, old.2.2) == old || rwaState s) stState (setGroup s g (old.1, seq, old.2.2))) ∧
     exec (.cfgAcqScale r) s = .next (jobEnd 0x1020 r s
       (opForm r (8 + 8 * n) 2 && decide (g < 4) && decide (1 ≤ n) && decide (f + n ≤ 68) && zeroAt r 12 4 &&
         es.all fun e => fld e 63 61 == 0 && fld e 38 18 == 0)
       true stOk (updGroup s g fun x => { x with scale := es.zipIdx.foldl (fun t p => t.put (f + p.2) p.1) x.scale })) ∧
     exec (.cfgAcqCal r) s = .next (jobEnd 0x1020 r s (opForm r 8 3 && decide (g < 16) && zeroAt r 10 6)
       (!((List.range 4).filter fun k => g.testBit k).any (calDeferred s)) stBusy
       (((List.range 4).filter fun k => g.testBit k).foldl (fun s k => updGroup s k fun x => { x with calDue := true }) s)) ∧
     exec (.cfgAcqStatusClr r) s = .next (jobEnd 0x1020 r s (opForm r 8 4 && decide (g < 4) && zeroAt r 10 2 && w &&& 0xFFFFFFE0 == 0) true stOk
       (updGroup s g fun x =>
         let st := x.stat &&& ~~~w
         let st := if bit w 1 then setFld st 31 24 0 else st
         { x with stat := if bit w 2 then setFld st 23 16 0 else st })) ∧
     exec (.cfgAcqSwtrig r) s = .next (jobEnd 0x1020 r s (opForm r 8 5 && zeroAt r 9 3) true stOk
       ((List.range 16).foldl (fun s k =>
           if (fieldAt r 12 4).testBit (k + 4) && jTrig ((s.acq.groups.at (k / 4)).inj.at (k % 4)) == 0x40
           then injTrigger s (k / 4) (k % 4) else s)
         ((List.range 4).foldl (fun s k =>
           if (fieldAt r 12 4).testBit k && gTrig (s.acq.groups.at k).gcfg == 0x40 then seqTrigger s k else s) s)))) ∧
  (∀ (r : Req) (s : State), applies 0x1021 r s →
     let clks : Tab 4 W32 := Vector.ofFn fun i : Fin 4 => BitVec.ofNat 32 (fieldAt r (16 + 4 * i.val) 4)
     let i := fieldAt r 9 1
     let c : W64 := BitVec.ofNat 64 (fieldAt r 16 8)
     let f : W64 := BitVec.ofNat 64 (fieldAt r 24 8)
     let sc : W64 := BitVec.ofNat 64 (fieldAt r 32 8)
     let d := s.acq.dsm.at i
     let anew := bit c 63 && (!bit d.cfg 63 || fld c 62 61 != fld d.cfg 62 61)
     let s' := updDsm s i fun d =>
       { d with cfg := c, fth := f, scale := sc, settle := if anew then 3 else d.settle, count := if anew then 0 else d.count,
                stuck := if anew then false else d.stuck }
     exec (.cfgDsmClocks r) s = .next (jobEnd 0x1021 r s
       (opForm r 24 0 && zeroAt r 9 7 && clks.toList.all dsmClkOk && s.acq.dsm.toList.all fun d => dsmTimeOk clks d.cfg)
       (clks == s.acq.clks || rwaState s) stState
       { s with acq := { s.acq with
           clks := clks
           dsm := s.acq.dsm.map fun d =>
             if bit d.cfg 63 && clks.at (fld d.cfg 62 61) != s.acq.clks.at (fld d.cfg 62 61) then { d with settle := 3 } else d } }) ∧
     exec (.cfgDsmInput r) s = .next (jobEnd 0x1021 r s (opForm r 32 1 && decide (i < 12) && zeroAt r 10 6 && dsmRecOk s c f sc && slotsOk s')
       ((c == d.cfg && f == d.fth) || rwaState s) stState s') ∧
     exec (.cfgDsmStatusClr r) s = .next (jobEnd 0x1021 r s (opForm r 8 2 && decide (i < 12) && zeroAt r 10 2 && decide (fieldAt r 12 4 < 8)) true stOk
       (updDsm s i fun d => { d with stat := d.stat &&& ~~~(BitVec.ofNat 8 (fieldAt r 12 4)) })))

/-- Triggers and holds of a running converter group (R256, R258 to R261, R266 to R269, R276): a sequence trigger starts the waiting entry
of an idle group, or goes ahead of an injected entry held directly in its CLK_ACQ cycle; else it waits, or is dropped with OVERRUN, its
count and fault 0x6001; an injected trigger is held by an idle group, waits, or is dropped with INJDROP, its count and fault 0x6002; a
synchronous hold takes the lowest pending injected entry first, unless the run goes first, then the run at the group's place. TSAMP of a
synchronous hold lies within 2 ticks of the hold, by a free value (R271). CONVERSION_COMPLETE (R262, R270 to R274): the result entry
with its tag, OVR and SAT of ACQ_GSTAT, the value no longer held, and where STREAM is set the scaled, saturated word with its flag word
delivered to the entry's stream slot. -/
def Obligations.ConvertersTriggerConvertAndDeliver : Prop :=
  (∀ (g j : Fin 4) (s : State), groupRuns s g = true →
     let x := s.acq.groups.at g
     (gTrig x.gcfg ≠ 0 →
       let τ := edgeTick s (gTrig x.gcfg)
       let y := x.yieldInj (τ / 5)
       let starts := x.idle || (y.first && y.waits && !y.pend)
       (x.held = none → y = x) ∧
       (∀ h, x.held = some h → h.inj = true → h.direct = true → h.tsamp / 5 = τ / 5 →
         y = { x with held := none, jpend := h.idx.foldl (fun p k => setBit p k true) x.jpend, first := true }) ∧
       (starts = true → fld (y.seq.at y.pos) 43 32 = 0 →
         exec (.sequenceTrigger g) s = .next (updGroup s g fun _ =>
           { y with seqCount := y.seqCount + 1, started := true, startAt := none, first := false,
                    held := some { inj := false, idx := y.run, tsamp := τ, cal := y.calBusy, direct := true } })) ∧
       (starts = true → fld (y.seq.at y.pos) 43 32 ≠ 0 →
         exec (.sequenceTrigger g) s = .next (updGroup s g fun _ =>
           { y with seqCount := y.seqCount + 1, started := true, startAt := some (τ / 5) })) ∧
       (starts = false → x.pend = false → exec (.sequenceTrigger g) s = .next (updGroup s g fun x => { x with pend := true })) ∧
       (starts = false → x.pend = true → bit x.stat 1 = false →
         ∃ u, u = updGroup s g (fun x => { x with stat := setBit (incSat x.stat 31 24) 1 true }) ∧
           exec (.sequenceTrigger g) s = .next (record u 0x6001 g (u.acq.groups.at g).gstat))) ∧
     (jTrig (x.inj.at j) ≠ 0 →
       let τ := edgeTick s (jTrig (x.inj.at j))
       (bit x.jpend j = true → bit x.stat 2 = false →
         ∃ u, u = updGroup s g (fun x => { x with stat := setBit (incSat x.stat 23 16) 2 true }) ∧
           exec (.injectedTrigger g j) s = .next (record u 0x6002 g (u.acq.groups.at g).gstat)) ∧
       (bit x.jpend j = false → x.idle = true →
         exec (.injectedTrigger g j) s = .next (updGroup s g fun x =>
           { x with held := some { inj := true, idx := [j.val], tsamp := τ, cal := false, direct := true } })) ∧
       (bit x.jpend j = false → x.idle = false →
         exec (.injectedTrigger g j) s = .next (updGroup s g fun x =>
           { x with jpend := setBit x.jpend j true, first := x.first || x.startAt == some (τ / 5) }))) ∧
     (x.next = none → x.held = none → x.test = false →
       let lowest := (List.range 4).find? fun k => bit x.jpend k
       (∀ k, x.first = false → lowest = some k →
         ∃ t h, exec (.runHold g) s = .next t ∧ t = { s with acq := t.acq, free := s.free + 1 } ∧
           t.acq.groups.at g = { x with held := some h, jpend := setBit x.jpend k false } ∧ h.inj = true ∧ h.idx = [k] ∧
           h.cal = x.calBusy ∧ h.direct = false ∧ s.clk.cycles ≤ h.tsamp + 2 ∧ h.tsamp ≤ s.clk.cycles + 2) ∧
       (x.first = true ∨ lowest = none → x.calBusy = false → bit (x.seq.at x.pos) 63 = false ∨ x.started = true →
         ∃ t h, exec (.runHold g) s = .next t ∧ t = { s with acq := t.acq, free := s.free + 1 } ∧
           t.acq.groups.at g = { x with held := some h, started := true, startAt := none, first := false } ∧ h.inj = false ∧
           h.idx = x.run ∧ h.cal = false ∧ h.direct = false ∧ s.clk.cycles ≤ h.tsamp + 2 ∧ h.tsamp ≤ s.clk.cycles + 2) ∧
       (x.first = true ∨ lowest = none → x.calBusy = false → bit (x.seq.at x.pos) 63 = true → x.started = false → x.rep = 0 →
         x.pend = true →
         ∃ t h, exec (.runHold g) s = .next t ∧ t = { s with acq := t.acq, free := s.free + 1 } ∧
           t.acq.groups.at g = { x with held := some h, started := true, pend := false, seqCount := x.seqCount + 1, startAt := none,
                                        first := false } ∧
           h.inj = false ∧ h.idx = x.run))) ∧
  (∀ (g : Fin 4) (inj : Bool) (i : Fin 64) (code : W18) (ovr : Bool) (h : Held) (s : State),
     (s.acq.groups.at g).held = some h → h.inj = inj → i.val ∈ h.idx → stageReady (s.acq.groups.at g) h i = true →
     let x := s.acq.groups.at g
     let e := if inj then x.inj.at i else x.seq.at i
     let k := if inj then 64 + i.val else i.val
     let w := scaled (x.scale.at k) (if bit e 60 then code.toInt else code.toNat)
     ∃ u, exec (.conversionComplete g inj i code ovr) s = .next
         (if bit e 31 then
           deliver u (routeAcq u g) (fld e 30 22) (w18 (sat18 w))
             (BitVec.ofNat 18 (b2n ovr * 2 ^ 17 + b2n inj * 2 ^ 16 + b2n h.cal * 2 ^ 15 + i.val * 2 ^ 8 + x.seqCount.toNat))
          else u) ∧
       u = { s with acq := u.acq } ∧ (∀ m, m ≠ g.val → u.acq.groups.at m = s.acq.groups.at m) ∧ u.acq.dsm = s.acq.dsm ∧
       (u.acq.groups.at g).results = x.results.put k
         (if bit e 61 then BitVec.ofNat 32 (code.toNat * 2 ^ 14) else if bit e 60 then BitVec.signExtend 32 code else code.zeroExtend 32,
          BitVec.ofNat 32 (b2n ovr * 2 ^ 31 + b2n inj * 2 ^ 30 + b2n h.cal * 2 ^ 29 + i.val * 2 ^ 23 + g.val * 2 ^ 21 + h.tsamp % 2 ^ 21)) ∧
       (h.idx = [i.val] → (u.acq.groups.at g).held = none) ∧
       (h.idx.filter (fun n => n ≠ i.val) ≠ [] →
         (u.acq.groups.at g).held = some { h with idx := h.idx.filter fun n => n ≠ i.val }) ∧
       bit (u.acq.groups.at g).stat 0 = (bit x.stat 0 || ovr) ∧
       bit (u.acq.groups.at g).stat 4 = (bit x.stat 4 || (bit e 31 && decide (sat18 w ≠ w))))

/-- Calibrations (R275 to R278): a due one starts at a conversion boundary with no injected entry pending, is put off in ARMED and RUNNING
for a group that feeds PWM contexts, and ends with new coefficients or with CALFAIL and fault 0x6003. The delta-sigma inputs while they
run (R283, R285 to R289): the result entry from the sum of a sinc3 window, delivered at once where DTRIG is 0x00 and else at its event; a
stuck input sets STUCK with fault 0x6010 and, with the fast path on, FTRIP and its trip line, and a sum that is not at full scale ends
it; the sinc2 outputs are taken in order, each normalised from its sum. -/
def Obligations.CalibrationAndDeltaSigmaEventsTakeEffect : Prop :=
  (∀ (g : Fin 4) (s : State),
     let x := s.acq.groups.at g
     (s.drv.st ≠ .off → x.calBusy = false → (x.calDue = true ∨ fld x.gcfg 15 8 ≠ 0) →
       (calDeferred s g = true → exec (.calibrationStart g) s = .next (updGroup s g fun x => { x with calDue := true })) ∧
       (calDeferred s g = false → x.held = none → x.jpend = 0 → x.test = false →
         exec (.calibrationStart g) s = .next (updGroup s g fun x => { x with calBusy := true, calDue := false })) ∧
       (calDeferred s g = false → x.held ≠ none ∨ x.jpend ≠ 0 ∨ x.test = true → exec (.calibrationStart g) s = .next s)) ∧
     (x.calBusy = true →
       exec (.calibrationComplete g true) s =
         .next (updGroup s g fun x => { x with calBusy := false, calGen := x.calGen + 1 }.takePend) ∧
       ∃ u, u = updGroup s g (fun x => { { x with calBusy := false }.takePend with stat := setBit x.stat 3 true }) ∧
         exec (.calibrationComplete g false) s = .next (record u 0x6003 g (u.acq.groups.at g).gstat))) ∧
  (∀ (i : Fin 12) (s : State), dsmRuns s i = true →
     let d := s.acq.dsm.at i
     let r := 16 * 2 ^ fld d.cfg 55 53
     (∀ sum : Int, |sum| ≤ ((r ^ 3 : Nat) : Int) →
       ∃ u, exec (.dsmResult i sum) s = .next (if fld d.cfg 42 35 = 0 then dsmDeliver u i else u) ∧
         u = { s with acq := u.acq, free := s.free + 2 } ∧ (∀ m, m ≠ i.val → u.acq.dsm.at m = s.acq.dsm.at m) ∧
         u.acq.groups = s.acq.groups ∧ (u.acq.dsm.at i).settle = d.settle - 1 ∧
         (∀ q : Int, sum * 2 ^ 17 = q * (r : Int) ^ 3 → q < 131072 → (u.acq.dsm.at i).word0 = BitVec.ofInt 32 q) ∧
         (sum = ((r ^ 3 : Nat) : Int) → (u.acq.dsm.at i).word0 = 0x1FFFF#32) ∧
         bit (u.acq.dsm.at i).stat 0 = (bit d.stat 0 || decide (|sum| = ((r ^ 3 : Nat) : Int)))) ∧
     (fld d.cfg 42 35 ≠ 0 → exec (.dsmDelivery i) s = .next (dsmDeliver s i)) ∧
     (∀ sum : Int, |sum| < ((r ^ 3 : Nat) : Int) →
       ∃ t, exec (.dsmResult i sum) s = .next t ∧ (t.acq.dsm.at i).stuck = false ∧ (d.stuck = true → bit (t.acq.dsm.at i).stat 1 = false)) ∧
     (d.stuck = false →
       ∃ u, u = updDsm s i (fun d => { d with stuck := true, stat := setBit d.stat 1 true }) ∧
         ∃ v, v = record u 0x6010 i ((u.acq.dsm.at i).status.zeroExtend 32) ∧
           exec (.dsmStuck i) s = .next
             (if fld d.cfg 32 29 = 0 then v
              else assertTrip (updDsm v i fun d => { d with stat := setBit d.stat 2 true }) i)) ∧
     (fld d.cfg 32 29 ≠ 0 →
       let rf := 4 * 2 ^ fld d.cfg 34 33
       let full : Int := ((rf ^ 2 : Nat) : Int)
       (∀ sums : List Int, exec (.dsmFastTrip i sums) s =
         .next ((sums.filter fun x => decide (|x| ≤ full)).foldl (fun s x => fastOut s i x) s)) ∧
       (∀ sum q : Int, |sum| ≤ full → sum * 2 ^ 17 = q * full → sinc2 rf sum = if q = 131072 then 131071 else q) ∧
       (∀ sum : Int, |sum| ≤ full → s18 (BitVec.ofNat 18 (fld d.fth 17 0)) ≤ sinc2 rf sum →
         sinc2 rf sum ≤ s18 (BitVec.ofNat 18 (fld d.fth 35 18)) →
         ∃ t, exec (.dsmFastTrip i [sum]) s = .next t ∧ (t.acq.dsm.at i).count = 0 ∧ (t.acq.dsm.at i).fast = sinc2 rf sum ∧
           bit t.prt.tripLine i = (d.stuck && |sum| == full) ∧ t = { s with acq := t.acq, prt := t.prt })))

/-- CFG_POS (R253, R257, R297, R307, R312, R318, R321, R323, R326 to R333): each row's ranges, ST_STATE for a change of RWA fields outside
STANDBY and CONFIGURED, and the record it sets; enabling a unit, or a new source, starts it anew. -/
def Obligations.PositionConfigurationTakesEffect : Prop :=
  ∀ (r : Req) (s : State), applies 0x1022 r s →
    let u := fieldAt r 9 1
    let c : W64 := BitVec.ofNat 64 (fieldAt r 16 8)
    let h : W32 := BitVec.ofNat 32 (fieldAt r 16 4)
    let b : W64 := BitVec.ofNat 64 (fieldAt r 24 8)
    let wb : W32 := BitVec.ofNat 32 (fieldAt r 32 4)
    let m : W32 := BitVec.ofNat 32 (fieldAt r 12 4)
    let k := fieldAt r 10 1
    let rsv := s.pos.rsv.at u
    let newRsv := bit c 63 && !bit rsv.cfg 63
    let enc := s.pos.enc.at u
    let newEnc := bit c 63 && !bit enc.cfg 63
    let hal := s.pos.hal.at u
    let newHal := bit h 31 && !bit hal.cfg 31
    let first := if hal.lines != 0 && hal.lines != 7 then some (hallSector h hal.lines.toNat) else none
    let obs := s.pos.obs.at u
    let s' := updObs s u fun x => x.adopt c b wb
    exec (.cfgPosRsv r) s = .next (jobEnd 0x1022 r s
      (posForm r 16 0 2 && decide (2000 ≤ fld c 62 48) && decide (fld c 62 48 ≤ 20000) && decide (fld c 31 24 < fld c 23 16) &&
        fld c 15 0 == 0 && !(bit c 63 && rsvClash (s.acq.groups.at 3).want u) &&
        s.pos.obs.toList.all fun o => obsSrc o.cfgA != u || decide (5 * obsBw o.cfgA ≤ fld c 62 48))
      (c == rsv.cfg || rwaState s) stState
      (updRsv s u fun x => { x with cfg := c, bad := if newRsv then 0 else x.bad, good := if newRsv then 0 else x.good, los := x.los && !newRsv })) ∧
    exec (.cfgPosEnc r) s = .next (jobEnd 0x1022 r s
      (posForm r 16 1 4 && fld c 61 60 != 3 && fld c 55 54 != 3 && decide (16 ≤ fld c 52 32) && decide (fld c 52 32 ≤ 2 ^ 20) && fld c 15 0 == 0)
      (c == enc.cfg || rwaState s) stState
      (updEnc (if bit c 63 then s else mapObs s fun o => if obsSrc o.cfgA = 2 + u then { o with aligned := false, abs := false } else o) u
        fun x => { x with cfg := c, cnt := x.cnt % fld c 52 32, idxRef := if newEnc then 0 else x.idxRef % fld c 52 32,
                          stat := if newEnc then setBit x.stat 7 false else x.stat, lastEdge := if newEnc then none else x.lastEdge,
                          sick := x.sick && !newEnc, illAt := if newEnc then [] else x.illAt })) ∧
    exec (.cfgPosCmp r) s = .next (jobEnd 0x1022 r s
      (posForm r 16 2 4 && decide (fld c 59 40 < enc.cpr) && decide (fld c 39 20 < enc.cpr) && fld c 61 60 == 0 && fld c 15 0 == 0)
      true stOk (updEnc s u fun x => { x with cmp := c, stat := if behind x c then setBit x.stat 4 true else x.stat })) ∧
    exec (.cfgPosHal r) s = .next (jobEnd 0x1022 r s
      (posForm r 12 3 2 && ((List.range 6).map fun i => hallSector h (i + 1)).all (fun i => decide (i ≤ 5)) &&
        decide ((List.range 6).map fun i => hallSector h (i + 1)).Nodup && fld h 4 0 == 0)
      (h == hal.cfg || rwaState s) stState
      (updHal (match newHal, first with | true, some k => hallCentre s u k | _, _ => s) u fun x =>
        { x with cfg := h, sector := if newHal then first else x.sector, fine := x.fine && !newHal })) ∧
    exec (.cfgPosObs r) s = .next (jobEnd 0x1022 r s
      (posForm r 28 4 4 && obsRecOk s u c b wb && slotsOk s' && basesOk s'.pos.obs.toList (ctxBases s))
      ((sameOutside 0x0000FFFF00000000 c obs.cfgA && b == obs.cfgB && wb == obs.wb) || rwaState s) stState
      (setObs s u c b wb)) ∧
    (obs.en = true → bit c 63 = true → obsSrc c = obsSrc obs.cfgA → setObs s u c b wb = s') ∧
    exec (.cfgPosPla r) s = .next (jobEnd 0x1022 r s
      (posForm r 16 5 2 && fld c 62 61 != fld c 60 59 && decide (1 ≤ fld c 22 15) && fld c 14 0 == 0)
      (c == (s.pos.pla.at u).cfg || rwaState s) stState
      { s with pos := { s.pos with pla := s.pos.pla.put u (if c == (s.pos.pla.at u).cfg then s.pos.pla.at u else { cfg := c }) } }) ∧
    exec (.cfgPosStatusClr r) s = .next (jobEnd 0x1022 r s
      (opForm r 8 6 && ((k == 0 && decide (u < 4) && m &&& 0xFFFC0000 == 0) || (k == 1 && decide (u < 4) && m &&& 0x0000FE01 == 0) ||
        (k == 2 && decide (u < 2) && m &&& 0x00FFFFFD == 0)) && zeroAt r 11 1)
      true stOk
      (if k = 0 then updObs s u fun o => { o with sat := o.sat && !bit m 2, plaus := o.plaus && !bit m 1, track := o.track && !bit m 0 }
       else if k = 1 then updEnc s u fun x => { x with stat := encClear x.stat m }
       else updHal s u fun x => { x with stat := encClear x.stat m }))

/-- CFG_PRT (R425, R430, R434, R436, R439 to R445, R477): each row's ranges, the bound checks on DMD contexts, ST_STATE for a change of RWA
fields outside STANDBY and CONFIGURED, ST_TIGHTEN_ONLY for a TO field that would loosen, ST_BUSY during a discharge, ST_FAILED with
fault 0x3050 where Blackthorn's echo differs, and the record it sets. -/
def Obligations.ProtectionConfigurationTakesEffect : Prop :=
  ∀ (r : Req) (s : State), applies 0x1025 r s →
    let c : W64 := BitVec.ofNat 64 (fieldAt r 16 8)
    let k : W32 := BitVec.ofNat 32 (fieldAt r 24 4)
    let w : W32 := BitVec.ofNat 32 (fieldAt r 16 4)
    let m : W32 := BitVec.ofNat 32 (fieldAt r 12 4)
    let n := fieldAt r 9 1
    (let good := prtForm s r 16 0 && prtCtlOk s c
     let may := sameOutside 0x0200FFFF00000000 c s.prt.ctl || rwaState s
     (∀ b, good = false → exec (.cfgPrtCtl r b) s = .next (complete s 0x1025 r stRange [])) ∧
     (∀ b, good = true → may = false → exec (.cfgPrtCtl r b) s = .next (complete s 0x1025 r stState [])) ∧
     (∀ b, good = true → may = true → fld s.prt.ctl 47 32 < fld c 47 32 →
        exec (.cfgPrtCtl r b) s = .next (complete s 0x1025 r stTighten [])) ∧
     (∀ b, good = true → may = true → fld c 47 32 ≤ fld s.prt.ctl 47 32 → s.prt.dis ≠ .idle →
        exec (.cfgPrtCtl r b) s = .next (complete s 0x1025 r stBusy [])) ∧
     (good = true → may = true → fld c 47 32 < fld s.prt.ctl 47 32 → s.prt.dis = .idle →
        exec (.cfgPrtCtl r false) s = .next (complete (record s 0x3050 0xFFFF 0) 0x1025 r stFailed [])) ∧
     (∀ b, good = true → may = true → fld c 47 32 ≤ fld s.prt.ctl 47 32 → s.prt.dis = .idle →
        (b = true ∨ fld c 47 32 = fld s.prt.ctl 47 32) →
        exec (.cfgPrtCtl r b) s = .next (complete (setPrtCtl s c) 0x1025 r stOk []) ∧
        (setPrtCtl s c).prt.ctl = c ∧ (setPrtCtl s c).saf.blkLim.ascSpd = fld c 47 32 ∧
        (setPrtCtl s c).saf.icsLim.ascSpd = fld c 47 32)) ∧
    (let good := prtForm s r 20 1 && dclOk s c k
     let may := (sameOutside 0xFFE0000000000000 c s.prt.dcl && k == s.prt.dck) || rwaState s
     (good = false → exec (.cfgPrtDcl r) s = .next (complete s 0x1025 r stRange [])) ∧
     (good = true → may = false → exec (.cfgPrtDcl r) s = .next (complete s 0x1025 r stState [])) ∧
     (good = true → may = true → tighterDown (ovt s) (fld c 63 53) = false →
        exec (.cfgPrtDcl r) s = .next (complete s 0x1025 r stTighten [])) ∧
     (good = true → may = true → tighterDown (ovt s) (fld c 63 53) = true →
        exec (.cfgPrtDcl r) s = .next (complete { s with prt := { s.prt with dcl := c, dck := k } } 0x1025 r stOk []))) ∧
    exec (.cfgPrtChop r) s = .next (jobEnd 0x1025 r s
      (prtForm s r 16 2 && fld c 18 0 == 0 && fld c 62 56 != 0 && fld c 55 49 != 0 && fld c 26 19 != 0 &&
        (decide (fld c 48 45 ≤ 11) || fld c 48 45 == 15) && dmdOk s (bit c 63))
      (c == s.prt.chop || rwaState s) stState { s with prt := { s.prt with chop := c } }) ∧
    exec (.cfgPrtTrip r) s = .next (jobEnd 0x1025 r s
      (prtForm s r 16 3 && fld c 15 0 == 0 &&
        (List.range 12).all fun i => decide (fld c (19 + 4 * i) (16 + 4 * i) ≤ 6) || fld c (19 + 4 * i) (16 + 4 * i) == 15)
      (c == s.prt.trip || rwaState s) stState { s with prt := { s.prt with trip := c } }) ∧
    exec (.cfgPrtCbc r) s = .next (jobEnd 0x1025 r s (prtForm s r 12 4 && decide (n < 4) && fld w 8 0 == 0 && decide (fld w 30 27 ≤ 11))
      true stOk { s with prt := { s.prt with
        cbc := s.prt.cbc.put n w
        cbcLine := setBit s.prt.cbcLine n (bit s.prt.cbcLine n && w == s.prt.cbc.at n) } }) ∧
    (let cleared := { s with prt := { s.prt with flags := s.prt.flags &&& ~~~m } }
     let soff (s : State) (ch : Nat) : State := updGdv s ch fun g => { g with stat := setBit g.stat 0 false }.blocked
     exec (.cfgPrtStatusClr r) s = .next (jobEnd 0x1025 r s (prtForm s r 8 5 && m &&& 0xFFE000FF == 0) (!(bit m 17 && driving s.drv.st)) stState
       (let t := if bit m 17 then soff (soff cleared 12) 13 else cleared
        if bit m 17 && bit s.prt.flags 17 then publishRegen t else t)))

/-- Resolver, encoder and Hall events while their unit runs (R299 to R309, R315 to R317): the amplitude check and LOS of a resolver with its
measurement; a count step of an encoder with its wrap and direction, an illegal transition counted with fault 0x7001; the index latched,
the first as reference; a receiver fault with 0x7003 until it clears; and a Hall change to an adjacent sector, or an illegal one counted
with fault 0x7020, the first legal state placing the observers at its centre, a skip clearing FINE. Observers and plausibility checks while they run (R295, R296, R318, R321, R324, R325): an update of a healthy source
keeps VALID to 64 measurements and no tracking fault, one without makes the observer invalid and, where health is lost, the count of
measurements begins anew; a latch delivers only the entries that are
enabled; a plausibility check counts its failures up to N and then sets PLAUS of both observers with fault 0x7031. -/
def Obligations.PositionSensorsAndObserversTakeEffect : Prop :=
  (∀ s : State,
     (∀ (u : Fin 2) (sn cs : W18) (neg : Bool), bit (s.pos.rsv.at u).cfg 63 = true → unitsRun s = true →
       let x := s.pos.rsv.at u
       let q := (s18 sn * s18 sn + s18 cs * s18 cs).toNat
       let lo := fld x.cfg 31 24 * 512
       let hi := fld x.cfg 23 16 * 512
       ∃ t, exec (.resolverSample u sn cs neg) s = .next t ∧
         t = { s with pos := t.pos, pwm := t.pwm, io := t.io, trc := t.trc, free := s.free + 2 } ∧
         (lo * lo ≤ q ∧ q ≤ hi * hi → (t.pos.rsv.at u).good = min 16 (x.good + 1) ∧ (t.pos.rsv.at u).bad = 0) ∧
         (¬(lo * lo ≤ q ∧ q ≤ hi * hi) → (t.pos.rsv.at u).good = 0 ∧ (t.pos.rsv.at u).bad = min 2 (x.bad + 1) ∧ t.pos.obs = s.pos.obs) ∧
         ((t.pos.rsv.at u).los = if x.los then decide ((t.pos.rsv.at u).good < 16) else decide ((t.pos.rsv.at u).bad = 2)) ∧
         t.pwm.trigAt.at (0x21 + u) = some s.clk.tb) ∧
     (∀ e : Fin 4, encRuns s e = true →
       let x := s.pos.enc.at e
       (∀ up : Bool, let rev := up == bit x.cfg 62
         ∃ t, exec (.encoderCountStep e up false) s = .next t ∧
           t = { s with pos := t.pos, pwm := t.pwm, free := s.free + 1 } ∧ bit (t.pos.enc.at e).stat 5 = rev ∧
           (t.pos.enc.at e).lastEdge = some (s.clk.tb, rev) ∧
           (rev = false → (t.pos.enc.at e).cnt = if x.cnt + 1 = x.cpr then 0 else x.cnt + 1) ∧
           (rev = true → (t.pos.enc.at e).cnt = if x.cnt = 0 then x.cpr - 1 else x.cnt - 1)) ∧
       (∀ up : Bool, ∃ t, exec (.encoderCountStep e up true) s = .next t ∧
           t = { s with pos := t.pos, io := t.io, trc := t.trc } ∧ bit (t.pos.enc.at e).stat 1 = true ∧ (t.pos.enc.at e).cnt = x.cnt ∧
           fld (t.pos.enc.at e).stat 31 24 = min 255 (fld x.stat 31 24 + 1)) ∧
       (∀ f a b : Bool, f = bit x.cfg 53 → ¬(fld x.cfg 61 60 = 1 ∧ ¬(a = true ∧ b = true)) → ¬(fld x.cfg 61 60 = 2 ∧ (a = true ∨ b = true)) →
         ∃ t, exec (.indexEdge e f a b) s = .next t ∧ t = { s with pos := t.pos, io := t.io, trc := t.trc, free := t.free } ∧
           (t.pos.enc.at e).icnt = x.cnt ∧ (t.pos.enc.at e).irevs = x.revs ∧
           (bit x.stat 7 = false → (t.pos.enc.at e).idxRef = x.cnt ∧ bit (t.pos.enc.at e).stat 7 = true ∧
             bit (t.pos.enc.at e).stat 6 = bit x.stat 5) ∧
           (bit x.stat 7 = true → (t.pos.enc.at e).idxRef = x.idxRef ∧ t.free = s.free)) ∧
       (bit x.stat 8 = false →
         ∃ v, v = updEnc s e (fun x => { x with stat := setBit x.stat 8 true }) ∧
           exec (.encLine e) s = .next (record v 0x7003 e (v.pos.enc.at e).stat)) ∧
       exec (.encLineClear e) s = .next (updEnc s e fun x => { x with stat := setBit x.stat 8 false })) ∧
     (∀ (h : Fin 2) (lines : BitVec 3), bit (s.pos.hal.at h).cfg 31 = true → unitsRun s = true →
       let x := s.pos.hal.at h
       let k := hallSector x.cfg lines.toNat
       (∀ j, x.sector = some j → lines ≠ 0 → lines ≠ 7 → (k ≠ j ∧ (k = (j + 1) % 6 ∨ j = (k + 1) % 6)) →
         exec (.hallChange h lines) s = .next
           (measure (updHal s h fun x => { x with lines := lines, sector := some k, fine := true }) (6 + h)
             (((if k = (j + 1) % 6 then k else j : Nat) : Rat) / 6))) ∧
       (lines = 0 ∨ lines = 7 →
         ∃ t, exec (.hallChange h lines) s = .next t ∧ t = { s with pos := t.pos, io := t.io, trc := t.trc } ∧
           (t.pos.hal.at h).sector = x.sector ∧ bit (t.pos.hal.at h).stat 1 = true ∧ (t.pos.hal.at h).fine = x.fine ∧
           fld (t.pos.hal.at h).stat 31 24 = min 255 (fld x.stat 31 24 + 1)) ∧
       (∀ j, x.sector = some j → lines ≠ 0 → lines ≠ 7 → k ≠ j → k ≠ (j + 1) % 6 → j ≠ (k + 1) % 6 →
         ∃ t, exec (.hallChange h lines) s = .next t ∧ t = { s with pos := t.pos, io := t.io, trc := t.trc } ∧
           (t.pos.hal.at h).sector = some k ∧ bit (t.pos.hal.at h).stat 1 = true ∧ (t.pos.hal.at h).fine = false ∧ t.pos.obs = s.pos.obs) ∧
       (x.sector = none → lines ≠ 0 → lines ≠ 7 → exec (.hallChange h lines) s =
         .next (hallCentre (updHal s h fun x => { x with lines := lines, sector := some k }) h k)))) ∧
  (∀ s : State, unitsRun s = true →
     (∀ o : Fin 4, (s.pos.obs.at o).en = true →
       let x := s.pos.obs.at o
       (∃ v, v = { s with pos := v.pos, io := v.io, trc := v.trc, free := s.free + 2 } ∧
         exec (.observerUpdate o) s = .next (noteUpdate (choosePattern
           (if x.valid && !(v.pos.obs.at o).valid then (if required v o then obsLost v o else catchLost v o) else v) o)) ∧
         ((v.pos.obs.at o).valid = (srcHealthy s x.cfgA && decide (64 ≤ (v.pos.obs.at o).mcount) && !(v.pos.obs.at o).trkBad)) ∧
         (v.pos.obs.at o).meas = none ∧ (v.pos.obs.at o).tUpd = s.clk.tb ∧ (∀ m, m ≠ o.val → v.pos.obs.at m = s.pos.obs.at m) ∧
         (v.pos.obs.at o).healthy = srcHealthy s x.cfgA ∧
         (x.healthy = true → srcHealthy s x.cfgA = false → (v.pos.obs.at o).mcount = 0 ∧ (v.pos.obs.at o).fresh = true)) ∧
       (obsLtrig x.cfgA ≠ 0 →
         ∃ t, exec (.observerLatch o 0) s = .next t ∧ (t.pos.obs.at o).seq = x.seq + 1 ∧
           (bit x.cfgB 63 = false → bit x.cfgB 53 = true → bit x.cfgB 43 = false → bit x.cfgB 33 = false → x.fallbk = none →
             ∃ v, v = { s with pos := t.pos, free := s.free + 1 } ∧
               t = deliver v (routePos s o) (fld x.cfgB 52 44) (w18 x.w) (flagWord (!x.valid) false false 0 x.seq.toNat)))) ∧
     (∀ p : Fin 2, bit (s.pos.pla.at p).cfg 63 = true →
       let x := s.pos.pla.at p
       let n := fld x.cfg 22 15
       (plaFails s x.cfg = true →
         ∃ t, exec (.plausibilityCheck p) s = .next t ∧ t = { s with pos := t.pos, io := t.io, trc := t.trc } ∧
           (t.pos.pla.at p).fails = satInc n x.fails ∧ (t.pos.pla.at p).passes = 0 ∧
           (x.fails + 1 = n → fld x.cfg 62 61 < 4 → fld x.cfg 60 59 < 4 →
             (t.pos.obs.at (fld x.cfg 62 61)).plaus = true ∧ (t.pos.obs.at (fld x.cfg 60 59)).plaus = true)) ∧
       (plaFails s x.cfg = false →
         ∃ t, exec (.plausibilityCheck p) s = .next t ∧ t = { s with pos := t.pos } ∧
           (t.pos.pla.at p).fails = 0 ∧ (t.pos.pla.at p).passes = satInc n x.passes ∧
           (x.passes + 1 = n → fld x.cfg 62 61 < 4 → fld x.cfg 60 59 < 4 →
             (t.pos.obs.at (fld x.cfg 62 61)).plaus = false ∧ (t.pos.obs.at (fld x.cfg 60 59)).plaus = false))))

/-- CFG_PWM and CTL_FORCE (R343, R359, R370 to R378): UNIT and AUX end with the first status that applies, or their records are applied,
with the words that depend on them written again; STATUS_CLR takes its W1C mask; a force mode reaches the selected units, both off at
once and the others at their next reload; a shadow write writes its shadows and then sets load-all. -/
def Obligations.PwmCommandsTakeEffect : Prop :=
  ∀ (r : Req) (s : State),
    (applies 0x1023 r s →
      let u := fieldAt r 9 1
      let c : W64 := BitVec.ofNat 64 (fieldAt r 16 8)
      let tim : W64 := BitVec.ofNat 64 (fieldAt r 24 8)
      let mask := fieldAt r 12 4
      (∀ st, unitCheck s r = some st → exec (.cfgPwmUnit r) s = .next (complete s 0x1023 r st [])) ∧
      (unitCheck s r = none →
        exec (.cfgPwmUnit r) s = .next (complete (applyUnit s u { cfg := c, tim := tim }) 0x1023 r stOk []) ∧
        (changesRwa (s.pwm.units.at u) { cfg := c, tim := tim } = false →
          applyUnit s u { cfg := c, tim := tim } = writeMaintained (updUnit s u fun x => { x with cfg := c, tim := tim }))) ∧
      (let bs := boundChecks (unitRecs s) ((auxRecs s).set u c) (specs s)
       let good := opForm r 16 1 && decide (u < 8) && zeroAt r 10 6 && auxRecOk (unitRecs s) c && bs != some stRange &&
         shadowsOk (unitRecs s) (placed s)
       let may := c == (s.pwm.aux.at u).cfg || s.drv.st == .standby || s.drv.st == .configured
       (good = false → exec (.cfgPwmAux r) s = .next (complete s 0x1023 r stRange [])) ∧
       (good = true → may = false → exec (.cfgPwmAux r) s = .next (complete s 0x1023 r stState [])) ∧
       (good = true → may = true → bs ≠ none → exec (.cfgPwmAux r) s = .next (complete s 0x1023 r stBound [])) ∧
       (good = true → may = true → bs = none → exec (.cfgPwmAux r) s = .next (complete
          (if s.drv.st == .standby || s.drv.st == .configured then writeMaintained (putAux s u c) else s) 0x1023 r stOk []) ∧
          (u < 8 → (putAux s u c).pwm.aux.at u =
            { cfg := c, a := fld c 55 38, b := fld c 37 20, shA := fld c 55 38, shB := fld c 37 20 }))) ∧
      exec (.cfgPwmStatusClr r) s = .next (jobEnd 0x1023 r s
        (opForm r 8 2 && decide (u < 6) && zeroAt r 10 2 && BitVec.ofNat 32 mask &&& 0xFFFFFF81 == 0) true stOk
        (updUnit s u fun x =>
          { x with flags := x.flags &&& ~~~(BitVec.ofNat 7 mask), cbcCnt := if mask.testBit 4 then 0 else x.cbcCnt }))) ∧
    (applies 0x2020 r s →
      let units := fieldAt r 8 1
      let ends := fun mode =>
        jobEnd 0x2020 r s (formOk r 8 && forceOk r s mode && zeroAt r 10 2) (!s.icp.split) stBusy (force s units mode)
      exec (.ctlForceRelease r) s = .next (ends 0) ∧
      exec (.ctlForceBothOff r) s = .next (ends 1) ∧
      exec (.ctlForceLowerOn r) s = .next (ends 2) ∧
      exec (.ctlForceUpperOn r) s = .next (ends 3) ∧
      unitsNoted s (noteUnits s) ∧
      (∀ mode, ∀ i < 6, (units.testBit i = false → (force s units mode).pwm.units.at i = (noteUnits s).pwm.units.at i) ∧
        (units.testBit i = true → (force s units mode).pwm.units.at i =
          if mode = 1 then { (noteUnits s).pwm.units.at i with fmode := 1, fpend := none }
          else { (noteUnits s).pwm.units.at i with fpend := some mode })) ∧
      exec (.ctlForceShadowWrite r) s = .next (jobEnd 0x2020 r s
        (formOk r (8 + 8 * fieldAt r 11 1) && forceOk r s 4 && fieldAt r 8 1 == 0 && decide (fieldAt r 10 1 < 64) &&
          decide (1 ≤ fieldAt r 11 1) && decide (fieldAt r 11 1 ≤ 12) && (forceWrites r).all (forceWriteOk (unitRecs s)))
        (!s.icp.split) stBusy
        (snoop (setLda ((forceWrites r).foldl (fun s w => putShadow s w.1 (BitVec.ofNat 18 w.2.2)) s) (fieldAt r 10 1) false) 0x10
          ((forceWrites r).map fun w => shadowItem w.1 (BitVec.ofNat 18 w.2.2)) true)))

/-- Events of the PWM generator (R346 to R351, R355, R359, R361, R362, R364, R365, R367, R371, R378): a restart takes the unit's records
over and begins at the valley; a reload ends the cut-off, takes the waiting force mode and the records over, and copies the shadows
where load-all is set; trigger sources fire at their instants; the overlap lock-out until the next valley, with fault 0x8001; a valley
places the units that follow, and begins the count of a unit that waited for its target instant; a cut-off by an active line outside
its window, with its count and fault 0x8003. The event rows place the carrier (log entry 41, the model's choice). -/
def Obligations.PwmEventsTakeEffect : Prop :=
  ∀ (u : Fin 6) (s : State),
    let x := s.pwm.units.at u
    (x.restart = true → ∃ t, exec (.pwmUnitRestart u) s = .next t ∧ t = restartUnit s u false ∧ t = { s with pwm := t.pwm } ∧
      ∃ y, y = t.pwm.units.at u ∧ y.eff = x.cfg ∧ y.effTim = x.tim ∧ y.restart = false ∧ y.lda = false ∧ y.corr = 0 ∧
        y.locked = false ∧ y.origin = fineNow s ∧ y.waiting = false) ∧
    (x.restart = false → exec (.pwmUnitRestart u) s = .next s) ∧
    (∀ peak : Bool, reloads s u peak = true →
      ∃ t, exec (.pwmReload u peak) s = .next t ∧ t = { s with pwm := t.pwm, io := t.io, trc := t.trc, dmd := t.dmd, gdv := t.gdv } ∧
        (t.pwm.units.at u).cutoff = false ∧ (t.pwm.units.at u).fmode = x.fpend.getD x.fmode ∧ (t.pwm.units.at u).fpend = none ∧
        (x.restart = false → (t.pwm.units.at u).eff = x.cfg ∧ (t.pwm.units.at u).effTim = x.tim) ∧
        (x.lda = true → (t.pwm.units.at u).cmp = x.shCmp ∧ (t.pwm.units.at u).lda = false ∧
          (t.pwm.units.at u).vec = bit s.pwm.shVec u) ∧
        (x.lda = false → (t.pwm.units.at u).cmp = x.cmp ∧ (t.pwm.units.at u).p = x.p ∧ (t.pwm.units.at u).hold = x.hold)) ∧
    (∀ peak : Bool, unitCounts s u = true →
      (if peak then x.inForce.centre = true ∧ bit x.eff 59 = true else bit x.eff 58 = true) →
      exec (.sampleTrigger u peak) s = .next (fire (placeAt s u peak) (1 + u) (s.clk.tb + 5 * x.inForce.smpofs))) ∧
    (∀ m : Fin 8, bit (s.pwm.aux.at m).cfg 63 = true → unitCounts s (fld (s.pwm.aux.at m).cfg 62 60) = true →
      auxFires s m (fineNow s) = true → exec (.auxEvent m) s = .next (fire s (0x11 + m) s.clk.tb)) ∧
    (x.waiting = true → countState s.drv.st = true → bit x.eff 63 = true → x.stopped = false →
      ∀ err : Int, ∃ t, exec (.carrierValley u err) s = .next t ∧ (t.pwm.units.at u).waiting = false) ∧
    (unitCounts s u = true →
      (∃ v, v = updUnit (noteUnits s) u (fun x => { x with overlap := true, flags := setBit x.flags 2 true }) ∧
        exec (.overlapLockout u) s = .next (record v 0x8001 u (v.pwm.units.at u).stat)) ∧
      (∀ err : Int, ∃ t, exec (.carrierValley u err) s = .next t ∧ t = { s with pwm := t.pwm, io := t.io, trc := t.trc } ∧
        (t.pwm.units.at u).overlap = false ∧ (t.pwm.units.at u).cbcMark = (x.cutoff && x.inForce.rld == 2) ∧
        (t.pwm.units.at u).stopped = (x.frozen && x.inForce.frz == 2) ∧
        (x.inForce.sync ≠ 9 → (t.pwm.units.at u).corr = x.corr ∧ t.io = s.io) ∧
        (∀ n < 6, n ≠ u.val → masterOf (effRecs s) n = u →
          let d : Int := (carrier s u : Int) * (s.pwm.units.at n).inForce.phs / 65536
          let o := (t.pwm.units.at u).origin
          (t.pwm.units.at n).origin = if d = 0 then o else o + d - carrier s u)) ∧
      (∀ (k : Fin 4) (ofs : Fin 52), x.inForce.cbcen.testBit k = true → bit s.prt.cbcLine k = true →
        blanked s u (fineNow s + ((ofs.val : Nat) : Int)) = false → x.cutoff = false →
        ∃ t, exec (.cbcCutoff u k ofs) s = .next t ∧ t = { s with pwm := t.pwm, io := t.io, trc := t.trc } ∧
          (t.pwm.units.at u).cutoff = true ∧ (t.pwm.units.at u).cbcMark = true ∧
          (t.pwm.units.at u).cbcCnt = (if x.cbcMark then x.cbcCnt else satInc 255 x.cbcCnt) ∧
          bit (t.pwm.units.at u).flags 4 = true))

/-- CFG_GDV (R381, R404 to R409): each row's ranges, ST_STATE for a change of RWA fields outside STANDBY and CONFIGURED, and the record it
sets; a channel out of use reports no lock-out, and clearing DESAT or REFR clears its count. -/
def Obligations.GateDriverConfigurationTakesEffect : Prop :=
  ∀ (r : Req) (s : State), applies 0x1024 r s →
    let ch := fieldAt r 9 1
    let c : W64 := BitVec.ofNat 64 (fieldAt r 16 8)
    let ib : W32 := BitVec.ofNat 32 (fieldAt r 16 4)
    let m : W32 := BitVec.ofNat 32 (fieldAt r 12 4)
    exec (.cfgGdvChannel r) s = .next (jobEnd 0x1024 r s (opForm r 16 0 && decide (ch < 16) && zeroAt r 10 6 && gdvCfgOk s ch c)
      (sameOutside 0x0000000FF8000000 c (s.gdv.at ch).cfg || s.drv.st == .standby || s.drv.st == .configured) stState
      (updGdv s ch fun g =>
        { g with cfg := c, stat := if bit c 63 then g.stat else setBit (setBit g.stat 7 false) 6 false }.blocked)) ∧
    exec (.cfgGdvInd r) s = .next (jobEnd 0x1024 r s (opForm r 16 1 && decide (ch < 16) && zeroAt r 10 6 && fld c 7 0 == 0) true stOk
      (updGdv s ch fun g => { g with ind := c })) ∧
    exec (.cfgGdvTable r) s = .next (jobEnd 0x1024 r s
      (opForm r 28 2 && decide (ch < 16) && zeroAt r 10 6 && ronTabOk ib fun i => fieldAt r (20 + 2 * i) 2) true stOk
      (updGdv s ch fun g => { g with ibase := ib, ron := Vector.ofFn fun i : Fin 8 => BitVec.ofNat 16 (fieldAt r (20 + 2 * i.val) 2) })) ∧
    exec (.cfgGdvTcool r) s = .next (jobEnd 0x1024 r s
      (opForm r 8 3 && decide (ch < 16) && zeroAt r 10 2 && m == BitVec.signExtend 32 (m.setWidth 16)) true stOk
      (updGdv s ch fun g => { g with tcool := m.toInt })) ∧
    exec (.cfgGdvStatusClr r) s = .next (jobEnd 0x1024 r s (opForm r 8 4 && decide (ch < 16) && zeroAt r 10 2 && m &&& 0xFFFFF9E1 == 0) true stOk
      (updGdv s ch fun g =>
        let st := g.stat &&& ~~~m
        let st := if bit m 3 then setFld st 23 16 0 else st
        { g with stat := if bit m 1 then setFld st 31 24 0 else st }))

/-- Events of an enabled driver channel (R384, R390 to R393, R395 to R402, R412, R434, R437): what each sets in GDV_STAT, its record, and
the reaction of the block that uses the channel. INDICATOR_UPDATE (R402, R403): without a table, an enabled indicator or a sample of
sufficient current the interval's pairs are dropped and RON and TJ stay; with them RON, TJ and the count of the alarm are taken anew,
and the tenth reading beyond the alarm sets TJHIGH with fault 0x1006. -/
def Obligations.GateDriverAndIndicatorEventsTakeEffect : Prop :=
  (∀ (ch : Fin 16) (s : State), s.drv.st ≠ .off →
     let g := s.gdv.at ch
     (bit g.cfg 63 = true →
       (∀ neg : Bool, (neg = true → fld g.cfg 60 57 ≠ 0) →
         ∃ v, v = updGdv s ch (fun g => { g with stat := setBit (setBit g.stat (if neg then 7 else 6) true) 4 true }.blocked) ∧
           exec (.driverLockout ch neg) s = .next
             (channelLost (if driving s.drv.st && decide (12 ≤ ch.val) then recGdv v ch 0x1001 else v) ch 0x1001)) ∧
       (bit g.stat 8 = false →
         ∃ v, v = updGdv s ch (fun g => { g with stat := setBit g.stat 8 true }) ∧
           exec (.earlyWarning ch) s = .next (record v 0x1005 ch (gdvStat v ch))) ∧
       (bit g.cfg 56 = true → bit g.stat 0 = false →
         ∃ v, v = updGdv s ch (fun g =>
             { g with soft := true, stat := setBit (setBit (incSat g.stat 23 16) 3 true) 0 true }.blocked) ∧
           exec (.desaturation ch) s = .next
             (let t := record v 0x1002 ch (gdvStat v ch)
              if ch.val < 12 then phaseDesat t ch
              else if ch.val < 14 then (if b2n (ch.val == 12) == b2n (bit s.prt.ctl 58) then chopperFault t else t)
              else if ch.val = 14 then dischargeFail t 0x2022 else auxFault t) ∧
           bit (v.gdv.at ch).stat 5 = true) ∧
       (ch.val < 14 →
         ∃ t, exec (.crosscheckRefusal ch) s = .next t ∧
           t = { s with gdv := t.gdv, io := t.io, trc := t.trc, pwm := t.pwm, prt := t.prt } ∧ bit (t.gdv.at ch).stat 2 = true ∧
           (ch.val < 12 → (t.pwm.units.at (ch / 2)).overlap = true ∧ bit (t.pwm.units.at (ch / 2)).flags 3 = true ∧ t.prt = s.prt) ∧
           (12 ≤ ch.val → t.pwm = s.pwm ∧ t.prt = { s.prt with chXref := true })) ∧
       (bit g.cfg 35 = true → ∀ v : BitVec 12,
         ∃ t, exec (.onStateSample ch v) s = .next t ∧ t = { s with gdv := t.gdv } ∧ (∀ m, m ≠ ch.val → t.gdv.at m = s.gdv.at m) ∧
           t.gdv.at ch = { g with vsns := v.toNat, zeros := (t.gdv.at ch).zeros,
                                  pairs := g.pairs ++ [(v.toNat, memGet (s.thk.rmem.at (fld g.ind 53 52)) (2 * fld g.ind 62 54))] })) ∧
     exec (.lockoutRelease ch) s = .next (updGdv s ch fun g => { g with stat := setBit (setBit g.stat 7 false) 6 false }.blocked) ∧
     exec (.earlyWarningClear ch) s = .next (updGdv s ch fun g => { g with stat := setBit g.stat 8 false }) ∧
     exec (.softTurnoffEnd ch) s = .next (updGdv s ch fun g => { g with soft := false }.blocked) ∧
     exec (.driverLinkSilence ch) s = .next (updGdv s ch fun g => { g with silent := true, offHold := true, resumedAt := none }) ∧
     exec (.linkActivityResumed ch) s = .next (updGdv s ch fun g =>
       { g with silent := false, linkLost := false, resumedAt := some (fineNow s) }) ∧
     (g.linkLost = false →
       ∃ v, v = updGdv s ch (fun g => { g with linkLost := true, stat := setBit g.stat 9 true }) ∧
         exec (.gdvLink ch) s = .next (sensorBroken
           (channelLost (if ch.val < 12 && driving s.drv.st then v else record v 0x1004 ch (gdvStat v ch)) ch 0x1004) (16 + ch)))) ∧
  (∀ (ch : Fin 16) (s : State),
     let g := s.gdv.at ch
     (bit g.ind 63 = false ∨ f32Rat g.ibase = none → s.drv.st ≠ .off →
       exec (.indicatorUpdate ch) s = .next (updGdv s ch fun g => { g with pairs := [] })) ∧
     (∀ q : Rat, f32Rat g.ibase = some q → 0 < q → bit g.ind 63 = true → s.drv.st ≠ .off → s.drv.coldRun = false → g.cold = [] →
       let iref := s18 (BitVec.ofNat 18 (fld g.ind 49 32))
       let use := g.pairs.filter fun p => decide (iref ≤ 4 * forward g.ind p.2) && decide (0 < forward g.ind p.2)
       ∃ t, exec (.indicatorUpdate ch) s = .next t ∧ t = { s with gdv := t.gdv, io := t.io, trc := t.trc, free := s.free + 3 } ∧
         (t.gdv.at ch).pairs = [] ∧ (∀ m, m ≠ ch.val → t.gdv.at m = s.gdv.at m) ∧
         (use = [] → t.gdv.at ch = { g with pairs := [] }) ∧
         (use ≠ [] → fld g.ind 19 8 = 0 → (t.gdv.at ch).tjCount = 0 ∧ (t.gdv.at ch).stat = g.stat ∧ t.io = s.io) ∧
         (bit g.stat 10 = false → bit (t.gdv.at ch).stat 10 = true → (t.gdv.at ch).tjCount = 10 ∧ g.tjCount = 9)))

/-- The trips on the DC link and the rejoining leg (R412, R415, R418, R419, R424, R426, R445): DCSNS takes the value; above OVT in an armed
state the chopper goes on at once, the safe pattern acts on both machines, OV and fault 0x2010 are set and the trip waits for
evaluation; below UVT in ARMED and RUNNING likewise UV and 0x2011; a leg rejoins once no trip line of it is asserted. -/
def Obligations.LinkTripsAndLegRejoin : Prop :=
  ∀ (v : Nat) (s : State),
    (ovt s ≠ 0 → ovt s < v → tripsArmed s.drv.st = true →
      ∃ t, exec (.overvoltageTrip v) s = .next t ∧ t = { s with prt := t.prt, io := t.io, trc := t.trc, drv := t.drv, pwm := t.pwm } ∧
        unitsNoted s t ∧ t.prt.dcsns = v ∧ bit t.prt.flags 16 = true ∧ t.prt.act = #v[true, true] ∧
        (bit s.prt.chop 63 = true → bit s.prt.flags 17 = false → t.prt.chAct = true ∧ t.prt.chAt = some s.clk.tb ∧ t.prt.ovHold = true) ∧
        t.io.lastFault = 0x2010 ∧ t.drv = { s.drv with events := s.drv.events ++ [⟨.trip, 0x2010⟩] }) ∧
    (ovt s = 0 ∨ v ≤ ovt s ∨ tripsArmed s.drv.st = false →
      exec (.overvoltageTrip v) s = .next { s with prt := { s.prt with dcsns := v } }) ∧
    (uvt s ≠ 0 → v < uvt s → driving s.drv.st = true →
      ∃ t, exec (.undervoltageTrip v) s = .next t ∧ t = { s with prt := t.prt, io := t.io, trc := t.trc, drv := t.drv, pwm := t.pwm } ∧
        unitsNoted s t ∧ t.prt = { s.prt with dcsns := v, flags := setBit s.prt.flags 15 true, act := #v[true, true] } ∧
        t.io.lastFault = 0x2011 ∧ t.drv = { s.drv with events := s.drv.events ++ [⟨.trip, 0x2011⟩] }) ∧
    (uvt s = 0 ∨ uvt s ≤ v ∨ driving s.drv.st = false →
      exec (.undervoltageTrip v) s = .next { s with prt := { s.prt with dcsns := v } }) ∧
    (∀ leg : Fin 6,
      (legLine s leg = false → exec (.legRejoin leg) s =
        .next { noteUnits s with prt := { s.prt with legOff := s.prt.legOff.put leg false } }) ∧
      (legLine s leg = true → exec (.legRejoin leg) s = .next s))

/-- The chopper (R428 to R431): on above CHON and off below CHOFF within its minimum times while it is enabled, not faulty and in an armed
state; a fault of it turns it off, sets CHFLT with fault 0x2012 once, and publishes REGEN_LIM 0. CTL_DISCHARGE and the phases of a
discharge (R435 to R438): refused while one is in progress or a force mode of 2 or more is set; else AUXON goes off, DDONE, DFAIL and a
desaturation of GD14 are cleared and it waits; after the wait GD14 turns on and the command completes; it ends with DDONE at VTGT, or
with DFAIL and the fault of what went wrong. -/
def Obligations.ChopperAndDischargeTakeEffect : Prop :=
  (∀ (v : Nat) (s : State), chopEn s = true →
     (bit s.prt.flags 17 = false → tripsArmed s.drv.st = true →
       let u := { s with prt := { s.prt with dcsns := v } }
       (s.prt.chAct = false → chon s < v → chopperFree s (fld s.prt.chop 55 49) = true →
         ∃ t, exec (.chopperSwitching v) s = .next t ∧ t = { s with prt := t.prt } ∧ t.prt.chAct = true ∧ t.prt.chAt = some s.clk.tb ∧
           t.prt.dcsns = v ∧ t.prt.flags = s.prt.flags) ∧
       (s.prt.chAct = false → v ≤ chon s ∨ chopperFree s (fld s.prt.chop 55 49) = false → exec (.chopperSwitching v) s = .next u) ∧
       (s.prt.chAct = true → v < choff s → s.prt.ovHold = true ∨ chopperFree s (fld s.prt.chop 62 56) = true →
         ∃ t, exec (.chopperSwitching v) s = .next t ∧ t = { s with prt := t.prt } ∧ t.prt.chAct = false ∧ t.prt.ovHold = false ∧
           t.prt.chXref = false ∧ t.prt.chAt = some s.clk.tb ∧ t.prt.dcsns = v) ∧
       (s.prt.chAct = true → choff s ≤ v → exec (.chopperSwitching v) s = .next u)) ∧
     (∀ c : ChopCause,
       let named := fld s.prt.chop 48 45 ≠ 15
       c = .desat ∨ (c = .noCurrent ∧ named ∧ s.prt.chAct = true ∧ chopperSettled s = true ∧ chopperCurrent s < chimin s) ∨
         (c = .shorted ∧ named ∧ s.prt.chAct = false ∧ chopperSettled s = true ∧ chimin s < chopperCurrent s) ∨
         ((c = .lockout ∨ c = .link) ∧ driving s.drv.st = true) →
       exec (.chopperFault c) s = .next (chopperFault s) ∧
       (bit s.prt.flags 17 = true → chopperFault s = s) ∧
       (bit s.prt.flags 17 = false → bit (chopperFault s).prt.flags 17 = true ∧ (chopperFault s).prt.chAct = false ∧
         (chopperFault s).prt.rgSeq = s.prt.rgSeq + 1 ∧ (chopperFault s).drv = s.drv))) ∧
  (∀ (r : Req) (s : State),
     (applies 0x2021 r s →
       let good := formOk r 8 && decide (fieldAt r 8 2 ≤ 2047) && decide (1 ≤ fieldAt r 10 2) && zeroAt r 12 4
       let busy := s.prt.dis != .idle || s.pwm.units.toList.any fun u => decide (2 ≤ u.fmode)
       (good = false → exec (.ctlDischarge r) s = .next (complete s 0x2021 r stRange [])) ∧
       (good = true → busy = true → exec (.ctlDischarge r) s = .next (complete s 0x2021 r stBusy [])) ∧
       (good = true → busy = false →
         ∃ t, exec (.ctlDischarge r) s = .next t ∧ t = { s with prt := t.prt, gdv := t.gdv, icp := t.icp } ∧
           t.prt = { s.prt with ctl := setBit s.prt.ctl 57 false, flags := setBit (setBit s.prt.flags 20 false) 19 false, dis := .waiting,
                                vtgt := fieldAt r 8 2, tmax := fieldAt r 10 2, disReq := some r } ∧
           bit (t.gdv.at 14).stat 0 = false ∧ ∀ ch, ch ≠ 14 → t.gdv.at ch = s.gdv.at ch)) ∧
     (s.prt.dis = .waiting → s.prt.disReq = some r →
       let u := complete (updGdv { s with prt := { s.prt with dis := .on, disReq := none } } 14
         fun g => { g with offHold := g.offHold && g.silent }) 0x2021 r stOk []
       exec .dischargeSwitchOn s = .next (if gd14Bad s then dischargeFail u 0x2022 else u)) ∧
     (s.prt.dis = .on →
       (∀ v, v ≤ s.prt.vtgt → exec (.dischargeDone v) s =
         .next { s with prt := { s.prt with dcsns := v, dis := .idle, flags := setBit s.prt.flags 20 true } }) ∧
       (∀ v, s.prt.vtgt < v → exec (.dischargeDone v) s = .next { s with prt := { s.prt with dcsns := v } }) ∧
       (∃ t, exec .dischargeTimeout s = .next t ∧ t = { s with prt := t.prt, io := t.io, trc := t.trc } ∧
         t.prt = { s.prt with dis := .idle, flags := setBit s.prt.flags 19 true } ∧ t.io.lastFault = 0x2020) ∧
       (∃ t, exec .dischargeNotFalling s = .next t ∧ t = { s with prt := t.prt, io := t.io, trc := t.trc } ∧
         t.prt = { s.prt with dis := .idle, flags := setBit s.prt.flags 19 true } ∧ t.io.lastFault = 0x2021)))

/-- SAF_STOP, SAF_RELEASE, SAF_ACK, SAF_TEST, CFG_LIMIT and a release that Blackthorn does not answer (R423, R449, R462, R475 to R481):
SAF_STOP enters SAFE_STOP and changes nothing in SAFE_STOP and FAULT; SAF_RELEASE enters CONFIGURED, or STANDBY without a configuration
in service, once every condition is met, and else fails with the first unmet condition's code; SAF_ACK leaves FAULT for SAFE_STOP once
every latched fault meets its condition, and in SAFE_STOP clears VIOL, BKCT and SIGDIF; SAF_TEST answers its masks; CFG_LIMIT tightens
both copies or fails with 0x3050. -/
def Obligations.SafetyCommandsTakeEffect : Prop :=
  ∀ (r : Req) (s : State),
    (applies 0x4001 r s → formOk r 0 = true →
      (s.drv.st = .safeStop ∨ s.drv.st = .fault → exec (.safStop r) s = .next (complete s 0x4001 r stOk [])) ∧
      (s.drv.st ≠ .safeStop → s.drv.st ≠ .fault → noEvent s →
        ∃ t, exec (.safStop r) s = .next t ∧ entered s t .safeStop 0x4001 ∧ stoLine t = true ∧ t.nv = s.nv ∧ t.boot = s.boot ∧
          t.clk = s.clk ∧ t.acq = s.acq ∧ t.gdv = s.gdv)) ∧
    (applies 0x4002 r s → formOk r 0 = true →
      (∀ c, releaseUnmet s = some c →
        exec (.safRelease r) s = .next (complete s 0x4002 r stFailed (leBytes 2 c.toNat)) ∧
        exec (.blackthornReleaseTimeout r) s = .next (complete s 0x4002 r stFailed (leBytes 2 c.toNat))) ∧
      (releaseUnmet s = none → exec (.blackthornReleaseTimeout r) s = .next (complete s 0x4002 r stFailed [0, 0])) ∧
      (releaseUnmet s = none →
        let dst : Mode := if inService s then .configured else .standby
        (∀ c, stillHeld s dst = some c → exec (.safRelease r) s = .next (complete s 0x4002 r stFailed (leBytes 2 c.toNat))) ∧
        (stillHeld s dst = none → noEvent s →
          ∃ t, exec (.safRelease r) s = .next t ∧ entered s t dst 0x4002 ∧ t.saf.stoRestart = false ∧ t.saf.stoEscal = false ∧
            fld t.prt.flags 14 8 = 0 ∧ (∀ ch < 12, bit (t.gdv.at ch).stat 0 = false) ∧ (∀ u < 6, (t.pwm.units.at u).legHold = false) ∧
            (∀ m < 2, (t.saf.mach.at m).swHold = false) ∧ t.nv = (if dst = .standby then (copyStartLog s).nv else s.nv) ∧
            t.boot = s.boot ∧ t.clk = s.clk))) ∧
    (applies 0x4003 r s → formOk r 0 = true → ∀ (a : BitVec 16) (b : Byte),
      (s.drv.st = .safeStop →
        exec (.safAck r a b) s = .next (complete
          { s with saf := { s.saf with viol := 0, bkct := 0 }, icp := { s.icp with sigdif := false } } 0x4003 r stOk [])) ∧
      (s.drv.st = .fault → (∀ c ∈ s.io.latched, ackMet s (a == 0xFFFF && b == 0xFF) c = true) →
        ∃ t, exec (.safAck r a b) s = .next t ∧ entered s t .safeStop 0x4003 ∧ t.io.latched = [] ∧ t.saf.clkf = false ∧
          t.saf.qaLim = none ∧ t.saf.sackAt = none ∧ t.nv = s.nv ∧ t.boot = s.boot ∧ t.clk = s.clk) ∧
      (s.drv.st = .fault → ∀ c, (s.io.latched.find? fun c => !ackMet s (a == 0xFFFF && b == 0xFF) c) = some c →
        exec (.safAck r a b) s = .next (complete s 0x4003 r stFailed (leBytes 2 c.toNat)))) ∧
    (applies 0x4004 r s → formOk r 0 = true → ∀ (a : BitVec 16) (b : Byte),
      (s.icp.split = true → exec (.safTest r a b) s = .next (complete s 0x4004 r stBusy [])) ∧
      (s.icp.split = false → a = 0xFFFF → b = 0xFF →
        exec (.safTest r a b) s = .next (complete s 0x4004 r stOk (leBytes 2 a.toNat ++ [b]))) ∧
      (s.icp.split = false → a ≠ 0xFFFF ∨ b ≠ 0xFF →
        exec (.safTest r a b) s = .next (complete (recBlk s 0xFFFF 0x3051) 0x4004 r stFailed (leBytes 2 a.toNat ++ [b])))) ∧
    (applies 0x1040 r s →
      let good := formOk r 20 && limitForm r
      (∀ k, good = false → exec (.cfgLimit r k) s = .next (complete s 0x1040 r stRange [])) ∧
      (∀ k, good = true → limitTight r s.saf.icsLim = false → exec (.cfgLimit r k) s = .next (complete s 0x1040 r stTighten [])) ∧
      (∀ k, good = true → limitTight r s.saf.icsLim = true → k = false ∨ limitTight r s.saf.blkLim = false →
        exec (.cfgLimit r k) s = .next (complete (recBlk s 0xFFFF 0x3050) 0x1040 r stFailed [])) ∧
      (good = true → limitTight r s.saf.icsLim = true → limitTight r s.saf.blkLim = true →
        exec (.cfgLimit r true) s = .next (complete
          { s with saf := { s.saf with blkLim := limitSet r s.saf.blkLim, icsLim := limitSet r s.saf.icsLim } } 0x1040 r stOk [])))

/-- Blackthorn's input pairs and speed functions while it is powered (R452 to R463, R474, R678): what each event sets, that a fall of the level
from Enabled in ARMED or RUNNING becomes an event, and the fault records 0x3001, 0x3002, 0x3043, 0x3044 and 0x3014. -/
def Obligations.SafetyInputAndSpeedEventsTakeEffect : Prop :=
  ∀ s : State,
    (∀ p : Fin 4, pairFn s p ≠ 0 → blkUp s = true →
      let x := s.saf.pairs.at p
      (∀ (chB : Bool) (mv : Nat),
        (5000 < mv → mv < 11000 → inputDemands s p chB mv = true) ∧
        (mv ≤ 5000 → inputDemands s p chB mv = !(chB && bit (sfWord s 0) (16 + p))) ∧
        (11000 ≤ mv → inputDemands s p chB mv = (chB && bit (sfWord s 0) (16 + p)))) ∧
      (∀ (chB : Bool) (mv : Nat), let dem := inputDemands s p chB mv
        ∃ t, exec (.safetyInputChange p chB mv) s = .next t ∧
        t = { s with saf := t.saf, drv := t.drv, io := t.io, trc := t.trc } ∧
        (t.saf.pairs.at p).demA = (if chB then x.demA else dem) ∧ (t.saf.pairs.at p).demB = (if chB then dem else x.demB) ∧
        ((t.saf.pairs.at p).demand = (((t.saf.pairs.at p).demA || (t.saf.pairs.at p).demB) && (x.demand || dem))) ∧
        ((t.saf.pairs.at p).demand = true → x.demand = false → (t.saf.pairs.at p).since = s.clk.tb)) ∧
      (x.demA ≠ x.demB →
        ∃ v, v = updPair s p (fun x => { x with fault := true, bothDem := false, cycled := false, faultAt := s.clk.tb }) ∧
          exec (.discrepancyTimeout p) s = .next (recBlk (blkStep s v) p 0x3002))) ∧
    (∀ m : Fin 2,
      let x := s.saf.mach.at m
      (spdSrc s m ≠ 6 → blkUp s = true →
        (∀ net count : Int, ∃ t, exec (.speedCounterSample m net count) s = .next t ∧
          t = { s with saf := t.saf, drv := t.drv, io := t.io, trc := t.trc } ∧
          t.saf.mach.at m = sampleMach s m (sensed s m net) (sensed s m count) ∧
          ((t.saf.mach.at m).smax.present = true → x.smax.present = false → bit t.saf.viol 3 = true) ∧
          (∀ k, k ≠ m.val → t.saf.mach.at k = s.saf.mach.at k)) ∧
        (∃ v, v = updMach s m (fun x => { x with known := false, srcLatch := true, srcAt := s.clk.tb, asc := true }) ∧
          exec (.speedSourceIllegal m) s = .next (recBlk (blkStep s v) m 0x3043))) ∧
      (spdSrc s m ≠ 6 → x.known = true → (s.pos.obs.at (monObs s m)).valid = true → fromStandbyOn s.drv.st = true →
        let bad := decide ((s.saf.icsLim.smax.at m : Rat) / 20 <
          |(x.net : Rat) * 120000 / (max 1 (scpr s m) : Nat) - obsRpm s m|)
        ∃ v, v = updMach s m (fun x => { x with xchk := if bad then satInc 10 x.xchk else 0 }) ∧
          exec (.speedCrossCheck m) s = .next (if bad ∧ x.xchk = 9 then recBlk v m 0x3044 else v)) ∧
      (spdSrc s m = 6 → fromStandbyOn s.drv.st = true → x.swHold = false →
        obsOverSpeed s m = true ∨ (runLine s = true ∧ (s.pos.obs.at (monObs s m)).valid = false) →
        exec (.smaxSoftwareCheck m) s =
          .next (recBlk (blkStep s (updMach s m fun x => { x with swHold := true })) m 0x3014))) ∧
    (∀ v : State, blkStep s v = v ∨ (driving s.drv.st = true ∧ ∃ c, blkStep s v = arrive v .trip c))

/-- Blackthorn's comparators, latches, watchdog, acknowledgement line and reference check, and the torque monitor (R37, R448, R449, R465 to
R469, R471, R479). -/
def Obligations.WatchdogAndMonitorEventsTakeEffect : Prop :=
  ∀ s : State,
    (∀ (n : Fin 8) (v : Nat), fld (sfWord s (11 + n)) 7 6 ≠ 0 → blkUp s = true →
      let out := decide (s.saf.blkLim.bhi.at n < v) || decide (v < s.saf.blkLim.blo.at n)
      ∃ t, exec (.blackthornComparatorTrip n v) s = .next t ∧ t = { s with saf := t.saf, drv := t.drv, io := t.io, trc := t.trc } ∧
        t.saf.comps.at n = (s.saf.comps.at n).see out (runLine s) ∧
        (out = true → bit t.saf.bkct n = true ∧ ((s.saf.comps.at n).present = false → t.io.lastFault = 0x3045))) ∧
    (∀ m : Fin 2, exec (.latchSelfClear m .smax) s = .next (updMach s m fun x => { x with smax := x.smax.selfClear }) ∧
      (∀ n : Fin 8, exec (.latchSelfClear m (.comp n)) s =
        .next { s with saf := { s.saf with comps := s.saf.comps.put n (s.saf.comps.at n).selfClear } }) ∧
      (∀ c : Cause, c.present = false → c.latched = false → c.selfClear = { c with held := false }) ∧
      (∀ c : Cause, c.present = true ∨ c.latched = true → c.selfClear = c)) ∧
    (∀ (m : Fin 2) (own : W18), tmen s = true → s.drv.st = .running → inUse s m = true →
      let w := tMonOf s m own
      ((monNow s m).mtype = 2 → w = own) ∧
      let n := if monitorFails s m w then satInc 3 (s.saf.mach.at m).tmFail else 0
      let v := updMach s m fun x => { x with tMon := w, tmFail := n }
      exec (.torqueMonitorCheck m own) s =
        .next (if nMis s ≤ n ∧ (s.saf.mach.at m).tmFail < nMis s then monitorStop (recBlk v m 0x3030) else v)) ∧
    (s.saf.qaStarted = true → ∀ q : Byte, exec (.qaQuestion q) s = .next { s with saf := { s.saf with question := some q } }) ∧
    (∀ q : Byte, s.saf.question = some q →
      (∀ k, 20000 ≤ k → k ≤ 45000 →
        ∃ t, exec (.qaAnswer (Config.qaTable q) k) s = .next t ∧ t = { s with saf := t.saf } ∧ t.saf.errcnt = s.saf.errcnt - 1 ∧
          t.saf.question = none) ∧
      ∃ t, t = { s with saf := t.saf, drv := t.drv, io := t.io, trc := t.trc } ∧
        t.saf.errcnt = min 7 (s.saf.errcnt + 2) ∧ t.saf.question = none ∧
        (4 ≤ s.saf.errcnt → s.saf.qaLim = none → t.saf.qaLim = some s.clk.tb ∧ t.io.lastFault = 0x3041) ∧
        exec .qaWindowExpiry s = .next t ∧
        ∀ ws k, ws ≠ Config.qaTable q ∨ k < 20000 ∨ 45000 < k → exec (.qaAnswer ws k) s = .next t) ∧
    (∀ ms, 20 ≤ ms → ms ≤ 2000 → blkUp s = true → blkLatches s ≠ [] →
      exec (.sackPulse ms) s = .next { s with saf := { s.saf with sackAt := some (ms, s.clk.tb) } }) ∧
    (∀ k, blkUp s = true →
      (20 ≤ k → k ≤ 30 → exec (.referenceClockWindow k) s = .next { s with saf := { s.saf with refOut := false } }) ∧
      (k < 20 ∨ 30 < k → s.saf.clkf = false →
        ∃ t, exec (.referenceClockWindow k) s = .next t ∧ t = { s with saf := t.saf, drv := t.drv, io := t.io, trc := t.trc } ∧
          t.saf.clkf = true ∧ t.saf.refOut = true ∧
          (fromStandby.contains s.drv.st = true ∨ s.drv.st = .coppice → t.io.lastFault = 0x3042 ∧ t.saf.clkfPend = false) ∧
          (fromStandby.contains s.drv.st = false → s.drv.st ≠ .coppice → t.saf.clkfPend = true ∧ t.io = s.io)))

/-- CFG_THM and CFG_CHK (R529, R550, R637 to R645): WARN takes its threshold and is armed; STATUS_CLR of CFG_THM clears the masked broken
bits, whose sensors are judged again, and bit 24; a check unit restarts with its new record; its W1C mask reaches bits 2 and 1. -/
def Obligations.TemperatureWarningAndCheckUnitsAreConfigured : Prop :=
  ∀ (r : Req) (s : State),
    (applies 0x1027 r s →
      exec (.cfgThmWarn r) s = .next (jobEnd 0x1027 r s (opForm r 8 0 && zeroAt r 9 3 && decide (fieldAt r 12 4 < 65536)) true stOk
        { s with thm := { s.thm with warn := BitVec.ofNat 16 (fieldAt r 12 4), warnArmed := true } }) ∧
      (∃ t, exec (.cfgThmStatusClr r) s = .next (jobEnd 0x1027 r s (opForm r 8 1 && zeroAt r 9 3) (!driving s.drv.st) stBusy t) ∧
        t = { s with thm := { s.thm with broken := t.thm.broken, stat := setBit s.thm.stat 24 false, same := t.thm.same } } ∧
        ∀ k < 32, bit t.thm.broken k = (bit s.thm.broken k && !(fieldAt r 12 4).testBit k) ∧
          t.thm.same.at k = if (fieldAt r 12 4).testBit k then 0 else s.thm.same.at k)) ∧
    (applies 0x1028 r s →
      let k := fieldAt r 9 1
      let w (i : Nat) : W32 := BitVec.ofNat 32 (fieldAt r (24 + 4 * i) 4)
      (∃ t, exec (.cfgChkUnit r) s = .next (jobEnd 0x1028 r s
          (opForm r 40 0 && decide (k < 8) && zeroAt r 10 6 &&
            chkRecordOk (BitVec.ofNat 64 (fieldAt r 16 8)) (w 0) (w 1) (w 2) (w 3) (w 4) (w 5)) true stOk t) ∧
        t = { s with chk := t.chk } ∧ (∀ j, j ≠ k → t.chk.at j = s.chk.at j) ∧
        (k < 8 → t.chk.at k = { (s.chk.at k) with
            cfg := BitVec.ofNat 64 (fieldAt r 16 8), poly := w 0, init := w 1, xorout := w 2, exp := w 3, lo := w 4, hi := w 5,
            crc := w 1, count := 0, stat := setBit (setFld (s.chk.at k).stat 31 16 0) 3 false })) ∧
      (∃ t, exec (.cfgChkStatusClr r) s = .next (jobEnd 0x1028 r s
          (opForm r 8 1 && decide (k < 8) && zeroAt r 10 2 && BitVec.ofNat 32 (fieldAt r 12 4) &&& 0xFFFFFFF9 == 0) true stOk t) ∧
        t = { s with chk := t.chk } ∧ (∀ j, j ≠ k → t.chk.at j = s.chk.at j) ∧
        (k < 8 → (t.chk.at k).stat = (s.chk.at k).stat &&& ~~~(BitVec.ofNat 32 (fieldAt r 12 4)))))

/-- Temperature (R527 to R535, R549): a window stores its count and reading; two windows in a row at 160 °C on a sensor that works assert
the hardwired line, with the record 0x9014; the line is released below 155 °C; an evaluation keeps TMAXE, its sensor and the throttle in
THM_STAT, the highest step whose threshold TMAXE reaches. Ageing (R543 to R548, R552): a measurement keeps its margin and the day's
smallest, and no tap left is a pre-error with the record 0x9030; a day's end stores its margin and plans anew, where the ageing step
never falls; hours are counted. -/
def Obligations.TemperatureAndAgeingEventsTakeEffect : Prop :=
  (∀ s : State,
     (∀ (n : Fin 32) (c : Nat) (v : Int), s.drv.st ≠ .off →
       ∃ t, exec (.sensorWindow n c v) s = .next t ∧ t = { s with thm := t.thm, drv := t.drv, io := t.io, trc := t.trc } ∧
         t.thm.reading.at n = v ∧ t.thm.count.at n = c ∧ t.thm.hot.at n = decide (2560 ≤ v) ∧
         t.thm.same.at n = (if s.thm.count.at n = c then satInc 64 (s.thm.same.at n) else 1) ∧
         (windowBad (t.thm.same.at n) v = true → bit t.thm.broken n = true) ∧
         (∀ k < 32, k ≠ n.val → bit t.thm.broken k = bit s.thm.broken k) ∧
         (s.thm.hot.at n = true → 2560 ≤ v → bit t.thm.broken n = false → bit s.thm.stat 26 = false →
           bit t.thm.stat 26 = true ∧ t.io.lastFault = 0x9014)) ∧
     ((∀ n < 32, s.thm.reading.at n < 2480) →
       exec .thermalLineRelease s = .next { s with thm := { s.thm with stat := setBit s.thm.stat 26 false } }) ∧
     (fromStandby.contains s.drv.st = true →
       ∃ t, exec .throttleEvaluation s = .next t ∧
         t = { s with thm := t.thm, thk := t.thk, drv := t.drv, io := t.io, trc := t.trc, dmd := t.dmd } ∧
         fld t.thm.stat 15 0 = ((hottest s.thm).2 % 65536).toNat ∧ fld t.thm.stat 20 16 = (hottest s.thm).1 % 32 ∧
         t.thm.step = stepOf s.thm.step (hottest s.thm).2 ∧ fld t.thm.stat 31 27 = (16 - t.thm.step) % 32 ∧
         (2400 ≤ (hottest s.thm).2 → bit t.thm.stat 25 = true) ∧ ((hottest s.thm).2 < 2368 → bit t.thm.stat 25 = false)) ∧
     (∀ (old : Nat) (tm : Int), old ≤ 12 → stepOf old tm ≤ 12 ∧
       (∀ k : Nat, 1 ≤ k → k ≤ 12 → 16 * (123 + 2 * (k : Int)) ≤ tm → k ≤ stepOf old tm) ∧
       (∀ k : Nat, k ≤ stepOf old tm → 1 ≤ k → 16 * (122 + 2 * (k : Int)) ≤ tm))) ∧
  (∀ s : State,
     (∀ (n : Fin 10) (taps : Nat), s.drv.st ≠ .off →
       ∃ t, exec (.canaryMeasurement n taps) s = .next t ∧ t = { s with nv := t.nv, sup := t.sup, drv := t.drv, io := t.io, trc := t.trc } ∧
         t.nv = { s.nv with age := t.nv.age } ∧ fld (t.nv.age.at n).word 47 40 = min taps 255 ∧
         (t.nv.age.at n).today = some (match (s.nv.age.at n).today with | some d => min d (min taps 255) | none => min taps 255) ∧
         (∀ k, k ≠ n.val → t.nv.age.at k = s.nv.age.at k) ∧
         (0 < taps → t.sup = s.sup ∧ t.io = s.io ∧ bit (t.nv.age.at n).word 18 = bit (s.nv.age.at n).word 18) ∧
         (taps = 0 → bit (t.nv.age.at n).word 18 = true ∧ t.io.lastFault = 0x9030 ∧
           (n.val ≤ 6 → s.sup.slow = 0 → slowedUs s < 20 → t.sup = { s.sup with slow := 1, slowAt := some s.clk.tb }) ∧
           (6 < n.val ∨ s.sup.slow ≠ 0 ∨ 20 ≤ slowedUs s → t.sup = s.sup))) ∧
     (fromStandby.contains s.drv.st = true →
       (∃ t, exec .dailyReplan s = .next t ∧ t = { s with nv := t.nv, drv := t.drv, io := t.io, trc := t.trc } ∧
         t.nv = { s.nv with age := t.nv.age, ageDth := t.nv.ageDth } ∧ s.nv.ageDth ≤ t.nv.ageDth ∧
         (∀ n < 10, (t.nv.age.at n).hist = ((s.nv.age.at n).endDay).hist ∧ (t.nv.age.at n).today = none ∧
           fld (t.nv.age.at n).word 39 36 = t.nv.ageDth % 16)) ∧
       exec .operatingHoursSave s = .next { s with nv := { s.nv with hours := s.nv.hours + 1 } }) ∧
     (∀ (a : AgeSite) (m : Nat), a.today = some m → a.hist.length < 90 → (a.endDay).hist = a.hist ++ [m]) ∧
     (∀ a : AgeSite, a.today = none → a.endDay = a))

/-- Supply and clock supervision (R537, R539 to R542, R551): what each event does to SUP_STAT's fields, the slowing of a droop while its
budget lasts, the records 0x9021 to 0x9025 and 0x9029, and the internal resets with their causes. -/
def Obligations.SupplyEventsTakeEffect : Prop :=
  ∀ s : State,
    (∀ rail : Fin 7, (∃ t, exec (.railOutOfWindow rail false) s = .next t ∧
        t = { s with sup := { s.sup with railOut := setBit s.sup.railOut rail false } }) ∧
      (bit s.sup.railOut rail = false →
        (rail = 0 → exec (.railOutOfWindow rail true) s = .next (coldReset
          { setRail s 0 true with aon := {}, sup := { (setRail s 0 true).sup with released := false } })) ∧
        (s.sup.seqDone = true → rail = 2 → ∃ t, exec (.railOutOfWindow rail true) s = .next t ∧ t.drv.st = .off ∧
          t.aon = { s.aon with rstc := 1, rstcNew := true }) ∧
        (s.sup.seqDone = true → rail ≠ 0 → rail ≠ 2 →
          ∃ t, exec (.railOutOfWindow rail true) s = .next t ∧
            t = { s with sup := t.sup, saf := t.saf, drv := t.drv, io := t.io, trc := t.trc } ∧ bit t.sup.railOut rail = true ∧
            bit t.sup.rails (rail - 1) = true ∧
            t.io.lastFault = (if rail = 1 then 0x9021 else if rail = 3 then 0x9022 else if rail = 4 then 0x9023
              else if rail = 5 then 0x9024 else 0x9025)))) ∧
    (∀ level : Nat,
      let k := if level < 920 + 5 * s.nv.ageDth then 2 else if level < 950 + 5 * s.nv.ageDth then 1 else 0
      (k = 0 ∨ 20 ≤ slowedUs s → exec (.droopDetect level) s = .next s) ∧
      (k ≠ 0 → s.drv.st ≠ .off → slowedUs s < 20 →
        (s.sup.slow = 0 → exec (.droopDetect level) s = .next
          { s with sup := { s.sup with slow := k, slowAt := some s.clk.tb, dcnt := satInc 255 s.sup.dcnt } }) ∧
        (s.sup.slow ≠ 0 → exec (.droopDetect level) s = .next { s with sup := { s.sup with slow := max s.sup.slow k } }))) ∧
    (∀ at_, s.sup.slowAt = some at_ → ∃ t, exec .droopEnd s = .next t ∧ t = { s with sup := { s.sup with
        slow := 0, slowAt := none, slowLog := t.sup.slowLog } } ∧ t.sup.slowLog.head? = some (at_, s.clk.tb)) ∧
    (s.sup.seqDone = true →
      let lost (n : Nat) (t : State) : Prop :=
        t.drv.st = .off ∧ t.aon = { s.aon with rstc := BitVec.ofNat 4 n, rstcNew := true } ∧
          t = { State.reset with pending := s.pending, aon := t.aon, nv := t.nv, free := s.free, io := t.io, sup := t.sup } ∧
          t.nv = { s.nv with age := t.nv.age }
      (20 ≤ slowedUs s → ∃ t, exec .droopBudgetExhausted s = .next t ∧ lost 2 t) ∧
      (∃ t, exec .pllLockLoss s = .next t ∧ lost 3 t)) ∧
    (∀ edges, s.drv.st ≠ .off →
      (973 ≤ edges → edges ≤ 1075 → exec (.referenceCountWindow edges) s = .next { s with sup := { s.sup with badRef := 0 } }) ∧
      (edges < 973 ∨ 1075 < edges →
        (s.sup.badRef = 0 → exec (.referenceCountWindow edges) s = .next { s with sup := { s.sup with badRef := 1 } }) ∧
        (s.sup.badRef = 1 → ∃ v, v = { s with sup := { s.sup with badRef := 2, refBit := true } } ∧
          exec (.referenceCountWindow edges) s = .next (record v 0x9029 0xFFFF (supStat v)))))

/-- Power-up in its order (R95, R100 to R105, R672, R674, R692): reset release latches the reference that a pin selects; each event of the start where it applies; a bad rail, a PLL that does not lock
and an expired start are failed starts, which the always-on logic counts while every other domain is reset. -/
def Obligations.PowerUpFollowsTheStartSequence : Prop :=
  ∀ s : State,
    (s.drv.st = .off → ∃ ext : Bool,
      exec .resetRelease s = .next { s with sup := { s.sup with released := true, extRef := ext }, free := s.free + 1 }) ∧
    (s.drv.st = .off → s.sup.released = true → s.sup.stage = 1 →
      exec .nodeIdDelayExpiry s = .next { s with sup := { s.sup with stage := 2, powered := 1 } }) ∧
    (s.sup.powered ≠ 0 → s.sup.seqDone = false → (s.sup.powered = 2 → s.sup.locked = true) →
      (railBad s = false → ∃ t, exec (.startSequencerStep true) s = .next t ∧
        t = { s with sup := { s.sup with powered := s.sup.powered + 1, stage := t.sup.stage, seqDone := s.sup.powered == 19 } } ∧
        t.sup.stage = if s.sup.powered = 19 then 7 else stageOf (s.sup.powered + 1)) ∧
      (exec (.startSequencerStep false) s = .next (startFail s 0x9001 (stageOf s.sup.powered)))) ∧
    (s.drv.st = .off → s.sup.powered = 2 → s.sup.locked = false →
      (∃ t, exec (.pllLockDeadline true) s = .next t ∧ t.drv.st = .boot ∧ t.drv.prev = .off ∧ t.sup.locked = true ∧
        t.clk.sec = 0 ∧ t.clk.ns = 0 ∧ t.nv = s.nv) ∧
      exec (.pllLockDeadline false) s = .next (startFail s 0x9002 3)) ∧
    (s.sup.released = true → s.icp.dead = false → s.drv.st = .off ∨ s.drv.st = .boot →
      exec .startTimeout s = .next (startFail s 0xC001 s.sup.stage)) ∧
    (∀ code stage, ∃ t, startFail s code stage = t ∧ t.drv.st = .off ∧ t.sup.stage = 1 ∧ t.pending = s.pending ∧
      t = { State.reset with pending := s.pending, aon := t.aon, nv := t.nv, free := s.free, io := t.io, sup := t.sup } ∧
      t.aon.fails.head? = some { code := code, stage := BitVec.ofNat 8 stage, secs := s.aon.secs } ∧ t.aon.fails.length ≤ 3 ∧
      1 ≤ t.aon.failCount ∧ t.aon.failCount ≤ 3 ∧ (t.aon.failCount = 3 → t.aon.coppice = true)) ∧
    (∀ ns, (ns < 200 → exec (.resetInput ns) s = .next s) ∧
      (1000 ≤ ns → ∃ t, exec (.resetInput ns) s = .next t ∧ t.drv.st = .off ∧ t.sup.released = false ∧ t.aon = s.aon) ∧
      (200 ≤ ns → ns < 1000 → ∃ t, exec (.resetInput ns) s = .next t ∧ t.free = s.free + 1 ∧
        (t = { s with free := s.free + 1 } ∨ (t.drv.st = .off ∧ t.sup.released = false ∧ t.aon = s.aon)))) ∧
    (∀ aonToo : Bool, ∃ t, exec (.supplyLoss aonToo) s = .next t ∧ t.drv.st = .off ∧ t.sup.released = false ∧
      t.aon = (if aonToo then {} else s.aon) ∧ t.nv = { s.nv with age := t.nv.age } ∧ t.pending = s.pending)

/-- The boot ROM and the entry into STANDBY (R105, R509, R510, R648 to R653): COPPICE where its latch is set; else the selected bank runs
where it verifies and its start self-tests pass, and the firmware then enters STANDBY; a bank that does not verify gives 0xC020, and two
such banks or a failed self-test a failed start. -/
def Obligations.BootRomSelectsVerifiesAndStarts : Prop :=
  ∀ s : State,
    (∀ f : BootFinds, s.drv.st = .boot → s.boot.bank = none → s.icp.held = false → s.icp.dead = false →
      (s.aon.coppice = true → ∃ t, exec (.bootRomStart f) s = .next t ∧ t.drv.st = .coppice ∧ t.drv.cause = s.aon.coppiceReason ∧
        t.saf.coppiceLine = true ∧ t.boot.bank = none) ∧
      (s.aon.coppice = false → s.sup.seqDone = true →
        let p := selectBank (loadFuses s)
        let b := p.2.1
        let ok (i : Nat) : Bool := verifyBank s.nv.fuses (s.nv.banks.at i) == 0
        (ok b = true → failingKind (loadFuses s) f = 0 →
          ∃ t, exec (.bootRomStart f) s = .next t ∧ t.drv.st = .boot ∧ t.boot.bank = some b ∧ t.boot.trial = p.2.2 ∧
            t.boot.fallback = false ∧ t.boot.fuses = s.nv.fuses ∧ t.sup.stage = 9 ∧ t.saf.qaStarted = true) ∧
        (ok b = false → ok (1 - b) = true → failingKind (loadFuses s) f = 0 →
          ∃ t, exec (.bootRomStart f) s = .next t ∧ t.drv.st = .boot ∧ t.boot.bank = some (1 - b) ∧ t.boot.fallback = true ∧
            t.io.lastFault = 0xC020 ∧ t.sup.stage = 9) ∧
        (ok b = false → ok (1 - b) = false → ∃ t, exec (.bootRomStart f) s = .next t ∧ t.drv.st = .off ∧
          t.aon.fails.head? = some { code := 0xC002, stage := 7, secs := s.aon.secs }) ∧
        (ok b = true → failingKind (loadFuses s) f ≠ 0 → ∃ t, exec (.bootRomStart f) s = .next t ∧ t.drv.st = .off ∧
          t.aon.sfail = BitVec.ofNat 8 (failingKind (loadFuses s) f) ∧
          t.aon.fails.head? = some { code := 0xC003, stage := 8, secs := s.aon.secs }))) ∧
    (∀ b, s.drv.st = .boot → s.boot.bank = some b → s.sup.stage = 9 →
      ∃ t, exec .standbyEntry s = .next t ∧ t.drv.st = .standby ∧ t.drv.prev = .boot ∧ t.aon.failCount = 0 ∧ t.nv.banks = s.nv.banks ∧
        t.nv.fuses = s.nv.fuses ∧ t.boot = s.boot ∧
        (s.boot.trial = true → (bcrNow s.nv.bcr).gen ≠ 0xFFFFFFFF → (bcrNow t.nv.bcr).conf = b ∧ (bcrNow t.nv.bcr).trial = 0xFF) ∧
        (s.boot.trial = false → s.boot.fallback = true → (bcrNow s.nv.bcr).gen ≠ 0xFFFFFFFF → (bcrNow t.nv.bcr).conf = b) ∧
        (s.boot.trial = false → s.boot.fallback = false → t.nv.bcr = s.nv.bcr))

/-- MNT_FW_WRITE, MNT_FW_VERIFY, MNT_FW_ACTIVATE, MNT_RESET and MNT_LOG_CLEAR (R80, R84, R537, R649, R654 to R656): an ERASE announces a
length and empties the bank, DATA appends, both while flash is in its window; VERIFY marks a bank that passes R650's checks, or answers
ST_AUTH with the check that failed; ACTIVATE and RESET complete and reset the module; LOG_CLEAR clears what WHAT names. -/
def Obligations.MaintenanceCommandsTakeEffect : Prop :=
  ∀ (r : Req) (s : State),
    (applies 0x5001 r s →
      let b := fieldAt r 9 1
      let n := fieldAt r 12 4
      let m := r.len - 8
      let good := opForm r 8 0 && decide (b < 2) && zeroAt r 10 2 && decide (192 ≤ n) && decide (n ≤ 1572864) && n % 8 == 0
      let dgood := opForm r (8 + m) 1 && decide (b < 2) && zeroAt r 10 2 && decide (8 ≤ m) && decide (m ≤ 3576) && m % 8 == 0 &&
        n == (s.nv.banks.at b).data.length && decide (n + m ≤ (s.nv.banks.at b).len)
      (flashOk s = true →
        (∃ t, exec (.mntFwWriteErase r) s = .next (jobEnd 0x5001 r s good (!bankRuns s b) stBusy t) ∧ t = { s with nv := { s.nv with banks := t.nv.banks } } ∧
          (b < 2 → t.nv.banks.at b = { len := n } ∧ t.nv.banks.at (1 - b) = s.nv.banks.at (1 - b))) ∧
        (∃ t, exec (.mntFwWriteData r) s = .next (jobEnd 0x5001 r s dgood (!bankRuns s b) stBusy t) ∧ t = { s with nv := { s.nv with banks := t.nv.banks } } ∧
          (b < 2 → t.nv.banks.at b =
              { (s.nv.banks.at b) with data := (s.nv.banks.at b).data ++ bytesAt r 16 m, verified := false } ∧
            t.nv.banks.at (1 - b) = s.nv.banks.at (1 - b)))) ∧
      (flashOk s = false → bankRuns s b = false →
        (good = true → exec (.mntFwWriteErase r) s = .next (complete s 0x5001 r stFailed [])) ∧
        (dgood = true → exec (.mntFwWriteData r) s = .next (complete s 0x5001 r stFailed [])))) ∧
    (applies 0x5002 r s → formOk r 1 = true → fieldAt r 8 1 < 2 →
      let b := fieldAt r 8 1
      let k := verifyBank s.boot.fuses (s.nv.banks.at b)
      let x := s.nv.banks.at b
      (k ≠ 0 → exec (.mntFwVerify r) s =
        .next (complete s 0x5002 r stAuth (leBytes 4 k ++ leBytes 4 x.version ++ leBytes 2 x.svn))) ∧
      (k = 0 → ∃ v, exec (.mntFwVerify r) s = .next (complete v 0x5002 r stOk (leBytes 4 0 ++ leBytes 4 x.version ++ leBytes 2 x.svn)) ∧
        v = { s with nv := { s.nv with banks := v.nv.banks } } ∧ v.nv.banks.at b = { x with verified := true })) ∧
    (applies 0x5003 r s →
      (∀ st, activateCheck s r = some st → exec (.mntFwActivate r) s = .next (complete s 0x5003 r st [])) ∧
      (activateCheck s r = none → noEvent s → flashOk s = false → exec (.mntFwActivate r) s = .next (complete s 0x5003 r stFailed [])) ∧
      (activateCheck s r = none → noEvent s → flashOk s = true → ∃ t, exec (.mntFwActivate r) s = .next t ∧ t.drv.st = .off ∧ t.pending = s.pending ∧
        t.aon = { s.aon with failCount := 0, coppice := false } ∧ t.nv.banks = s.nv.banks ∧ t.nv.fuses = s.nv.fuses ∧
        ((bcrNow s.nv.bcr).gen ≠ 0xFFFFFFFF →
          (fieldAt r 8 1 ≠ (bcrNow s.nv.bcr).conf → (bcrNow t.nv.bcr).trial = fieldAt r 8 1 ∧ (bcrNow t.nv.bcr).tried = false) ∧
          (fieldAt r 8 1 = (bcrNow s.nv.bcr).conf → (bcrNow t.nv.bcr).trial = 0xFF) ∧
          (bcrNow t.nv.bcr).conf = (bcrNow s.nv.bcr).conf))) ∧
    (applies 0x5012 r s → formOk r 0 = true → noEvent s →
      (flashOk s = false → exec (.mntReset r) s = .next (complete s 0x5012 r stFailed [])) ∧
      (flashOk s = true → ∃ t, exec (.mntReset r) s = .next t ∧ t.drv.st = .off ∧ t.pending = s.pending ∧ t.aon = s.aon ∧
        t.nv.banks = s.nv.banks ∧ t.nv.fuses = s.nv.fuses ∧ t.nv.bcr = s.nv.bcr ∧ t.nv.flashLog = (copyLog s).nv.flashLog)) ∧
    (applies 0x5011 r s → formOk r 1 = true → fieldAt r 8 1 < 16 → flashOk s = true →
      let w := fieldAt r 8 1
        ∃ v, (w.testBit 0 = true → exec (.mntLogClearRecords r) s = .next (complete v 0x5011 r stOk [])) ∧
          (w.testBit 1 = true → exec (.mntLogClearStartFailures r) s = .next (complete v 0x5011 r stOk [])) ∧
          (w.testBit 2 = true → exec (.mntLogClearWear r) s = .next (complete v 0x5011 r stOk [])) ∧
          (w.testBit 3 = true → exec (.mntLogClearAgeing r) s = .next (complete v 0x5011 r stOk [])) ∧
          v = { s with io := v.io, nv := v.nv } ∧
          v.io = (if w.testBit 0 then { s.io with log := [], logNum := 0 } else s.io) ∧
          v.nv.flashLog = (if w.testBit 0 then [] else s.nv.flashLog) ∧ v.nv.startLog = (if w.testBit 1 then [] else s.nv.startLog) ∧
          v.nv.wear = (if w.testBit 2 then Vector.replicate 16 16384 else s.nv.wear) ∧
          v.nv = { s.nv with flashLog := v.nv.flashLog, startLog := v.nv.startLog, startNum := v.nv.startNum, wear := v.nv.wear,
                             age := v.nv.age })

/-- MNT_FUSE (R99, R473, R657, R658): a bank is programmed once, where its data are in range, and then holds them; a slot that is written
answers ST_BUSY and a spoiled one ST_FAILED; REVOKE only sets bits, and ROLLBACK only raises MINSVN; a mismatch of the read-back answers
ST_FAILED with the record 0xC030. -/
def Obligations.FuseCommandsTakeEffect : Prop :=
  ∀ (r : Req) (s : State), applies 0x5010 r s →
    let f := s.nv.fuses
    let w : W32 := BitVec.ofNat 32 (fieldAt r 12 4)
    let k := fieldAt r 9 1
    let u : W32 := BitVec.ofNat 32 (fieldAt r 44 4)
    let rev := fieldAt r 12 4
    let run := (s.nv.banks.at (s.boot.bank.getD 0)).svn
    let prog (g : Fuses) : State := { s with nv := { s.nv with fuses := g } }
    (f.startCfgSpoiled = false → exec (.mntFuseIdent r true) s = .next (jobEnd 0x5010 r s
      (fuseForm r 0 0 4 && fld w 31 24 == 0 && fld w 15 10 == 0) (!f.startCfgSet) stBusy
      (prog { f with startCfg := w, startCfgSet := true }))) ∧
    ((f.keys.at k).spoiled = false → exec (.mntFuseKey r true) s = .next (jobEnd 0x5010 r s
      (fuseForm r 1 k 36 && decide (2 ≤ k) && decide (k ≤ 3) && fld u 31 3 == 0 && !bit u 0) (!(f.keys.at k).written) stBusy
      (prog { f with keys := f.keys.put k { key := bytesAt r 12 32, kuse := u, written := true } }))) ∧
    (∃ v : BitVec 4, (∀ i < 4, bit v i = (bit f.revoke i || rev.testBit i)) ∧
      exec (.mntFuseRevoke r true) s = .next (jobEnd 0x5010 r s (fuseForm r 2 0 4 && decide (rev < 16) && !(bit v 0 && bit v 1)) true stOk
        (prog { f with revoke := v }))) ∧
    (f.policySpoiled = false → exec (.mntFusePolicy r true) s = .next (jobEnd 0x5010 r s (fuseForm r 3 0 4 && fld w 31 3 == 0) (!f.policySet) stBusy
      (prog { f with policy := w, policySet := true }))) ∧
    (f.safetySpoiled = false → exec (.mntFuseSafety r true) s = .next (jobEnd 0x5010 r s
      (fuseForm r 4 0 80 && safetyBankOk fun i => (safetyWords r).at i) (!f.safetySet) stBusy
      (prog { f with safety := safetyWords r, safetySet := true }))) ∧
    exec (.mntFuseRollback r true) s = .next (jobEnd 0x5010 r s (fuseForm r 5 0 0) (decide (f.minsvn ≤ run)) stTighten (prog { f with minsvn := run })) ∧
    (fuseForm r 5 0 0 = true → f.minsvn ≤ run →
      ∃ v, exec (.mntFuseRollback r false) s = .next (complete v 0x5010 r stFailed []) ∧ v.io.lastFault = 0xC030 ∧
        f.minsvn ≤ v.nv.fuses.minsvn)

/-- CFG_CAN (R558 to R567, R573 to R576): CTRL takes both words in any state where only BOAUTO changes, else in STANDBY and CONFIGURED; MOBJ
writes each named object, at once or after its attempt series; TXDATA makes or follows a request; RECOVER starts the recovery of a bus-
off controller; STATUS_CLR takes its mask. -/
def Obligations.CanConfigurationTakesEffect : Prop :=
  ∀ (r : Req) (s : State), applies 0x1030 r s →
    let c := fieldAt r 9 1
    let x := s.can.at c
    let w : W32 := BitVec.ofNat 32 (fieldAt r 12 4)
    let bt : W64 := BitVec.ofNat 64 (fieldAt r 16 8)
    let o := fieldAt r 10 1
    let n := fieldAt r 11 1
    let m := fieldAt r 12 4
    let names (k : Nat) : Bool := decide (o ≤ k) && decide (k < o + n)
    (∃ t, exec (.cfgCanCtrl r) s = .next (jobEnd 0x1030 r s
        (opForm r 16 0 && decide (c < 4) && zeroAt r 10 2 && fld w 3 0 == 0 && canBtOk w bt &&
          (!bit w 18 || (List.range 4).all fun k => k == c || !(s.can.at k).cmden))
        ((sameOutside 0x08000000 x.ctrl w && x.bt == bt) || s.drv.st == .standby || s.drv.st == .configured) stState t) ∧
      t = { s with can := t.can } ∧ (∀ k, k ≠ c → t.can.at k = s.can.at k) ∧ (c < 4 → t.can.at c = { x with ctrl := w, bt := bt })) ∧
    (∃ t, exec (.cfgCanMobj r) s = .next (jobEnd 0x1030 r s
        (opForm r (8 + 16 * n) 1 && decide (c < 4) && decide (1 ≤ n) && decide (n ≤ 16) && decide (o + n ≤ 128) && zeroAt r 12 4 &&
          (mobjRecs r n).all fun q => mobjOk q.1 q.2)
        (!(x.cmden && (names x.cmdrx || names x.cmdtx))) stBusy t) ∧
      t = { s with can := t.can } ∧ (∀ k, k ≠ c → t.can.at k = s.can.at k) ∧
      (∀ k, names k = false → (t.can.at c).objs.at k = x.objs.at k) ∧
      (c < 4 → o + n ≤ 128 → ∀ i < n, (t.can.at c).objs.at (o + i) = (x.objs.at (o + i)).write
        (BitVec.ofNat 64 (fieldAt r (16 + 16 * i) 8), BitVec.ofNat 64 (fieldAt r (24 + 16 * i) 8)))) ∧
    (∃ t, exec (.cfgCanTxdata r) s = .next (jobEnd 0x1030 r s
        (opForm r (8 + n) 2 && decide (c < 4) && decide (o < 128) && zeroAt r 12 4 && (x.objs.at o).en && (x.objs.at o).tx &&
          n == dlcBytes (x.objs.at o).fdf (x.objs.at o).dlc) true stOk t) ∧
      t = { s with can := t.can } ∧ (∀ k, k ≠ c → t.can.at k = s.can.at k) ∧ (∀ k, k ≠ o → (t.can.at c).objs.at k = x.objs.at k) ∧
      (c < 4 → o < 128 →
        ((x.objs.at o).begun = true → (t.can.at c).objs.at o = { x.objs.at o with after := some (bytesAt r 16 n) }) ∧
        ((x.objs.at o).begun = false → (t.can.at c).objs.at o = { x.objs.at o with data := bytesAt r 16 n, req := true, fails := 0 }))) ∧
    (∃ t, exec (.cfgCanRecover r) s = .next (jobEnd 0x1030 r s (opForm r 8 3 && decide (c < 4) && zeroAt r 10 6) (x.estate == 2) stBusy t) ∧
      t = { s with can := t.can } ∧ (∀ k, k ≠ c → t.can.at k = s.can.at k) ∧ (c < 4 → t.can.at c = { x with recovering := true })) ∧
    (∃ t, exec (.cfgCanStatusClr r) s = .next (jobEnd 0x1030 r s
        (opForm r 8 4 && decide (c < 4) && zeroAt r 10 2 && BitVec.ofNat 32 m &&& 0xFFFFF801 == 0) true stOk t) ∧
      t = { s with can := t.can } ∧ (∀ k, k ≠ c → t.can.at k = s.can.at k) ∧
      (c < 4 → (t.can.at c).flags = x.flags &&& ~~~(BitVec.ofNat 11 m) ∧ (t.can.at c).ctrl = x.ctrl ∧ (t.can.at c).bt = x.bt ∧
        ∀ k < 128, (t.can.at c).objs.at k = if m.testBit 4 then { x.objs.at k with failed := false } else x.objs.at k))

/-- Reception on CAN (R556, R563, R569, R570, R574): a frame that no receive object matches changes no object, one that matches is stored
with NEW in the unlocked object, and in its hold slot while the lock is held; a lock's release moves the hold slot in, Icsis's with NEW
and LOST cleared; the message word of a silent object reads 0 in ARMED and RUNNING. -/
def Obligations.CanReceptionTakesEffect : Prop :=
  ∀ (c : Fin 4) (s : State),
    (∀ f : CanFrame, canRuns s c = true → (s.can.at c).mode = 3 → exec (.canFrameReceived c f) s = .next s) ∧
    (∀ f : CanFrame, canRuns s c = true → (s.can.at c).mode ≠ 3 → f.fdf = false ∨ (s.can.at c).fden = true →
      let v := canGood (updCan s c fun x => { x with integrating := false }) c false
      (f.remote = true ∨ matchObj (v.can.at c) f = none → exec (.canFrameReceived c f) s = .next v) ∧
      (f.remote = false → ∀ o, matchObj (v.can.at c) f = some o → (s.can.at c).cmden = false →
        exec (.canFrameReceived c f) s =
          .next (snoop (storeFrame v c o f) (0x50 + c) [{ addr := o, seq := 0, data := canBytes f }] true))) ∧
    (∀ (o : Nat) (f : CanFrame), o < 128 →
      let x := (s.can.at c).objs.at o
      (x.lock = none → x.wen = false →
        ((storeFrame s c o f).can.at c).objs.at o = { x with frame := some f, new := true, lost := x.lost || x.new }) ∧
      (x.lock ≠ none →
        ((storeFrame s c o f).can.at c).objs.at o = { x with hold := some f, holdLost := x.hold.isSome }) ∧
      (∀ k, k ≠ o → ((storeFrame s c o f).can.at c).objs.at k = (s.can.at c).objs.at k) ∧
      (∀ d, d ≠ c.val → (storeFrame s c o f).can.at d = s.can.at d)) ∧
    (∀ o : Fin 128,
      let x := (s.can.at c).objs.at o
      (∀ w, x.lock = some w → x.hold = none →
        (∃ t, exec (.canLockRelease c o w) s = .next t ∧ t = { s with can := t.can } ∧
          (t.can.at c).objs.at o = { x with lock := none, holdLost := false, new := x.new && (w != .icsis), lost := x.lost && (w != .icsis) } ∧
          (∀ k, k ≠ o.val → (t.can.at c).objs.at k = (s.can.at c).objs.at k) ∧ ∀ d, d ≠ c.val → t.can.at d = s.can.at d) ∧
        (∃ t, exec (.canLockTimeout c o) s = .next t ∧ t = { s with can := t.can } ∧
          (t.can.at c).objs.at o = { x with lock := none, holdLost := false } ∧ bit (t.can.at c).flags 6 = true)) ∧
      (∀ w f, x.lock = some w → x.hold = some f → x.wen = false →
        ∃ t, exec (.canLockRelease c o w) s = .next t ∧ t = { s with can := t.can, io := t.io, trc := t.trc } ∧
          ((t.can.at c).objs.at o).frame = some f ∧ ((t.can.at c).objs.at o).new = true ∧ ((t.can.at c).objs.at o).lock = none ∧
          ((t.can.at c).objs.at o).lost = ((x.lost && (w != .icsis)) || (x.new && (w != .icsis)) || x.holdLost)) ∧
      ((s.can.at c).en = true → x.en = true → x.tx = false → x.wen = true → x.tout ≠ 0 → driving s.drv.st = true →
        ∃ t, exec (.canMessageWordTimeout c o) s = .next t ∧ t = { s with dmd := t.dmd, can := t.can, io := t.io, trc := t.trc } ∧
          t.dmd = { s.dmd with msg := t.dmd.msg } ∧ t.dmd.msg.at x.word = 0 ∧ bit (t.can.at c).flags 7 = true ∧ t.io.lastFault = 0xB006))

/-- Transmission, errors and the descriptors that CAN carries (R556, R561, R564 to R566, R572 to R574): an attempt that is sent ends its
request; one that loses arbitration goes on; a failed one counts up to its limit and then ends with the failed-object bit and TXFAIL; a
periodic request; an error's count; the recovery of bus-off; a completion asked of CMDTX. -/
def Obligations.CanTransmissionTakesEffect : Prop :=
  ∀ (c : Fin 4) (s : State),
    (∀ o : Fin 128, canRuns s c = true → (s.can.at c).mode ≠ 2 → offered (s.can.at c) = some o.val →
      let x := (s.can.at c).objs.at o
      (exec (.canTxAttemptEnd c o .arbitrationLost) s =
        .next (updObj (updCan s c fun x => { x with integrating := false }) c o fun x => { x with begun := true })) ∧
      (∃ t, exec (.canTxAttemptEnd c o .sent) s = .next t ∧
        t.drv.st = s.drv.st ∧ (∀ d, d ≠ c.val → t.can.at d = s.can.at d) ∧
        ((s.can.at c).mode ≠ 3 → (t.can.at c).objs.at o = { x.endSeries with failed := false }) ∧
        ((s.can.at c).mode = 3 → ∃ v, (v.can.at c).objs.at o = { x.endSeries with failed := false } ∧
          t = canReceive (freeTaken v) c (sentFrame (updCan s c fun x => { x with integrating := false }) c o))) ∧
      (∃ t, exec (.canTxAttemptEnd c o .otherError) s = .next t ∧ t = { s with can := t.can, io := t.io, trc := t.trc } ∧
        ((s.can.at c).mode ≠ 1 → x.fails < x.rlim →
          (t.can.at c).objs.at o = { x with fails := x.fails + 1, begun := true } ∧ t.io = s.io) ∧
        ((s.can.at c).mode = 1 ∨ x.rlim ≤ x.fails →
          (t.can.at c).objs.at o = { x.endSeries with failed := true } ∧ bit (t.can.at c).flags 4 = true)) ∧
      (∃ t, exec (.canTxAttemptEnd c o .bitError) s = .next t ∧ bit (t.can.at c).flags 3 = true)) ∧
    (∀ o : Fin 128,
      let x := (s.can.at c).objs.at o
      (s.can.at c).en = true → fromStandby.contains s.drv.st = true → x.en = true → x.tx = true → x.period ≠ 0 →
      (x.req = false → exec (.canPeriodRequest c o) s = .next (updObj s c o fun x => { x with req := true })) ∧
      (x.req = true → exec (.canPeriodRequest c o) s = .next (updCan s c fun x => { x with txlate := satInc 7 x.txlate }))) ∧
    (canRuns s c = true →
      exec (.protocolException c) s = .next (updCan s c fun x => { x with integrating := true }) ∧
      (∀ (e : CanErr) (b : Bool), ∃ t, exec (.canErrorDetected c e b) s = .next t ∧
        t = { s with can := t.can, io := t.io, trc := t.trc } ∧ (∀ d, d ≠ c.val → t.can.at d = s.can.at d) ∧
        (t.can.at c).objs = (s.can.at c).objs ∧ (b = true → bit (t.can.at c).flags 3 = true) ∧
        ((s.can.at c).mode = 1 → (t.can.at c).tec = (s.can.at c).tec ∧ (t.can.at c).rec_ = (s.can.at c).rec_) ∧
        ((s.can.at c).mode ≠ 1 → e = .transmit → (t.can.at c).tec = (s.can.at c).tec + 8 ∧
          (256 ≤ (s.can.at c).tec + 8 → (t.can.at c).estate = 2 ∧ t.io.lastFault = 0xB001)))) ∧
    ((s.can.at c).en = true → fromStandby.contains s.drv.st = true → (s.can.at c).estate = 2 → (s.can.at c).recovering = true →
      exec (.canBusoffRecovery c) s =
        .next (updCan s c fun x => { x with estate := 0, tec := 0, rec_ := 0, recovering := false })) ∧
    (∀ n, canCplRing s = some n → cmdtxReady s c = true → 0 < (s.io.q n).held →
      let o := (s.can.at c).cmdtx
      ∃ t, t = { s with can := t.can } ∧ (t.can.at c).sending = true ∧ (t.can.at c).retry = false ∧ ((t.can.at c).objs.at o).req = true ∧
        ((t.can.at c).objs.at o).data = memRead s.io.qsram (slotAddr n (s.io.q n).hostPtr) 64 ∧
        ((s.can.at c).sending = false → exec (.canCompletionSend c) s = .next t) ∧
        ((s.can.at c).retry = true → exec (.canCompletionRetry c) s = .next t))

/-- CFG_ADX (R591 to R593, R599, R602 to R606): CTRL waits for the next cycle instant and is kept in the flash log when it is applied in
STANDBY; MW writes its entry; TIME_CFG its three fields; TIME_SET and TIME_ADJ act on the local clock while TMODE is 2; STATUS_CLR
clears the flags of its instance. -/
def Obligations.NetworkConfigurationTakesEffect : Prop :=
  ∀ (r : Req) (s : State), applies 0x1031 r s →
    let w : W64 := BitVec.ofNat 64 (fieldAt r 16 8)
    let k := fieldAt r 9 1
    let l : W64 := BitVec.ofNat 64 (fieldAt r 24 8)
    let e : BitVec 48 := BitVec.ofNat 48 (fieldAt r 32 6)
    let n := fieldAt r 24 4
    let v : Int := (BitVec.ofNat 32 (fieldAt r 12 4)).toInt
    let i := fieldAt r 16 5
    let m := fieldAt r 12 4
    exec (.cfgAdxCtrl r) s = .next (jobEnd 0x1031 r s
      (opForm r 16 0 && zeroAt r 9 7 && fld w 1 0 == 0 && adxType w != 0x88F7 && adxType w != 0x88FB && adxRxmax w != 0 &&
        decide (adxC1ofs w ≤ 999))
      (w == s.adx.ctrlNext.getD s.adx.ctrl || s.drv.st == .standby || s.drv.st == .configured) stState
      { s with adx := { s.adx with ctrlNext := some w }
               nv := if s.drv.st == .standby && flashOk s then { s.nv with adxCtrl := some w } else s.nv }) ∧
    (∃ t, exec (.cfgAdxMw r) s = .next (jobEnd 0x1031 r s (opForm r 8 1 && decide (k < 8) && zeroAt r 10 2) true stOk t) ∧
      t = { s with adx := { s.adx with mw := t.adx.mw } } ∧ (k < 8 → t.adx.mw.at k = BitVec.ofNat 32 m) ∧
      ∀ j, j ≠ k → t.adx.mw.at j = s.adx.mw.at j) ∧
    exec (.cfgAdxTimeCfg r) s = .next (jobEnd 0x1031 r s (opForm r 32 2 && zeroAt r 9 7 && zeroAt r 38 2 && timCfgOk w)
      ((sameOutside timRw s.adx.tcfg w && l == s.adx.tlat && e == s.adx.epoch) || s.drv.st == .standby || s.drv.st == .configured) stState
      { s with adx := { s.adx with tcfg := w, tlat := l, epoch := e }
               clk := if tmode w = 1 then { s.clk with incNext := some 0x0800000000 } else s.clk }) ∧
    exec (.cfgAdxTimeSet r) s = .next (jobEnd 0x1031 r s
      (opForm r 28 3 && zeroAt r 9 7 && zeroAt r 22 2 && zeroAt r 28 8 && decide (n < 1000000000))
      (tmode s.adx.tcfg == 2 && s.drv.st != .armed && s.drv.st != .running) stBusy
      { s with clk := { s.clk with sec := BitVec.ofNat 48 (fieldAt r 16 6), ns := BitVec.ofNat 30 n }
               adx := { s.adx with stepped := true } }) ∧
    (r.len = 16 → exec (.cfgAdxTimeAdj r) s = .next (jobEnd 0x1031 r s
      (opForm r 16 4 && zeroAt r 9 7 && zeroAt r 21 3 && decide (34342558499 ≤ i) && decide (i ≤ 34376918237)) (tmode s.adx.tcfg == 2) stBusy
      { s with clk := { s.clk with incNext := some (BitVec.ofNat 40 i) } })) ∧
    (r.len ≠ 16 → exec (.cfgAdxTimeAdj r) s = .next (jobEnd 0x1031 r s
      (opForm r 8 4 && zeroAt r 9 3 && decide (0 ≤ (s.clk.sec.toNat : Int) * 1000000000 + s.clk.ns.toNat + v) &&
        (!driving s.drv.st || decide (|v| ≤ 1000))) (tmode s.adx.tcfg == 2) stBusy
      { s with clk := { s.clk with offset := some v } })) ∧
    (∃ t, exec (.cfgAdxStatusClr r) s = .next (jobEnd 0x1031 r s
        (opForm r 8 5 && decide (k ≤ 3) && zeroAt r 10 2 &&
          (if k = 0 then decide (m < 16) else if k ≤ 2 then m / 2 ^ 4 % 16 == 0 && m / 2 ^ 24 % 64 == 0 else m / 2 ^ 24 % 4 == 0)) true stOk t) ∧
      t = { s with adx := t.adx } ∧
      (k = 0 → t.adx = { s.adx with stat := s.adx.stat &&& ~~~(BitVec.ofNat 4 (m % 8)) }) ∧
      (k = 1 ∨ k = 2 → (t.adx.ports.at (k - 1)).flags = (s.adx.ports.at (k - 1)).flags &&& ~~~(BitVec.ofNat 4 m) ∧
        (t.adx.ports.at (k - 1)).drop = (if m.testBit 1 then 0 else (s.adx.ports.at (k - 1)).drop) ∧
        t.adx.ports.at (2 - k) = s.adx.ports.at (2 - k)) ∧
      (k = 3 → t.adx = { s.adx with stepped := s.adx.stepped && !m.testBit 27, syncLoss := s.adx.syncLoss && !m.testBit 26 }))

/-- Adexia's frames and ports (R579 to R582, R588 to R590, R606): which frames are discarded, which pass the checks, and what duplicate
discard answers; a link that goes down; a missing duplicate; a silent MSG source; completion entries and supervision frames sent. -/
def Obligations.NetworkFramesTakeEffect : Prop :=
  ∀ (p : Fin 2) (s : State),
    (∀ f : EthFrame, portLive s p = false ∨ f.fcsOk = false → exec (.adexiaFrameReceived p f) s = .next s) ∧
    (∀ f : EthFrame, portLive s p = true → f.fcsOk = true → f.srcMac ≠ nodeMac (adxCtl s) (nodeId s) →
      let mine := f.dstMac = nodeMac (adxCtl s) (nodeId s) ∨ f.dstMac = allMac (adxCtl s)
      let bad := updPort s p fun x => { x with bad := x.bad + 1 }
      (f.etype.toNat = adxType (adxCtl s) → ¬mine → exec (.adexiaFrameReceived p f) s = .next s) ∧
      (f.etype.toNat = adxType (adxCtl s) → mine → headerOk f.body = false → exec (.adexiaFrameReceived p f) s = .next bad) ∧
      (f.etype.toNat = adxType (adxCtl s) → mine → headerOk f.body = true →
        exec (.adexiaFrameReceived p f) s = .next (adexiaArrives s p f)) ∧
      (f.etype.toNat ≠ adxType (adxCtl s) → f.etype = 0x88F7 → f.dstMac = nodeMac (adxCtl s) (nodeId s) ∨ f.dstMac.getLsbD 40 = true →
        ∃ t, exec (.adexiaFrameReceived p f) s = .next t ∧ t = { s with adx := t.adx, free := t.free } ∧
          (t.adx.ports.at p).accepted = (s.adx.ports.at p).accepted + 1 ∧
          (byteAt f.body 0 % 16 < 4 → ∃ v, (t.adx.ports.at p).rxStamp = some v ∧ |v + (rxlat s p : Int) - localNs s| ≤ 4)) ∧
      (f.etype.toNat ≠ adxType (adxCtl s) → f.etype ≠ 0x88F7 → f.etype ≠ 0x88FB → exec (.adexiaFrameReceived p f) s = .next bad)) ∧
    (∀ (mac : BitVec 48) (q : Nat) (e : NodeEnt), (s.adx.table.find? fun e => e.mac == mac) = some e →
      (e.judge q s.clk.tb = .accept → (discardDup s p mac q).1 = true ∧
        ((discardDup s p mac q).2.adx.ports.at p).accepted = (s.adx.ports.at p).accepted + 1) ∧
      (e.judge q s.clk.tb = .duplicate → (discardDup s p mac q).1 = false ∧
        ((discardDup s p mac q).2.adx.ports.at p).dup = (s.adx.ports.at p).dup + 1) ∧
      (e.judge q s.clk.tb = .outOfWindow → (discardDup s p mac q).1 = false ∧
        ((discardDup s p mac q).2.adx.ports.at p).oow = (s.adx.ports.at p).oow + 1)) ∧
    (exec (.portLinkChange p true) s = .next (updPort s p fun x => { x with link := true })) ∧
    ((s.adx.ports.at p).link = true → adxRuns s = true → adxPort (adxCtl s) p = true →
      ∃ t, exec (.portLinkChange p false) s = .next t ∧ t = { s with adx := t.adx, io := t.io, trc := t.trc } ∧
        (t.adx.ports.at p).link = false ∧ bit (t.adx.ports.at p).flags 0 = true ∧ t.adx.ports.at (1 - p) = s.adx.ports.at (1 - p) ∧
        t.io.lastFault = if (s.adx.ports.at (1 - p)).link then 0xA001 else 0xA002) ∧
    ((s.adx.ports.at (1 - p)).awaited = [] → exec (.missingDuplicateTimeout p) s = .next s) ∧
    (∀ l w, (s.adx.ports.at (1 - p)).awaited = l ++ [w] → s.clk.tb < w.2.2 + 1600000000 →
      exec (.missingDuplicateTimeout p) s = .next s) ∧
    (∀ l w, (s.adx.ports.at (1 - p)).awaited = l ++ [w] → w.2.2 + 1600000000 ≤ s.clk.tb →
      ∃ t, exec (.missingDuplicateTimeout p) s = .next t ∧ t = { s with adx := t.adx, io := t.io, trc := t.trc } ∧
        (t.adx.ports.at (1 - p)).awaited = l ∧ (t.adx.ports.at p).missAt.head? = some s.clk.tb ∧
        (14 < (s.adx.ports.at p).misses s.clk.tb → bit (t.adx.ports.at p).flags 2 = true)) ∧
    (∀ k : Fin 8, adxFull s = true → mwEn (s.adx.mw.at k) = true → mwTout (s.adx.mw.at k) ≠ 0 → driving s.drv.st = true →
      ∃ t, exec (.adexiaMsgTimeout k) s = .next t ∧
        t = { s with adx := t.adx, dmd := { s.dmd with msg := t.dmd.msg }, io := t.io, trc := t.trc } ∧
        t.dmd.msg.at (mwWord (s.adx.mw.at k)) = 0 ∧ bit t.adx.stat 1 = true ∧ t.io.lastFault = 0xA006) ∧
    (∀ n, adxCplRing s = some n → adxRuns s = true → adxCmden (adxCtl s) = true → 0 < (s.io.q n).held →
      portLive s 0 = true ∨ portLive s 1 = true → ∃ t f, exec .cplFrameSend s = .next t ∧ t = { s with adx := t.adx, io := t.io } ∧ t.adx.sent = [f] ∧ f.cls = 4 ∧
        f.dst = nodeMac (adxCtl s) (adxCmdsrc (adxCtl s)) ∧ t.adx.seq = s.adx.seq + 1 ∧ t.io.qsram = s.io.qsram) ∧
    (adxFull s = true → ∃ t f, exec .supervisionSend s = .next t ∧ t = { s with adx := t.adx } ∧ t.adx.sent = [f] ∧
      f.dst = 0x01154E000100 ∧ t.adx.seq = s.adx.seq + 1)

/-- Time synchronisation (R592, R593, R597, R599, R600): a measurement gives its offset, a clamped TIM_INC and an offset correction, at most
1 us in ARMED and RUNNING; SYNC is lost beyond sixteen times OFSLIM, or with the last source; the periodic messages of a port; the tick
at which a pending offset acts. -/
def Obligations.TimeSynchronisationTakesEffect : Prop :=
  ∀ (p : Fin 2) (s : State),
    (∀ (m : Int) (inc : BitVec 40) (gm : W64), adxFull s = true → portLive s p = true → tmode s.adx.tcfg = 0 →
      s.adx.sport = 3 ∨ s.adx.sport = p.val →
      ∃ t, exec (.ptpSyncMeasurement p m inc gm) s = .next t ∧
        t = { s with adx := t.adx, clk := { s.clk with offset := t.clk.offset, incNext := t.clk.incNext }, io := t.io, trc := t.trc } ∧
        t.adx.sport = p.val ∧ t.adx.ofs = m ∧ t.adx.gm = false ∧ t.adx.gmId = gm ∧
        t.clk.incNext = some (BitVec.ofNat 40 (min 34376918237 (max 34342558499 inc.toNat))) ∧
        (|m| ≤ 1000 → t.clk.offset = some (-m)) ∧
        (1000 < |m| → driving s.drv.st = true → t.clk.offset = some (if 0 < m then -1000 else 1000)) ∧
        (1000 < |m| → driving s.drv.st = false → t.clk.offset = some (-m) ∧ t.adx.stepped = true) ∧
        ((16 * ofslim s.adx.tcfg : Nat) < |m| → t.adx.sync = false ∧ t.adx.good = 0) ∧
        (|m| ≤ (4 * ofslim s.adx.tcfg : Nat) → t.adx.good = satInc 8 s.adx.good ∧
          (t.adx.sync = true ↔ s.adx.sync = true ∨ satInc 8 s.adx.good = 8))) ∧
    (adxFull s = true → tmode s.adx.tcfg = 0 → s.adx.sport ≠ 3 →
      (∃ t, exec (.syncTimeout true) s = .next t ∧ t = { s with adx := { s.adx with sport := 1 - s.adx.sport }, io := t.io, trc := t.trc } ∧
        t.io.lastFault = 0xA012) ∧
      (∃ t, exec (.syncTimeout false) s = .next t ∧ t = { s with adx := t.adx, io := t.io, trc := t.trc } ∧ t.adx.sync = false ∧
        (s.adx.sync = true → t.adx.syncLoss = true ∧ t.io.lastFault = 0xA010))) ∧
    (adxFull s = true → portLive s p = true → ∃ t f, exec (.ptpSyncInterval p) s = .next t ∧ t.adx.sent = [f] ∧ f.ports = [p.val] ∧
      f.seq = none ∧ t.adx.seq = s.adx.seq ∧ (∃ v, f.stamp = some v ∧ |v - (txlat s p : Int) - localNs s| ≤ 4) ∧
      (tmode s.adx.tcfg ≠ 1 ∨ 255 ≤ prio1 s.adx.tcfg → t.adx.gm = false ∧ t.free = s.free + 1)) ∧
    (s.clk.offset.isSome = true ∨ s.clk.incNext.isSome = true →
      ∃ t, exec .oneShotOffsetApply s = .next t ∧ t.clk.offset = none ∧ t.clk.incNext = none ∧ t.clk.tb = s.clk.tb + 32 ∧
        t.clk.inc = s.clk.incNext.getD s.clk.inc)

/-- CFG_CRD (R629 to R632): CFG and PAR take their words, where a field that is not RW changes in STANDBY and CONFIGURED only; STATUS_CLR
takes its mask. Torque allocation and fail-over (R612, R613, R617 to R628): at a cycle instant a module takes the cycle's number and the
appointment in force; at the latch it takes the sections of the cycle, and a member that finds no ALLOC section counts the gap; an
arbiter whose coordinator misses two beats declares it failed with 0xA020; a coordinator's state copy, which is received by the other
module; and the first appointment. -/
def Obligations.TorqueAllocationTakesEffect : Prop :=
  (∀ (r : Req) (s : State), applies 0x1032 r s →
     let w : W64 := BitVec.ofNat 64 (fieldAt r 16 8)
     let f (k : Nat) : W32 := BitVec.ofNat 32 (fieldAt r (24 + 4 * k) 4)
     let c : State := { s with crd := { s.crd with cfg := w } }
     let p : State := { s with crd := { s.crd with par := w, dmax := f 0, kg := #v[f 1, f 2] } }
     let m := fieldAt r 12 4
     exec (.cfgCrdCfg r) s = .next (jobEnd 0x1032 r s (opForm r 16 0 && zeroAt r 9 7 && crdCfgOk s w && slotsOk c)
       (w == s.crd.cfg || s.drv.st == .standby || s.drv.st == .configured) stState c) ∧
     exec (.cfgCrdPar r) s = .next (jobEnd 0x1032 r s
       (opForm r 28 1 && zeroAt r 9 7 && f32Positive (f 0) && f32Positive (f 1) && f32Positive (f 2) && fld w 26 0 == 0 &&
         (!bit w 45 || s.drv.arrange == 0) && slotsOk p)
       (sameOutside 0xFFFFC00000000000 s.crd.par w || s.drv.st == .standby || s.drv.st == .configured) stState p) ∧
     exec (.cfgCrdStatusClr r) s = .next (jobEnd 0x1032 r s (opForm r 8 2 && zeroAt r 9 3 && decide (m < 128) && m % 2 == 0) true stOk
       { s with crd := { s.crd with flags := s.crd.flags &&& ~~~(BitVec.ofNat 7 m) } })) ∧
  (∀ s : State,
     (crdRuns s = true →
       (s.adx.ctrlNext = none → ∃ t, exec .allocCycleInstant s = .next t ∧
         t = { s with crd := t.crd, adx := t.adx, nv := { s.nv with epoch := t.nv.epoch }, io := t.io, trc := t.trc, free := t.free } ∧
         t.crd.cycle = cycleNow s.clk ∧ t.crd.capBefore = s.crd.cap ∧ t.crd.leaving = false ∧
         (t.crd.sending = (isPair s && namedCoord s && decide (s.crd.sinceNamed ≤ 2) &&
           !((match s.crd.arb with | some a => a.epoch | none => s.crd.ownEpoch) < s.crd.allocEpoch : Bool)))) ∧
       (∃ t, exec .allocLatch s = .next t ∧ t.crd.cycle = s.crd.cycle ∧
         t.crd.before = s.crd.reports.filter (fun r => r.cycle == s.crd.cycle) ∧
         t.crd.reports = s.crd.reports.filter (fun r => r.cycle == s.crd.cycle + 1) ∧
         t.crd.sinceNamed = (if s.crd.namedNow then 0 else satInc 3 s.crd.sinceNamed) ∧ t.crd.namedNow = false ∧
         t.crd.stale = s.crd.stale + (if crdMember s then (s.crd.allocs.filter fun a => a.cycle == s.crd.cycle &&
           (match s.crd.applied with | some q => decide (a.epoch.toNat < q.1.toNat) | none => false)).length else 0) ∧
         (crdMember s = true → s.crd.allocs.all (fun a => a.cycle != s.crd.cycle) = true →
           t.crd.gap = satInc 15 s.crd.gap ∧ bit t.crd.flags 1 = true ∧ (s.crd.gap = 7 → t.crd.noAlloc = true)) ∧
         (isArbiter s = true → ∀ co st, s.crd.appointed = some (co, st) → s.crd.failed = false → s.crd.misses = 1 →
           s.crd.allocs.all (fun a => !(a.cycle == s.crd.cycle && a.node == co && a.epoch == s.crd.epoch)) = true →
           t.crd.failed = true ∧ bit t.crd.flags 3 = true))) ∧
     (isPair s = true →
       (s.crd.sending = true →
         exec .stateCopySend s = .next { s with crd := { s.crd with copySent := copyBytes s.crd } }) ∧
       (s.crd.sending = false → ∀ b,
         (b.length ≠ 148 ∨ leNat b 144 4 ≠ (crc32 (b.take 144)).toNat →
           exec (.stateCopyReceived b) s = .next { s with crd := { s.crd with copies := 0 } }) ∧
         (b.length = 148 → leNat b 144 4 = (crc32 (b.take 144)).toNat → ∃ t a, exec (.stateCopyReceived b) s = .next t ∧
           t = { s with crd := { s.crd with copy := some a, copyPrev := t.crd.copyPrev, copies := t.crd.copies } } ∧
           a.epoch = BitVec.ofNat 32 (leNat b 0 4) ∧ a.cycle = BitVec.ofNat 32 (leNat b 4 4) ∧ a.u = BitVec.ofNat 18 (leNat b 8 4) ∧
           a.d = BitVec.ofNat 32 (leNat b 12 4) ∧ a.incl = BitVec.ofNat 1024 (leNat b 16 128) ∧ 1 ≤ t.crd.copies)) ∧
       (∃ t, exec .pairLinkTimeout s = .next t ∧ t = { s with crd := t.crd, io := t.io, trc := t.trc } ∧ t.crd.copies = 0 ∧
         bit t.crd.flags 4 = true ∧ t.io.lastFault = 0xA023)) ∧
     (isArbiter s = true → 10 ≤ s.crd.startCycles → s.crd.appointed = none → s.crd.toAppoint = none →
       let home := homeNode s.crd.cfg
       let part := partnerNode s.crd.cfg
       let ready := reported (s.crd.before ++ s.crd.reports) home Report.ready
       (ready = true ∨ s.crd.arbSeen = false →
         exec .arbiterStartupAppoint s = .next { s with crd := { s.crd with toAppoint := some (home, part) } }) ∧
       (ready = false → s.crd.arbSeen = true →
         exec .arbiterStartupAppoint s = .next { s with crd := { s.crd with toAppoint := some (part, otherOf s part) } })))

/-- The lockstep pair (R487 to R504): CTL_SPLIT and CTL_JOIN, a seal, a mismatch that is counted, captured and holds the cores, its restart
from the checkpoint with the fault 0x4001, the third one at a checkpoint that degrades the pair, and core 1 while split. -/
def Obligations.LockstepPairCommandsTakeEffect : Prop :=
  ∀ (r : Req) (s : State),
    (applies 0x2030 r s → fromStandby.contains s.drv.st = true →
      exec (.ctlSplit r) s = .next (jobEnd 0x2030 r s (formOk r 4 && decide (fieldAt r 8 4 < 16)) (!s.icp.split) stBusy
        { s with icp := { s.icp with split := true, services := BitVec.ofNat 4 (fieldAt r 8 4), core1 := .service
                                     cpnum := s.icp.cpnum + 1, recur := 0, undo := 0, outbuf := 0 } })) ∧
    (applies 0x2031 r s → formOk r 0 = true →
      (s.icp.split = false → ∀ b, exec (.ctlJoin r b) s = .next (complete s 0x2031 r stOk [])) ∧
      (s.icp.split = true → exec (.ctlJoin r true) s = .next (complete { sealCp s with icp :=
          { (sealCp s).icp with split := false, services := 0, core1 := .lockstep, joining := false } } 0x2031 r stOk []) ∧
        exec (.ctlJoin r false) s = .next (degrade s))) ∧
    (s.icp.split = true → s.io.jobs.any (fun j => j.opcode == 0x2031) = true →
      exec .joinStopTimeout s = .next { s with icp := { s.icp with core1 := .held } }) ∧
    (∀ a : W32, s.icp.split = true → s.icp.core1 = .service → a.toNat < 0x3C0000 ∨ 0x3FFFFF < a.toNat →
      ∃ t, exec (.core1PartitionViolation a) s = .next t ∧ t = { s with icp := { s.icp with core1 := .held }, io := t.io, trc := t.trc } ∧
        t.io.lastFault = 0x4011) ∧
    (serving s = true → fromStandby.contains s.drv.st = true → exec .checkpointSeal s =
      .next { s with icp := { s.icp with cpnum := s.icp.cpnum + 1, recur := 0, undo := 0, outbuf := 0 } }) ∧
    (∀ (k : Fin 6) (g : Byte) (o : W32), comparing s = true → k.val < 5 →
      ∃ t, exec (.lockstepMismatch k g o) s = .next t ∧ t.aon.mcnt.toNat = satInc 255 s.aon.mcnt.toNat ∧ t.aon.mcap = mcapWord s k g o ∧
        t.nv = s.nv ∧ t.clk = s.clk ∧ t.io.queues = s.io.queues ∧ t.io.qsram = s.io.qsram ∧
        (s.icp.recur = 2 → t.drv.st = .fault ∧ t.drv.prev = s.drv.st ∧ t.drv.cause = 0x4021 ∧ t.drv.tState = now s ∧ t.icp.dead = true ∧ t.icp.held = true ∧ t.icp.mismatchLine = true ∧ t.aon.coppice = true ∧ t.aon.degr = true ∧
          t.io.lastFault = 0x4021) ∧
        (s.icp.recur ≠ 2 → s.drv.st ≠ .boot → t.icp = { s.icp with recur := s.icp.recur + 1, held := true, mismatchLine := true } ∧
          t.io = s.io) ∧
        (s.icp.recur ≠ 2 → s.drv.st = .boot → t.icp = { s.icp with recur := s.icp.recur + 1, injok := false } ∧ t.boot.bank = none)) ∧
    (s.icp.held = true → s.icp.dead = false → s.icp.haltPend = false →
      ∃ t, exec .checkpointRestart s = .next t ∧ t.icp = { s.icp with held := false, mismatchLine := false, undo := 0, outbuf := 0 } ∧
        t.saf = { s.saf with stoRestart := s.saf.stoRestart || driving s.drv.st } ∧ t.io.lastFault = 0x4001 ∧ t.io.inj = false ∧
        t.nv = s.nv ∧ t.clk = s.clk ∧ t.thk = s.thk)

/-- The debug port (R369, R493, R505, R506, R521, R524, R661): a request gives rights where the policy or the signature grants it; a halt
sets DBG and turns off every unit with FRZ; a resume ends it with 0x4030; a scan entry closes Blackthorn and, unless the policy keeps
them, clears the memories. -/
def Obligations.DebugPortCommandsTakeEffect : Prop :=
  ∀ s : State,
    (s.drv.st ≠ .off → ∀ (rt : BitVec 2) (k : Fin 4) (ch sig : List Byte),
      ∃ t, exec (.debugRequest rt k ch sig) s = .next t ∧ t = { s with icp := t.icp, io := t.io, trc := t.trc } ∧
        t.icp.challenge = some (padTo 32 ch) ∧
        (grants s rt k ch sig = true → t.icp.rights = s.icp.rights ||| rt ∧ t.icp.authSince = true ∧ t.io.lastFault = 0xC031) ∧
        (grants s rt k ch sig = false → t.icp.rights = s.icp.rights ∧ t.icp.authSince = s.icp.authSince ∧ t.io.lastFault = 0xC032)) ∧
    (∀ (rt : BitVec 2) (k : Nat) (ch sig : List Byte),
      (dbgPol s.boot.fuses = 1 → grants s rt k ch sig = false) ∧ (dbgPol s.boot.fuses = 2 → grants s rt k ch sig = true) ∧
      (dbgPol s.boot.fuses = 0 → keyOk s.boot.fuses k = false → grants s rt k ch sig = false)) ∧
    (bit s.icp.rights 0 = true → s.icp.dbg = false → s.icp.dead = false → s.drv.st ≠ .off →
      (s.icp.held = true → exec .debugHalt s = .next { s with icp := { s.icp with haltPend := true } }) ∧
      (s.icp.held = false → ∃ t, exec .debugHalt s = .next t ∧ t = { s with icp := t.icp, pwm := t.pwm, io := t.io, trc := t.trc } ∧
        t.icp = { s.icp with dbg := true, lsbrk := true, haltPend := false } ∧
        ∀ u < 6, (t.pwm.units.at u).frozen = (decide ((s.pwm.units.at u).inForce.frz ≠ 0) || (s.pwm.units.at u).frozen))) ∧
    (s.icp.dbg = true → ∃ t, exec .debugResume s = .next t ∧ t = { s with icp := t.icp, pwm := t.pwm, io := t.io, trc := t.trc } ∧
      t.icp.dbg = false ∧ t.icp.lsbrk = s.icp.lsbrk ∧ t.io.lastFault = 0x4030 ∧
      ∀ u < 6, (t.pwm.units.at u).frozen = false ∧ (t.pwm.units.at u).stopped = false ∧
        (t.pwm.units.at u).hold = ((s.pwm.units.at u).hold || (s.pwm.units.at u).frozen)) ∧
    (bit s.icp.rights 1 = true → s.drv.st = .standby ∨ s.drv.st = .coppice → s.prn.scan = false → s.icp.dead = false →
      ∃ t, exec .scanEntry s = .next t ∧ t.prn.scan = true ∧ t.saf.scanClosed = true ∧ t.aon.scanSeen = true ∧ serving t = false ∧
        level t 0 = 2 ∧ level t 1 = 2 ∧ t.nv = s.nv ∧ t.pending = s.pending ∧
        (scanPol s = false → t.io.qsram = [] ∧ t.io.jobs = [] ∧ t.io.log = [] ∧ t.thk.active = [] ∧ t.thk.rmem = Vector.replicate 4 []) ∧
        (scanPol s = true → t.io = s.io ∧ t.thk = s.thk ∧ t.trc = s.trc))

/-- The self-test scheduler and the rotation of the cells (R131, R132, R509 to R523): a slice starts, aborts with its count, or completes
with the run counted, where a failed one is recorded with 0xC080; an overdue kind; the switch of a logical cell and its abandonment; and
DIA_SELFTEST. -/
def Obligations.SelfTestCommandsTakeEffect : Prop :=
  ∀ s : State,
    (∀ (k : Fin 7) (u : Fin 20),
      (sliceOk s k u = true → ∃ t, exec (.prunerSliceStart k u) s = .next t ∧ t = { s with prn := t.prn, acq := t.acq } ∧
        t.prn.slices = (k.val, u.val) :: s.prn.slices ∧ (k.val ≠ 4 → t.acq = s.acq)) ∧
      (s.prn.slices.contains (k.val, u.val) = true →
        (∃ t, exec (.prunerSliceAbort k u) s = .next t ∧ t = { s with prn := t.prn, acq := t.acq, io := t.io, trc := t.trc } ∧
          t.prn.slices.contains (k.val, u.val) = false ∧ t.prn.open_.contains (k.val, u.val) = true ∧
          abortsOf t k u = abortsOf s k u + 1 ∧ (abortsOf s k u = 15 → t.io.lastFault = 0xC082)) ∧
        (serving s = true → kindActive s k = true →
          (∃ t, exec (.prunerSliceComplete k u true) s = .next t ∧ t = { s with prn := t.prn, acq := t.acq, thk := t.thk } ∧
            t.prn.slices.contains (k.val, u.val) = false ∧ t.prn.open_.contains (k.val, u.val) = false ∧ abortsOf t k u = 0 ∧
            lastRun t k u = s.clk.tb ∧ fld (t.prn.krec.at k) 63 48 = (fld (s.prn.krec.at k) 63 48 + 1) % 65536) ∧
          (∃ t, exec (.prunerSliceComplete k u false) s = .next t ∧ bit (t.prn.krec.at k) 2 = true ∧
            t.prn.slices.contains (k.val, u.val) = false ∧ t.nv = s.nv ∧ t.pending = s.pending ∧
            (k.val = 1 → t.io.lastFault = 0xC080 ∧ t.thk = s.thk)))) ∧
      (serving s = true → kindActive s k = true → u.val < kindUnits.getD k 0 → dueOver s k u = true →
        ∃ t, exec (.prnOverdue k u) s = .next t ∧ t = { s with prn := t.prn, io := t.io, trc := t.trc } ∧
          bit (t.prn.krec.at k) 3 = true ∧ t.prn.open_.contains (k.val, u.val) = true ∧ t.io.lastFault = 0xC081)) ∧
    (∀ (b : Fin 16) (k : Fin 15),
      let x := s.thk.blocks.at b
      (x.switching = some k.val → exec (.cellSwitchAbandon b k) s = .next (countAbort s 0 b)) ∧
      (x.switching ≠ some k.val → exec (.cellSwitch b k) s = .next s ∧ exec (.cellSwitchAbandon b k) s = .next s) ∧
      (x.switching = some k.val → x.noSpare = false → x.stopped = false → x.mapped k = true → (∀ c < 160, (ctxAt s c).act = none) →
        ∃ t, exec (.cellSwitch b k) s = .next t ∧ t = { s with thk := t.thk } ∧ (t.thk.blocks.at b).switching = none ∧
          (t.thk.blocks.at b).phys k = x.heldCell % 16 ∧ fld (t.thk.blocks.at b).map 31 28 = x.phys k ∧
          ∀ j, j ≠ b.val → t.thk.blocks.at j = s.thk.blocks.at j)) ∧
    (∀ r : Req, applies 0x6001 r s →
      (opForm r 8 0 = true → zeroAt r 9 7 = true →
        exec (.diaSelftestQuery r) s = .next (complete s 0x6001 r stOk (selftestResult s))) ∧
      (let kind := fieldAt r 9 1
       let m := fieldAt r 12 4
       ∃ t, exec (.diaSelftestStatusClr r) s = .next (jobEnd 0x6001 r s
          (opForm r 8 2 && decide (1 ≤ kind) && decide (kind ≤ 7) && zeroAt r 10 2 && (m ||| 12) == 12) (s.drv.st != .coppice) stBusy t) ∧
        t = { s with prn := { s.prn with krec := t.prn.krec } } ∧
        (1 ≤ kind → kind ≤ 7 → t.prn.krec.at (kind - 1) = clearKrec m (s.prn.krec.at (kind - 1)))) ∧
      (let kind := fieldAt r 9 1
       let u := fieldAt r 10 1
       opForm r 8 1 = true → zeroAt r 11 5 = true →
       (1 ≤ kind → kind ≤ 7 → u < kindUnits.getD (kind - 1) 0 →
          (s.drv.st = .coppice ∨ kindActive s (kind - 1) = false →
            ∀ o a b, exec (.diaSelftestRun r o a b) s = .next (complete s 0x6001 r stBusy [])) ∧
          (s.drv.st ≠ .coppice → kindActive s (kind - 1) = true → ∀ a b,
            exec (.diaSelftestRun r 0 a b) s = .next (complete (runDone s (kind - 1) u true) 0x6001 r stOk [0]) ∧
            exec (.diaSelftestRun r 1 a b) s = .next (complete (runDone s (kind - 1) u false) 0x6001 r stFailed [1]) ∧
            exec (.diaSelftestRun r 2 a b) s = .next (complete (countAbort s (kind - 1) u) 0x6001 r stFailed [2]))) ∧
       (kind = 0x48 → u = 0 → s.drv.st = .configured → s.icp.split = false →
          ∀ o, exec (.diaSelftestRun r o 0xFFFF 0xFF) s = .next (complete s 0x6001 r stOk [0xFF, 0xFF, 0xFF]))))

/-- The queries (R60, R83, R85 to R89, R107, R660, R686): each answers its RESULT and changes nothing but what reading changes, and ST_RANGE
where its arguments name nothing. -/
def Obligations.QueriesAnswerTheirResults : Prop :=
  ∀ (r : Req) (s : State),
    (applies 0x3001 r s →
      (formOk r 0 = true → exec (.qryState r) s = .next (complete s 0x3001 r stOk (stateBytes s))) ∧
      (formOk r 0 = false → exec (.qryState r) s = .next (complete s 0x3001 r stRange []))) ∧
    (applies 0x3002 r s →
      (formOk r 0 = true → exec (.qryStatus r) s = .next (complete s 0x3002 r stOk (statusBytes s))) ∧
      (formOk r 0 = false → exec (.qryStatus r) s = .next (complete s 0x3002 r stRange []))) ∧
    (applies 0x3003 r s →
      let what := fieldAt r 8 1
      let found := configBytes s what (fieldAt r 9 1) (fieldAt r 10 1) (fieldAt r 11 1) (fieldAt r 12 1)
      (found = none ∨ formOk r 5 = false → exec (.qryConfig r) s = .next (complete s 0x3003 r stRange [])) ∧
      (∀ l, found = some l → formOk r 5 = true →
        (s.drv.st ≠ .coppice → exec (.qryConfig r) s =
          .next (complete (if what = 4 then lawConstsTaken s (fieldAt r 9 1) else if what = 2 then freeTaken s else s) 0x3003 r stOk l)) ∧
        (s.drv.st = .coppice → what ≤ 1 → exec (.qryConfig r) s = .next (complete s 0x3003 r stOk (List.replicate l.length 0))) ∧
        (s.drv.st = .coppice → 1 < what → exec (.qryConfig r) s = .next (complete s 0x3003 r stBusy [])))) ∧
    (applies 0x3004 r s →
      let sel := fieldAt r 8 1
      (∀ l t, sel < 0xB0 ∨ 0xB3 < sel → formOk r 1 = true → telemetry s sel 0 0 = some (l, t) →
        exec (.qryTelemetry r) s = .next (complete t 0x3004 r stOk l) ∧
        t = { s with chk := t.chk, free := t.free, io := t.io, trc := t.trc } ∧ (sel ≠ 0xD0 → t.chk = s.chk ∧ t.io = s.io)) ∧
      (∀ l t, 0xB0 ≤ sel → sel ≤ 0xB3 → formOk r 3 = true → fieldAt r 10 1 ≤ 16 → fieldAt r 9 1 + fieldAt r 10 1 ≤ 128 →
        telemetry s sel (fieldAt r 9 1) (fieldAt r 10 1) = some (l, t) →
        exec (.qryTelemetry r) s = .next (complete t 0x3004 r stOk l) ∧
        l.length = 40 + 76 * fieldAt r 10 1 ∧ ∀ k, k ≠ sel - 0xB0 → t.can.at k = s.can.at k)) ∧
    (applies 0x3005 r s → formOk r 0 = true →
      exec (.qryCapacity r) s = .next (complete s 0x3005 r stOk ((List.range 5).flatMap (capacityOf s r)))) ∧
    (applies 0x3006 r s → formOk r 24 = true → (opRow (fieldAt r 8 2)).isSome = true → fieldAt r 10 2 ≤ maxLen (fieldAt r 8 2) →
      zeroAt r 12 4 = true → ∃ n, exec (.qryCmdCost r) s = .next (complete s 0x3006 r stOk
        (leBytes 4 (costOf (fieldAt r 8 2) (costedReq r)) ++ leBytes 2 (longest (fieldAt r 8 2) (costedReq r)) ++ leBytes 1 n))) ∧
    (applies 0x3007 r s → formOk r 8 = true → fieldAt r 8 1 ≤ 2 → 1 ≤ fieldAt r 9 1 → fieldAt r 9 1 ≤ 64 → zeroAt r 10 2 = true →
      let log := if fieldAt r 8 1 = 0 then s.io.log else if fieldAt r 8 1 = 1 then s.nv.flashLog else s.nv.startLog
      let start : W32 := BitVec.ofNat 32 (fieldAt r 12 4)
      let rs := (if start = 0xFFFFFFFF then log else log.dropWhile fun f => f.num != start).take (fieldAt r 9 1)
      exec (.qryFaultLog r) s = .next (complete s 0x3007 r stOk
        (leBytes 4 rs.length ++ leBytes 4 ((log.head?.map fun f => f.num.toNat).getD 0) ++ rs.flatMap FaultRec.bytes))) ∧
    (applies 0x3008 r s →
      (opForm r 40 0 = true → zeroAt r 9 7 = true →
        exec (.qryAttestReport r) s = .next (complete (if s.boot.bank.isSome then s else { s with free := s.free + 2 }) 0x3008 r stOk
          (attestReport s (bytesAt r 16 32)))) ∧
      (opForm r 40 1 = true → zeroAt r 9 39 = true →
        exec (.qryAttestEndorse r) s = .next (complete s 0x3008 r stOk
          (edPublic Config.identitySeed ++ leBytes 8 Config.serial.toNat ++ padTo 64 Config.endorsement))))

/-- DIA_TRACE, DIA_INJECT and DIA_AGEING (R89, R90, R552, R553): ARM replaces the capture, STOP ends it, READ and STATUS answer the present
or the saved one; an injection answers the code of its first record and the time of the reaction, and leaves the trip lines as they
were; the ageing records are read, planned anew and cleared. -/
def Obligations.DiagnosticCommandsTakeEffect : Prop :=
  ∀ (r : Req) (s : State),
    (applies 0x6002 r s →
      let op := fieldAt r 8 1
      let c := if op < 128 then s.trc.cap else s.nv.saved
      let first := fieldAt r 16 4
      let n := fieldAt r 20 2
      (∃ t, exec (.diaTraceArm r) s = .next (jobEnd 0x6002 r s (traceArmOk r) (s.drv.st != .coppice && s.drv.st != .standby) stBusy t) ∧
        t = { s with trc := t.trc } ∧ bit t.trc.cap.stat 31 = true ∧ bit t.trc.cap.stat 30 = false ∧ t.trc.cap.samples = [] ∧
        t.trc.nch = fieldAt r 9 1 ∧ t.trc.ctx = fieldAt r 10 1 ∧ t.trc.div = fieldAt r 11 1 ∧ t.trc.pre = fieldAt r 12 2 ∧
        t.trc.tmode = fieldAt r 14 1 ∧ t.trc.chans = (List.range (fieldAt r 9 1)).map fun i => fieldAt r (24 + 4 * i) 4) ∧
      exec (.diaTraceStop r) s = .next (jobEnd 0x6002 r s (opForm r 1 1) true stOk
        { s with trc := { s.trc with cap := { s.trc.cap with stat := setBit s.trc.cap.stat 31 false } } }) ∧
      (formOk r 16 = true → op % 128 = 2 → zeroAt r 9 7 = true → zeroAt r 22 2 = true → 1 ≤ n → first + n ≤ c.samples.length →
        entriesOf (traceBytes c first n).length ≤ 64 → exec (.diaTraceRead r) s = .next (complete s 0x6002 r stOk
          (leBytes 4 c.stat.toNat ++ leBytes 4 first ++
            ((c.samples.drop first).take n).flatMap fun row => row.flatMap fun w => leBytes 4 (ext18 w)))) ∧
      (formOk r 1 = true → op % 128 = 3 → exec (.diaTraceStatus r) s = .next (complete s 0x6002 r stOk
        (leBytes 4 c.stat.toNat ++ leBytes 4 c.trigIdx ++ leBytes 8 c.trigTime.toNat)))) ∧
    (applies 0x6003 r s → ∀ ns : W32,
      (injectOk r = false → exec (.diaInject r ns) s = .next (complete s 0x6003 r stRange [])) ∧
      (injectOk r = true → s.icp.split = true → exec (.diaInject r ns) s = .next (complete s 0x6003 r stBusy [])) ∧
      (injectOk r = true → s.icp.split = false → fieldAt r 8 1 ≠ 7 →
        ∃ v, exec (.diaInject r ns) s = .next (complete v 0x6003 r stOk
            (leBytes 2 (firstCode s.io v.io) ++ [0, 0] ++ leBytes 4 ns.toNat)) ∧ v.io.inj = s.io.inj ∧
          (fieldAt r 8 1 ≤ 5 → v.prt.tripLine = s.prt.tripLine ∧ v.prt.act = s.prt.act ∧ v.prt.legOff = s.prt.legOff) ∧
          v.nv = s.nv ∧ v.clk = s.clk) ∧
      (injectOk r = true → s.icp.split = false → fieldAt r 8 1 = 7 →
        ∃ t, exec (.diaInject r ns) s = .next t ∧ t.icp.held = true ∧ t.icp.mismatchLine = true ∧ t.icp.recur = (sealCp s).icp.recur ∧
          t.aon.mcnt.toNat = satInc 255 s.aon.mcnt.toNat)) ∧
    (applies 0x6004 r s →
      let k := fieldAt r 9 1
      let m := fieldAt r 9 2
      (ageForm r 0 = true → exec (.diaAgeingQuery r) s = .next (complete s 0x6004 r stOk
        (leBytes 4 s.nv.hours ++ leBytes 4 0 ++ (s.nv.age.toList.flatMap fun a => leBytes 8 a.word.toNat)))) ∧
      exec (.diaAgeingReplan r) s = .next (jobEnd 0x6004 r s (ageForm r 1) (s.drv.st == .standby || s.drv.st == .configured) stBusy (replan s)) ∧
      (ageForm r 2 = true → k ≤ 9 → exec (.diaAgeingHistory r) s = .next (complete s 0x6004 r stOk
        (BitVec.ofNat 8 (s.nv.age.at k).hist.length :: (s.nv.age.at k).hist.map (BitVec.ofNat 8)))) ∧
      (∃ t, exec (.diaAgeingStatusClr r) s = .next (jobEnd 0x6004 r s (ageForm r 3 && decide (fieldAt r 10 1 < 4)) true stOk t) ∧
        t = { s with nv := { s.nv with age := t.nv.age } } ∧
        ∀ i < 10, t.nv.age.at i =
          if m.testBit i then { s.nv.age.at i with word := setBit (s.nv.age.at i).word 18 false } else s.nv.age.at i))

/-- The cell's arithmetic (R114 to R121): where a slot runs and its condition is met, each operation gives its cell the value of R119, X[RD]
and ACC saturated with SAT; a slot whose condition is not met writes nothing, one whose operand link is empty waits whatever its condition
is, and a link's word is taken all the same. -/
def Obligations.CellArithmeticGivesItsResults : Prop :=
  ∀ (c : CellSel) (w : W64) (s : State) (b p : Nat) (x : Cell),
    let a := srcA w x
    let sh := fld w 24 20
    let gives (y : Cell × Bool) : Host.Outcome State Fault Refusal := .next (slotGives c w s b p y)
    let runs (op : Nat) : Prop := slotOn op c w s b p x ∧ condMet w x = true
    (runs 0x00 → exec (.opNop c w) s = gives (x, false)) ∧
    (runs 0x01 → exec (.opWait c w) s = gives (x, false)) ∧
    (runs 0x04 → exec (.opLdacc c w) s = gives (toAcc x (a * 131072))) ∧
    (runs 0x08 → exec (.opRnd c w) s = gives (toRd w x (rndDiv (x.acc.toInt * 2 ^ sh) 131072))) ∧
    (runs 0x0C → exec (.opNeg c w) s = gives (toRd w x (-a))) ∧
    (runs 0x0D → exec (.opAbs c w) s = gives (toRd w x |a|)) ∧
    (runs 0x11 → exec (.opShl c w) s = gives (toRd w x (a * 2 ^ sh))) ∧
    (runs 0x12 → exec (.opShr c w) s = gives (toRd w x (rndDiv a (2 ^ sh)))) ∧
    (runs 0x1F → exec (.opSqrt c w) s = gives (if x.acc.toInt < 0 then (x.setX (slotRd w) 0, true) else toRd w x (sqrtRound x.acc.toInt.toNat))) ∧
    (∀ (i : Instr) (op : Nat), (i, op) ∈ ([(.opNop c w, 0x00), (.opWait c w, 0x01), (.opLdacc c w, 0x04), (.opRnd c w, 0x08), (.opNeg c w, 0x0C), (.opAbs c w, 0x0D), (.opShl c w, 0x11), (.opShr c w, 0x12), (.opSqrt c w, 0x1F)] : List (Instr × Nat)) →
      slotOn op c w s b p x → condMet w x = false → exec i s = .next (slotDone s c w false)) ∧
    (∀ (v : Int) (y : Cell), operandB s b c.lcell w x = some (v, y) →
      let d := srcA w y
      let t : State := if fld w 41 40 = 3 then useLink s c.ctx (b, c.lcell.val, fld w 21 20) else s
      let gives (z : Cell × Bool) : Host.Outcome State Fault Refusal := .next (slotGives c w t b p z)
      (runs 0x05 → exec (.opMul c w) s = gives (toAcc y (d * v))) ∧
      (runs 0x06 → exec (.opMac c w) s = gives (toAcc y (y.acc.toInt + d * v))) ∧
      (runs 0x07 → exec (.opMsu c w) s = gives (toAcc y (y.acc.toInt - d * v))) ∧
      (runs 0x0A → exec (.opAdd c w) s = gives (toRd w y (d + v))) ∧
      (runs 0x0B → exec (.opSub c w) s = gives (toRd w y (d - v))) ∧
      (runs 0x0E → exec (.opMin c w) s = gives (toRd w y (min d v))) ∧
      (runs 0x0F → exec (.opMax c w) s = gives (toRd w y (max d v))) ∧
      (runs 0x10 → exec (.opLim c w) s = gives (toRd w y (max (-|v|) (min |v| d)))) ∧
      (runs 0x14 → exec (.opCmplt c w) s = gives ({ y with p := decide (d < v) }, false)) ∧
      (runs 0x15 → exec (.opCmpge c w) s = gives ({ y with p := decide (v ≤ d) }, false)) ∧
      (runs 0x16 → exec (.opCmpeq c w) s = gives ({ y with p := decide (d = v) }, false)) ∧
      (runs 0x17 → exec (.opSel c w) s = gives (toRd w y (if y.p then d else v))) ∧
      (runs 0x18 → exec (.opAnd c w) s = gives (toRd w y (w18 d &&& w18 v).toInt)) ∧
      (runs 0x19 → exec (.opOr c w) s = gives (toRd w y (w18 d ||| w18 v).toInt)) ∧
      (runs 0x1A → exec (.opXor c w) s = gives (toRd w y (w18 d ^^^ w18 v).toInt)) ∧
      (runs 0x1E → exec (.opDiv c w) s = gives (y.setX (slotRd w) (divWord d v).1, (divWord d v).2)) ∧
      (runs 0x1D → ∃ n : Int, exec (.opAtan2 c w) s =
          .next (slotGives c w { t with free := s.free + 1 } b p ({ y with x := y.x.put (slotRd w) (w18 n) }, false)) ∧
        (d = 0 → v = 0 → n = 0) ∧ 0 ≤ n ∧ n < 262144) ∧
      (∀ (i : Instr) (op : Nat), (i, op) ∈ secondOperand c w → slotOn op c w s b p x → condMet w x = false →
        exec i s = .next (slotDone (updCell t b p fun _ => y) c w false))) ∧
    (∀ (i : Instr) (op : Nat), (i, op) ∈ secondOperand c w → slotOn op c w s b p x → operandB s b c.lcell w x = none → exec i s = .next s) ∧
    (runs 0x1C → ∃ sn cs : Int,
      exec (.opSincos c w) s = .next (slotGives c w { s with free := s.free + 2 } b p
        ((x.setX (slotRd w) sn).setX (slotRd w + 1) cs, sats18 sn || sats18 cs)) ∧
      |sn - (sinWord (angleA w x)).1| ≤ 2 ∧ |cs - (cosWord (angleA w x)).1| ≤ 2) ∧
    (∀ v : Int, toRd w x v = ({ x with x := x.x.put (slotRd w) (BitVec.ofInt 18 (max (-131072) (min 131071 v))) },
      decide (v < -131072 ∨ 131071 < v))) ∧
    (∀ v : Int, (toAcc x v).1.acc.toInt = max (-140737488355328) (min 140737488355327 v) ∧ (toAcc x v).1.x = x.x ∧ (toAcc x v).1.p = x.p ∧
      (toAcc x v).2 = decide (v < -140737488355328 ∨ 140737488355327 < v))

/-- The cell's memory, link and output operations (R112, R118 to R127, R132, R135 to R140, R149): loads and stores of coefficient and region
memory, the table operation, links that wait while a queue is empty or full, compare writes and load-all that act in RUNNING only, a
pending flag bit, and the end of a cell's part, whatever its condition; what a slot writes whose condition is not met. -/
def Obligations.CellMemoryAndOutputOperationsTakeEffect : Prop :=
  ∀ (c : CellSel) (w : W64) (s : State) (b p : Nat) (x : Cell),
    let blk := s.thk.blocks.at b
    let a := (ctxAt s c.ctx).act.getD {}
    let g := loadRegionOf s c ((a.pos.lookup (c.block.val, c.lcell.val)).getD 0)
    let addr := fld w 39 25
    let v := x.x.at (fld w 51 47)
    let l := fld w 21 20
    let runs (op : Nat) : Prop := slotOn op c w s b p x ∧ condMet w x = true
    (runs 0x24 → exec (.opLdc c w) s =
      .next (slotGives c w s b p (toRd w x (s18 (memGet blk.coef (c.lcell * 512 + fld w 33 25)))))) ∧
    (runs 0x25 → exec (.opLd c w) s = .next (slotGives c w s b p (toRd w x (s18 (ctxLoad s c.ctx g addr a))))) ∧
    (runs 0x20 → ∃ (n : Int) (y : Cell × Bool), exec (.opLut c w) s = .next (slotGives c w { s with free := s.free + 3 } b p y) ∧
      (n = 0 ∨ n = 1) ∧
      (let k := 18 - fld w 24 20
       let i := (srcA w x + 131072).toNat
       let o := fld w 33 25 + i / 2 ^ k
       let q := c.lcell * 512 + o
       let d := s18 (memGet blk.coef (q + 1)) - s18 (memGet blk.coef q)
       o + 1 < 512 →
         y = toRd w x (s18 (memGet blk.coef q) + ((i % 2 ^ k : Nat) * d) / 2 ^ k + n) ∧ (((i % 2 ^ k : Nat) * d) % 2 ^ k = 0 → n = 0))) ∧
    (runs 0x26 → exec (.opSt c w) s = .next (slotDone (ctxStore s c.ctx addr v) c w false)) ∧
    (∀ st : State, st = ctxStore s c.ctx addr v →
      let h := (ctxAt s c.ctx).region
      let bk := !(ctxAt s c.ctx).stBank
      (addr < 0x400 → st = s) ∧
      (0x400 ≤ addr → addr < 0x1000 → st = { s with thk := { s.thk with ctxs := st.thk.ctxs } } ∧
        (ctxAt st c.ctx).act = ((ctxAt s c.ctx).act.map fun q => { q with sig := (addr, v) :: q.sig }) ∧
        ∀ d, d ≠ c.ctx.val → ctxAt st d = ctxAt s d) ∧
      (0x1000 ≤ addr → st = { s with thk := { s.thk with rmem := st.thk.rmem, rmemB := st.thk.rmemB } } ∧
        (∀ (j : Nat) (k : Bool) (e : Nat), j ≠ h ∨ e ≠ addr ∨ k ≠ bk → Memory.wf (bankOf s.thk j k) →
          memGet (bankOf st.thk j k) e = memGet (bankOf s.thk j k) e) ∧
        (Memory.wf (bankOf s.thk h bk) → memGet (bankOf st.thk h bk) addr = v))) ∧
    (runs 0x28 →
      let t := linkTarget b c.lcell l
      let tb := s.thk.blocks.at t.1
      let q := (tb.cells.at (tb.phys t.2.1)).queue t.2.2
      (l ≠ 3 → tb.mapped t.2.1 = true → q.length < 2 → exec (.opPut c w) s =
        .next (slotDone (updCell (useLink s c.ctx t) t.1 (tb.phys t.2.1) fun y => y.setQueue t.2.2 (q ++ [v])) c w false)) ∧
      (tb.mapped t.2.1 = false ∨ 2 ≤ q.length → exec (.opPut c w) s = .next s)) ∧
    (runs 0x29 →
      (∀ e q, x.queue l = e :: q → exec (.opGet c w) s =
        .next (slotDone (updCell (useLink s c.ctx (b, c.lcell.val, l)) b p fun y => { y.setQueue l q with x := y.x.put (slotRd w) e })
          c w false)) ∧
      (x.queue l = [] → exec (.opGet c w) s = .next s)) ∧
    (runs 0x2C →
      (pwmWrites s c.ctx = true → exec (.opWcmp c w) s =
        .next (snoop (putShadow (slotDone s c w false) (fld w 32 25) v) 0x10 [shadowItem (fld w 32 25) v] false)) ∧
      (pwmWrites s c.ctx = false → exec (.opWcmp c w) s = .next (slotDone s c w false))) ∧
    (runs 0x2D →
      (pwmWrites s c.ctx = true → exec (.opLdall c w) s = .next (snoop (setLda (slotDone s c w false) (fld w 7 0) true) 0x10 [] true)) ∧
      (pwmWrites s c.ctx = false → exec (.opLdall c w) s = .next (slotDone s c w false))) ∧
    (runs 0x2E → ∃ t, exec (.opFlag c w) s = .next t ∧ t = { s with thk := { s.thk with ctxs := t.thk.ctxs } } ∧
      (ctxAt t c.ctx).flagsPend = setBit (ctxAt s c.ctx).flagsPend (fld w 23 20) (bit w 0) ∧
      (ctxAt t c.ctx).flags = (ctxAt s c.ctx).flags) ∧
    (slotOn 0x02 c w s b p x → ∃ t q, exec (.opEnd c w) s = .next t ∧
      t = { s with thk := { s.thk with ctxs := t.thk.ctxs, preempted := t.thk.preempted } } ∧ (ctxAt t c.ctx).act = some q ∧
      q.ended.contains (c.block.val, c.lcell.val) = true ∧ q.started.contains (c.block.val, c.lcell.val) = true) ∧
    (∀ (i : Instr) (op : Nat), (i, op) ∈ ([(.opLdc c w, 0x24), (.opLd c w, 0x25), (.opSt c w, 0x26), (.opWcmp c w, 0x2C),
        (.opLdall c w, 0x2D), (.opFlag c w, 0x2E)] : List (Instr × Nat)) → slotOn op c w s b p x → condMet w x = false →
      exec i s = .next (slotDone s c w false))

/-- Contexts (R29, R30, R122, R144 to R149, R154): a trigger counts up to the divider and then releases the context, or is dropped while an
activation runs; a completion of an activation whose cells have ended ends it, counts it and switches the state bank, a suppressed one
ends alone; the watchdog ends an activation and, in a second period in a row, loses the context; a preemption is noted. -/
def Obligations.ContextEventsTakeEffect : Prop :=
  ∀ s : State,
    (∀ (c : Fin 160) (late : List Nat) (i : CtxImg), imgOf s c = some i → i.num = c.val →
      (fld (ctxAt s c).ctrl 23 16 ∉ [0, 7, 8, 0x20]) → (ctxAt s c).en = true → (ctxAt s c).lost = false →
      let x := ctxAt s c
      (x.divCount < fld x.ctrl 7 0 → exec (.contextRelease c late) s =
        .next (updCtx s c fun x => { x with divCount := x.divCount + 1 })) ∧
      (fld x.ctrl 7 0 ≤ x.divCount → ctxRuns s c = false → exec (.contextRelease c late) s =
        .next (updCtx s c fun x => { x with divCount := 0 })) ∧
      (fld x.ctrl 7 0 ≤ x.divCount → ctxRuns s c = true → x.act.isSome = true → ∃ t, exec (.contextRelease c late) s = .next t ∧
        t = { s with thk := t.thk, io := t.io, trc := t.trc } ∧ (ctxAt t c).act = x.act ∧ (ctxAt t c).divCount = 0 ∧
        bit (ctxAt t c).status 5 = true ∧ t.io.lastFault = 0x5006) ∧
      (fld x.ctrl 7 0 ≤ x.divCount → ctxRuns s c = true → x.act = none → ∃ t a, exec (.contextRelease c late) s = .next t ∧
        (ctxAt t c).act = some a ∧ a.pos = (i.runs.map fun r => ((r.block, r.cell), r.first)) ∧ a.started = [] ∧ a.ended = [] ∧ a.suppressed = false ∧ (ctxAt t c).divCount = 0 ∧ (ctxAt t c).primed = true ∧ t.nv = s.nv ∧
        t.clk = s.clk ∧ t.pending = s.pending)) ∧
    (∀ (c : Fin 160) (i : CtxImg) (a : Activation), imgOf s c = some i → i.num = c.val → (ctxAt s c).act = some a →
      (actDone s c a = false → exec (.contextCompletion c) s = .next s) ∧
      (actDone s c a = true → a.suppressed = true → ∃ t, exec (.contextCompletion c) s = .next t ∧ t = { s with thk := t.thk } ∧
        (ctxAt t c).act = none ∧ (ctxAt t c).acts = (ctxAt s c).acts ∧ (ctxAt t c).stBank = (ctxAt s c).stBank) ∧
      (actDone s c a = true → a.suppressed = false → dependents s c = [] → ∃ t, exec (.contextCompletion c) s = .next t ∧
        (ctxAt t c).act = none ∧ (ctxAt t c).acts = (ctxAt s c).acts + 1 ∧ (ctxAt t c).stBank = !(ctxAt s c).stBank ∧
        (ctxAt t c).overran = false ∧ t.clk = s.clk ∧ t.pending = s.pending)) ∧
    (∀ c : Fin 160,
      ((ctxAt s c).act = none → exec (.watchdogDeadline c) s = .next s) ∧
      ((ctxAt s c).act ≠ none → ∃ t, exec (.watchdogDeadline c) s = .next t ∧
        t = { s with thk := t.thk, saf := t.saf, drv := t.drv, io := t.io, trc := t.trc } ∧ (ctxAt t c).act = none ∧
        bit (ctxAt t c).status 1 = true ∧ (ctxAt t c).overran = true ∧
        ((ctxAt s c).overran = false → t.io.lastFault = 0x5005 ∧ t.drv = s.drv) ∧
        ((ctxAt s c).overran = true → (ctxAt t c).lost = true))) ∧
    (∀ (h : Fin 160) (q : CellSel),
      let a := (ctxAt s q.ctx).act.getD {}
      let hi := (ctxAt s h).act.getD {}
      let cell := (q.block.val, q.lcell.val)
      (ctxAt s h).act.isSome = true → (ctxAt s q.ctx).act.isSome = true → (ctxAt s h).region = (ctxAt s q.ctx).region →
      outranks s h q.ctx = true → (hi.pos.lookup cell).isSome = true → hi.ended.contains cell = false → hi.started.contains cell = false →
      (a.pos.lookup cell).isSome = true → a.started.contains cell = true → a.ended.contains cell = false → a.pp.contains cell = true →
      s.thk.preempted.any (fun p => p.ctx == q.ctx.val && p.block == q.block.val && p.lcell == q.lcell.val) = false →
      exec (.preemption h q) s = .next { s with thk := { s.thk with
        preempted := { block := q.block.val, lcell := q.lcell.val, ctx := q.ctx.val, by_ := h.val } :: s.thk.preempted } })

/-- Faults of Thicket (R22 to R27, R129, R133 to R135, R141): a cell with a parity fault goes out of service, replaced by the spare of its
block where there is one, with 0x5001; a single-bit error is counted and corrected; a double-bit one reloads the word once, with 0x5002,
0x5003 or 0x5004, and suppresses its readers. -/
def Obligations.ThicketErrorsTakeEffect : Prop :=
  ∀ s : State,
    (∀ (b k : Fin 16),
      let x := s.thk.blocks.at b
      (x.inSvc k = false → exec (.cellParityError b k none) s = .next s) ∧
      (x.inSvc k = true → x.serves k = none → ∃ t, exec (.cellParityError b k none) s = .next t ∧
        t = { s with thk := t.thk, prn := { s.prn with slices := t.prn.slices }, io := t.io, trc := t.trc } ∧
        (t.thk.blocks.at b).inSvc k = false ∧ (t.thk.blocks.at b).stopped = true ∧ t.io.lastFault = 0x5001) ∧
      (∀ n, x.inSvc k = true → x.serves k = some n → x.noSpare = false → ∃ t, exec (.cellParityError b k none) s = .next t ∧
        t = { s with thk := t.thk, prn := { s.prn with slices := t.prn.slices }, io := t.io, trc := t.trc } ∧
        (t.thk.blocks.at b).inSvc k = false ∧ (t.thk.blocks.at b).noSpare = true ∧ (t.thk.blocks.at b).phys n = x.heldCell ∧
        t.io.lastFault = 0x5001) ∧
      (∀ n, x.inSvc k = true → x.serves k = some n → x.noSpare = true → usersOf s b n = [] →
        ∃ t, exec (.cellParityError b k none) s = .next t ∧ (t.thk.blocks.at b).inSvc k = false ∧
          (t.thk.blocks.at b).mapped n = false ∧ t.io.lastFault = 0x5001)) ∧
    (∀ (b : Fin 16) (rd : List (Fin 160)),
      let x := s.thk.blocks.at b
      let corr : State := updBlock s b fun x => { x with map := incSat x.map 27 20 }
      (∀ a : Fin 8192, exec (.coefEccError b a false rd) s = .next corr ∧
        (x.coefReloaded.contains a.val = false → ∃ t, exec (.coefEccError b a true rd) s = .next t ∧
          t = { s with thk := t.thk, io := t.io, trc := t.trc } ∧ t.io.lastFault = 0x5002 ∧
          (t.thk.blocks.at b).coefReloaded = a.val :: x.coefReloaded ∧
          (t.thk.blocks.at b).coef = memSet x.coef a (imageWord (s.thk.body.map ImageBody.coef) (b * 8192 + a))) ∧
        (x.coefReloaded.contains a.val = true → ∃ t, exec (.coefEccError b a true rd) s = .next t ∧
          ∀ c ∈ rd, (ctxAt t c).lost = true)) ∧
      (∀ a : Fin 4096, exec (.opmemEccError b a false rd) s = .next corr ∧
        (x.opReloaded.contains a.val = false → ∃ t, exec (.opmemEccError b a true rd) s = .next t ∧
          t = { s with thk := t.thk, io := t.io, trc := t.trc } ∧ t.io.lastFault = 0x5003 ∧
          (t.thk.blocks.at b).opReloaded = a.val :: x.opReloaded ∧
          (t.thk.blocks.at b).op = memSet x.op a (imageWord (s.thk.body.map fun i => blockWords i b) a)) ∧
        (x.opReloaded.contains a.val = true → ∃ t, exec (.opmemEccError b a true rd) s = .next t ∧
          ∀ c ∈ rd, (ctxAt t c).lost = true))) ∧
    (∀ (g : Fin 4) (a : Fin 32768) (rd : List (Fin 160)),
      exec (.regionMemoryEccError g a false rd) s = .next s ∧
      (∃ t, exec (.regionMemoryEccError g a true rd) s = .next t ∧
        t = { s with thk := t.thk, saf := t.saf, drv := t.drv, io := t.io, trc := t.trc, free := t.free } ∧ t.io.lastFault = 0x5004 ∧
        (∀ c ∈ rd, bit (ctxAt t c).status 3 = true) ∧
        (a.val < 0x400 → t.free = s.free + 1) ∧
        (0x400 ≤ a.val → Memory.wf (s.thk.rmem.at g) → t.free = s.free ∧
          memGet (t.thk.rmem.at g) a = initialWord s g a) ∧
        (rd.any (fun c => (ctxAt s c).outPwm) = true → t.saf.stoEscal = true)))

/-- After any reset the queues stand as R50 lists them, with queue SRAM cleared and every pointer at 0: in the state right after power-up
and in what a reset makes of any state. -/
def Obligations.ResetConfiguresTheQueues : Prop :=
  ∀ (s t : State), t = State.reset ∨ t = coldReset s →
    t.io.qsram = [] ∧ (∀ n < 64, (t.io.q n).hostPtr = 0 ∧ (t.io.q n).icsisPtr = 0) ∧
    (∀ n, (n, (t.io.q n).dir, (t.io.q n).n, (t.io.q n).source, (t.io.q n).pairRing) ∈
        ([(8, 1, 32, 0, 9), (10, 1, 32, 1, 11), (12, 1, 16, 2, 13)] : List (Nat × Nat × Nat × Nat × Nat)) ↔ n = 8 ∨ n = 10 ∨ n = 12) ∧
    (∀ n, (n, (t.io.q n).dir, (t.io.q n).n, (t.io.q n).source) ∈ ([(9, 2, 32, 0), (11, 2, 32, 1), (13, 2, 16, 2)] : List (Nat × Nat × Nat × Nat)) ↔
      n = 9 ∨ n = 11 ∨ n = 13) ∧
    (∀ n, n < 8 ∨ 14 ≤ n → n < 64 → (t.io.q n).dir = 0)

/-- What the machine holds right after reset where the spec gives the value (R21, R50, R74, R75, R95, R143, R404, R473, R592, R602, R649),
every memory in its canonical form, no command waiting. -/
def Obligations.ResetHoldsTheStatedValues : Prop :=
  State.reset.drv.st = .off ∧ State.reset.pending = [] ∧ memoriesWf State.reset ∧ State.reset.io.irqStat = 0 ∧ State.reset.io.irqEn = 0 ∧
    State.reset.io.hpErr = 0 ∧ State.reset.io.lastFault = 0 ∧ State.reset.io.latched = [] ∧ State.reset.io.log = [] ∧
    State.reset.io.faultCount = 0 ∧ State.reset.io.evMask = 0 ∧ (∀ k < 3, State.reset.io.evRing.at k = 0) ∧
    State.reset.drv.legs = 0 ∧ State.reset.drv.stopT = 1000 ∧ State.reset.clk.inc = 0x0800000000 ∧
    (∀ k < 16, State.reset.nv.wear.at k = 16384) ∧
    State.reset.nv.fuses.safetySet = false ∧ State.reset.nv.fuses.startCfgSet = false ∧ State.reset.nv.fuses.policySet = false ∧
    State.reset.nv.fuses.minsvn = 0 ∧ State.reset.nv.fuses.revoke = 0 ∧
    (∀ k < 4, (State.reset.nv.fuses.keys.at k).written = decide (k = 0)) ∧
    State.reset.adx.ctrl = 0x6000445A80020000 ∧ State.reset.adx.tcfg = 0x1FFA320000000000 ∧ State.reset.aon.failCount = 0 ∧
    State.reset.aon.coppice = false ∧ (∀ u < 8, (State.reset.chk.at u).cfg = 0) ∧ State.reset.icp.split = false ∧
    State.reset.icp.cpnum = 0 ∧ State.reset.saf.viol = 0 ∧ State.reset.saf.bkct = 0 ∧ serving State.reset = false

/-- A completion of one entry (R49, R58, R59): it stands in the next slot of the paired ring with PHASE of the present pass, the pointer
advances and PHASE inverts where it wraps, the job is no longer outstanding, and every other byte of queue SRAM reads as before. -/
def Obligations.CompletionEntryIsWritten : Prop :=
  ∀ (s : State) (op : Nat) (r : Req) (st : W16) (result : List Byte),
    let n := (s.io.q r.ring).pairRing
    let c := s.io.q n
    let a := n * 0x4000 + c.icsisPtr * 64
    let p := (c.icsisPtr + 1) % c.n
    (s.io.q r.ring).isSub = true → c.isCpl = true → result.length ≤ 40 → 1 ≤ s.io.freeSlots n → Memory.wf s.io.qsram →
    ∃ t, complete s op r st result = t ∧
      memRead t.io.qsram a 64 = leBytes 2 op ++ leBytes 2 r.seq.toNat ++ leBytes 2 st.toNat ++ leBytes 1 r.ring ++ leBytes 1 (b2n c.phase) ++
        leBytes 8 (((jobOf s op r).map Job.tAcc).getD (now s)).toNat ++ leBytes 8 (now s).toNat ++ padTo 40 result ∧
      (∀ b, b < a ∨ a + 64 ≤ b → memGet t.io.qsram b = memGet s.io.qsram b) ∧
      (t.io.q n).icsisPtr = p ∧ (t.io.q n).phase = (if p = 0 then !c.phase else c.phase) ∧ (t.io.q n).hostPtr = c.hostPtr ∧
      (∀ k, k ≠ n → t.io.q k = s.io.q k) ∧
      t.io.jobs = (match jobOf s op r with | some j => s.io.jobs.erase j | none => s.io.jobs) ∧
      (bit r.flags 1 = true → n < 64 → bit t.io.irqStat n = true)

/-- Every step keeps every memory in its canonical form, from any state, whether a run reaches it or not. -/
def Obligations.EveryStepKeepsTheMemoryForm : Prop :=
  ∀ s t : State, memoriesWf s → step s = .next t → memoriesWf t

/-- Every command answers a next state and leaves the queue of waiting commands alone, and none but MNT_FUSE changes a fuse (R657, R658). -/
def Obligations.OnlyFuseCommandsChangeTheFuses : Prop :=
  ∀ (c : Instr) (s : State), ∃ t, exec c s = .next t ∧ t.pending = s.pending ∧
    ((∀ r, jobOpcode c ≠ some (0x5010, r)) → t.nv.fuses = s.nv.fuses)

/-- The module changes its state only along the rows of R95, whatever the command and the state it comes in. -/
def Obligations.StateChangesFollowTheTable : Prop :=
  ∀ (c : Instr) (s t : State), exec c s = .next t → t.drv.st = s.drv.st ∨ mayMove s.drv.st t.drv.st = true

/-- R124: WCMP and LDALL reach the PWM generator only in RUNNING, in a context whose OUT_PWM is 1, while the activation's outputs are not
suppressed; in any other case nothing but the context's own progress changes. After the watchdog deadline no activation is left. -/
def Obligations.CompareWritesActOnlyWhereR124Allows : Prop :=
  ∀ (q : CellSel) (w : W64) (s : State),
    (∀ i, i = .opWcmp q w ∨ i = .opLdall q w →
      s.drv.st ≠ .running ∨ (ctxAt s q.ctx).outPwm = false ∨ (ctxAt s q.ctx).act = none ∨
        (∃ a, (ctxAt s q.ctx).act = some a ∧ a.suppressed = true) →
      ∃ t, exec i s = .next t ∧ t = { s with thk := { s.thk with ctxs := t.thk.ctxs } }) ∧
    (∀ b p x a, s.drv.st = .running → (ctxAt s q.ctx).outPwm = true → (ctxAt s q.ctx).act = some a → a.suppressed = false →
      condMet w x = true →
      (slotOn 0x2C q w s b p x → ∃ t, exec (.opWcmp q w) s = .next t ∧
        t.pwm = (putShadow s (fld w 32 25) (x.x.at (fld w 51 47))).pwm) ∧
      (slotOn 0x2D q w s b p x → ∃ t, exec (.opLdall q w) s = .next t ∧
        ∀ u < 6, (fld w 7 0).testBit u = true → (t.pwm.units.at u).lda = true)) ∧
    (∃ t, exec (.watchdogDeadline q.ctx) s = .next t ∧ (ctxAt t q.ctx).act = none)

/-- R454: a pair demands its function from the instant the first of its channels accepts a demand, and stops demanding when both channels
have accepted the run level. -/
def Obligations.InputPairDemandsFromTheFirstChannel : Prop :=
  ∀ (p : Fin 4) (s : State), pairFn s p ≠ 0 → blkUp s = true → ∀ chB : Bool,
    let x := s.saf.pairs.at p
    let other := if chB then x.demA else x.demB
    (∀ mv : Nat, inputDemands s p chB mv = true → ∃ t, exec (.safetyInputChange p chB mv) s = .next t ∧ (t.saf.pairs.at p).demand = true) ∧
    (∀ mv : Nat, inputDemands s p chB mv = false → ∃ t, exec (.safetyInputChange p chB mv) s = .next t ∧
      (other = false → (t.saf.pairs.at p).demand = false) ∧ (other = true → (t.saf.pairs.at p).demand = x.demand)) ∧
    (∀ q : Fin 4, q ≠ p → ∀ mv : Nat, ∃ t, exec (.safetyInputChange p chB mv) s = .next t ∧ t.saf.pairs.at q = s.saf.pairs.at q)

/-- R618: at a latch without an ALLOC section for the cycle a member counts it as missed in GAP, a field of 4 bits, and keeps its
allocations (but for the eighth missed latch, where R619 has its say); with one, GAP is 0. -/
def Obligations.MissedAllocationsAreCounted : Prop :=
  ∀ s : State, crdRuns s = true → crdMember s = true →
    ((∀ a ∈ s.crd.allocs, a.cycle ≠ s.crd.cycle) → ∃ t, exec .allocLatch s = .next t ∧
      t.crd.gap = (if s.crd.gap < 15 then s.crd.gap + 1 else 15) ∧ (s.crd.gap ≠ 7 ∨ crdCompat s.crd.cfg = true → t.thk = s.thk)) ∧
    ((∃ a ∈ s.crd.allocs, a.cycle = s.crd.cycle ∧ ∀ e n, s.crd.applied = some (e, n) → e.toNat ≤ a.epoch.toNat) →
      ∃ t, exec .allocLatch s = .next t ∧ t.crd.gap = 0)

/-- R642: with EXPEN = 1 a frame whose result differs from EXP sets MISM, and fault 0xD001 is written where MISM changes from 0 to 1, and
there only. -/
def Obligations.CheckUnitMismatchIsRecordedOnce : Prop :=
  (∀ u : Chk, bit u.cfg 31 = true → u.value ≠ u.exp → bit u.closed.stat 1 = true) ∧
  (∀ u : Chk, bit u.cfg 31 = false ∨ u.value = u.exp → bit u.closed.stat 1 = bit u.stat 1) ∧
  (∀ (s : State) (k : Nat) (u : Chk), k < 8 →
    (bit (s.chk.at k).stat 1 = false → bit u.stat 1 = true →
      (putChk s k u).chk.at k = u ∧ (putChk s k u).io.lastFault = 0xD001 ∧
      ((putChk s k u).io.log.head?.map FaultRec.code) = some 0xD001) ∧
    (bit (s.chk.at k).stat 1 = true ∨ bit u.stat 1 = false → putChk s k u = { s with chk := s.chk.put k u }))
end

