-- ==== Sys2Proof/Laws/Mem.lean ====
section
/-! SUPPORT. Laws of the numbered tables and of the sparse memories: reading after writing, and the canonical form that every operation
keeps. -/

namespace Vector

variable {n : Nat} {α : Type} [Inhabited α]

theorem at_eq_getElem (t : Vector α n) {i : Nat} (h : i < n) : t.at i = t[i] := by simp [Vector.at, h]

theorem at_of_le (t : Vector α n) {i : Nat} (h : n ≤ i) : t.at i = default := by simp [Vector.at, h]

theorem at_put_same (t : Vector α n) {i : Nat} (x : α) (h : i < n) : (t.put i x).at i = x := by
  simp [Vector.at, Vector.put, h]

theorem at_put_ne (t : Vector α n) {i j : Nat} (x : α) (h : j ≠ i) : (t.put i x).at j = t.at j := by
  simp [Vector.at, Vector.put, h.symm]

theorem at_put (t : Vector α n) (i j : Nat) (x : α) : (t.put i x).at j = if j = i ∧ i < n then x else t.at j := by
  by_cases hj : j = i
  · by_cases h : i < n
    · subst hj; simp [at_put_same, h]
    · subst hj; rw [at_of_le _ (by omega), at_of_le _ (by omega)]; simp [h]
  · simp [at_put_ne, hj]

theorem at_upd_same (t : Vector α n) {i : Nat} (f : α → α) (h : i < n) : (t.upd i f).at i = f (t.at i) := at_put_same t _ h

theorem at_upd_ne (t : Vector α n) {i j : Nat} (f : α → α) (h : j ≠ i) : (t.upd i f).at j = t.at j := at_put_ne t _ h

theorem at_upd (t : Vector α n) (i j : Nat) (f : α → α) : (t.upd i f).at j = if j = i ∧ i < n then f (t.at i) else t.at j := at_put t i j _

theorem at_map {β : Type} [Inhabited β] (t : Vector α n) (f : α → β) {i : Nat} (h : i < n) : (t.map f).at i = f (t.at i) := by
  simp [Vector.at, h]

theorem at_ofFn (f : Fin n → α) {i : Nat} (h : i < n) : (Vector.ofFn f).at i = f ⟨i, h⟩ := by simp [Vector.at, h]

theorem at_replicate (x : α) {i : Nat} (h : i < n) : (Vector.replicate n x).at i = x := by simp [Vector.at, h]

/-- What an update keeps of every entry, a table keeps. -/
theorem upd_preserves {P : α → Prop} (t : Vector α n) (i : Nat) (f : α → α) (h : ∀ j < n, P (t.at j)) (hf : i < n → P (f (t.at i))) :
    ∀ j < n, P ((t.upd i f).at j) := by
  intro j hj
  rw [at_upd]; split
  · rename_i hc; exact hf hc.2
  · exact h j hj

end Vector

namespace Sys2Proof.Machine

variable {n : Nat}

@[simp] theorem memGet_nil (a : Nat) : memGet ([] : Mem n) a = 0 := rfl

theorem memGet_memSet_same (m : Mem n) (a : Nat) (v : BitVec n) (h : Memory.wf m) : memGet (memSet m a v) a = v := by
  induction m with
  | nil => simp only [memSet]; split <;> simp_all [memGet]
  | cons x t ih =>
    obtain ⟨b, w⟩ := x
    have ht : Memory.wf t := ⟨(List.pairwise_cons.1 h.1).2, fun y hy => h.2 y (List.mem_cons_of_mem _ hy)⟩
    have none : ∀ c, c ≤ b → memGet t c = 0 := by
      intro c hc
      have := (List.pairwise_cons.1 h.1).1
      clear ih ht h
      induction t with
      | nil => rfl
      | cons y t ih =>
        have h1 := this y (by simp)
        simp only [memGet, show y.1 ≠ c by simp at h1; omega, if_false]
        exact ih fun z hz => this z (by simp [hz])
    simp only [memSet]
    split
    · split
      · simp only [memGet, show b ≠ a by omega, if_false, *]; exact none _ (by omega)
      · simp [memGet]
    · split
      · subst a; split
        · rw [none b (Nat.le_refl b)]; simp [*]
        · simp [memGet]
      · simp only [memGet, show b ≠ a by omega, if_false]; exact ih ht

theorem memGet_memSet_ne (m : Mem n) {a c : Nat} (v : BitVec n) (h : c ≠ a) : memGet (memSet m a v) c = memGet m c := by
  induction m with
  | nil => simp only [memSet]; split <;> simp [memGet, h.symm]
  | cons x t ih =>
    obtain ⟨b, w⟩ := x
    simp only [memSet]
    split
    · split <;> simp [memGet, h.symm]
    · split
      · split
        · simp only [memGet, show b ≠ c by omega, if_false]
        · simp only [memGet, h.symm, show b ≠ c by omega, if_false]
      · simp only [memGet, ih]

theorem memSet_mem {m : Mem n} {a : Nat} {v : BitVec n} {x : Nat × BitVec n} (h : x ∈ memSet m a v) : x = (a, v) ∧ v ≠ 0 ∨ x ∈ m := by
  induction m with
  | nil => simp only [memSet] at h; split at h <;> simp_all
  | cons y t ih =>
    obtain ⟨b, w⟩ := y
    simp only [memSet] at h
    split at h
    · split at h <;> simp_all
    · split at h
      · split at h <;> simp_all; rcases h with h | h <;> simp [h]
      · rcases List.mem_cons.1 h with h | h
        · simp [h]
        · rcases ih h with h | h
          · exact Or.inl h
          · exact Or.inr (List.mem_cons_of_mem _ h)

/-- Writing a word keeps the canonical form. -/
theorem memSet_wf {m : Mem n} {a : Nat} {v : BitVec n} (h : Memory.wf m) : Memory.wf (memSet m a v) := by
  refine ⟨?_, fun x hx => ?_⟩
  · induction m with
    | nil => simp only [memSet]; split <;> simp
    | cons y t ih =>
      obtain ⟨b, w⟩ := y
      have hp := List.pairwise_cons.1 h.1
      have ht : Memory.wf t := ⟨hp.2, fun y hy => h.2 y (List.mem_cons_of_mem _ hy)⟩
      simp only [memSet]
      split
      · split
        · exact h.1
        · refine List.pairwise_cons.2 ⟨fun z hz => ?_, h.1⟩
          rcases List.mem_cons.1 hz with rfl | hz
          · assumption
          · exact Nat.lt_trans (by assumption) (hp.1 z hz)
      · split
        · split
          · exact hp.2
          · subst a; exact List.pairwise_cons.2 ⟨hp.1, hp.2⟩
        · refine List.pairwise_cons.2 ⟨fun z hz => ?_, ih ht⟩
          rcases memSet_mem hz with ⟨rfl, _⟩ | hz
          · simp; omega
          · exact hp.1 z hz
  · rcases memSet_mem hx with ⟨rfl, hv⟩ | hx
    · exact hv
    · exact h.2 x hx

theorem memPuts_wf {m : Mem n} (l : List (Nat × BitVec n)) (h : Memory.wf m) : Memory.wf (memPuts m l) := by
  induction l generalizing m with
  | nil => exact h
  | cons x t ih => obtain ⟨a, v⟩ := x; exact ih (memSet_wf h)

theorem memWrite_wf {m : Mem n} {a : Nat} (l : List (BitVec n)) (h : Memory.wf m) : Memory.wf (memWrite m a l) := by
  induction l generalizing m a with
  | nil => exact h
  | cons x t ih => exact ih (memSet_wf h)

theorem memPart_wf {m : Mem n} {lo hi : Nat} (h : Memory.wf m) : Memory.wf (memPart m lo hi) :=
  ⟨h.1.filter _, fun x hx => h.2 x (List.mem_of_mem_filter hx)⟩

theorem nil_wf : Memory.wf ([] : Mem n) := ⟨List.Pairwise.nil, by simp⟩

/-- Words outside those written read as before. -/
theorem memGet_memWrite_of_out (m : Mem n) {a c : Nat} (l : List (BitVec n)) (h : c < a ∨ a + l.length ≤ c) :
    memGet (memWrite m a l) c = memGet m c := by
  induction l generalizing m a with
  | nil => rfl
  | cons x t ih =>
    simp only [List.length_cons] at h
    rw [memWrite, ih _ (by omega), memGet_memSet_ne _ _ (by omega)]

/-- The words written read back. -/
theorem memGet_memWrite_of_in (m : Mem n) {a k : Nat} (l : List (BitVec n)) (hm : Memory.wf m) (h : k < l.length) :
    memGet (memWrite m a l) (a + k) = l[k] := by
  induction l generalizing m a k with
  | nil => simp at h
  | cons x t ih =>
    rw [memWrite]
    cases k with
    | zero => rw [memGet_memWrite_of_out _ _ (by omega)]; simpa using memGet_memSet_same m a x hm
    | succ k =>
      have := ih (memSet m a x) (a := a + 1) (k := k) (memSet_wf hm) (by simpa using h)
      rw [show a + (k + 1) = a + 1 + k by omega, this]; rfl

/-- Reading what was written, as many words at the same place. -/
theorem memRead_memWrite (m : Mem n) (a : Nat) (l : List (BitVec n)) (hm : Memory.wf m) : memRead (memWrite m a l) a l.length = l := by
  apply List.ext_getElem
  · simp [memRead]
  · intro k h1 h2
    simp only [memRead, List.getElem_map, List.getElem_range]
    exact memGet_memWrite_of_in m l hm h2

/-- Reading words away from those written. -/
theorem memRead_memWrite_of_out (m : Mem n) {a c k : Nat} (l : List (BitVec n)) (h : c + k ≤ a ∨ a + l.length ≤ c) :
    memRead (memWrite m a l) c k = memRead m c k := by
  simp only [memRead]
  apply List.map_congr_left
  intro i hi
  exact memGet_memWrite_of_out m l (by have := List.mem_range.1 hi; omega)

end Sys2Proof.Machine
end

