-- ==== Sys2Proof/Laws/Kept.lean ====
section
/-! SUPPORT. What almost every operation leaves alone: the queue of waiting commands, the fuses, the module state, and the canonical
form of every memory. One relation, closed under the operations of the model, so that a proof goes from the operation to its parts
without unfolding the state. -/

namespace Sys2Proof.Machine

/-- From `s` to `t` the queue and the fuses are unchanged, the memories keep their form, and with `b` the module state is unchanged. -/
structure Kept (b : Bool) (s t : State) : Prop where
  pending : t.pending = s.pending
  fuses : t.nv.fuses = s.nv.fuses
  st : b = true → t.drv.st = s.drv.st
  mem : memoriesWf s → memoriesWf t

/-- A meaning answers a next state that is kept. -/
def Answers (b : Bool) (s : State) (o : Host.Outcome State Fault Refusal) : Prop := ∃ t, o = .next t ∧ Kept b s t

/-- The state with which a job is done is kept. -/
inductive Done.Kept (b : Bool) (s : State) : Done → Prop
  | refuse {st : W16} : Done.Kept b s (.refuse st)
  | done {t : State} {st : W16} {result : List Byte} (h : Machine.Kept b s t) : Done.Kept b s (.done t st result)

theorem memoriesWf.qsram {s : State} (h : memoriesWf s) : Memory.wf s.io.qsram := h.1
theorem memoriesWf.rmem {s : State} (h : memoriesWf s) : ∀ g < 4, Memory.wf (s.thk.rmem.at g) := fun g hg => (h.2.1 g hg).1
theorem memoriesWf.rmemB {s : State} (h : memoriesWf s) : ∀ g < 4, Memory.wf (s.thk.rmemB.at g) := fun g hg => (h.2.1 g hg).2.1
theorem memoriesWf.sigOwner {s : State} (h : memoriesWf s) : ∀ g < 4, Memory.wf (s.thk.sigOwner.at g) := fun g hg => (h.2.1 g hg).2.2
theorem memoriesWf.blocks {s : State} (h : memoriesWf s) : ∀ b < 16, Memory.wf (s.thk.blocks.at b).op ∧ Memory.wf (s.thk.blocks.at b).coef := h.2.2

theorem memoriesWf.of_fields {s t : State} (h : memoriesWf s) (hq : Memory.wf t.io.qsram) (hr : t.thk.rmem = s.thk.rmem)
    (hB : t.thk.rmemB = s.thk.rmemB) (ho : t.thk.sigOwner = s.thk.sigOwner) (hb : t.thk.blocks = s.thk.blocks) : memoriesWf t := by
  refine ⟨hq, ?_, ?_⟩
  · rw [hr, hB, ho]; exact h.2.1
  · rw [hb]; exact h.2.2

namespace Kept

variable {b : Bool} {s t u : State}

theorem refl (s : State) : Kept b s s := ⟨rfl, rfl, fun _ => rfl, id⟩

theorem trans (h : Kept b s t) (k : Kept b t u) : Kept b s u :=
  ⟨k.pending.trans h.pending, k.fuses.trans h.fuses, fun e => (k.st e).trans (h.st e), fun m => k.mem (h.mem m)⟩

/-- Forgetting what is known of the module state. -/
theorem weaken (h : Kept true s t) : Kept b s t := ⟨h.pending, h.fuses, fun _ => h.st rfl, h.mem⟩

/-- A change of fields that the relation does not look at. -/
theorem same (h : Kept b s t) (hp : u.pending = t.pending) (hf : u.nv.fuses = t.nv.fuses) (hst : u.drv.st = t.drv.st)
    (hq : u.io.qsram = t.io.qsram) (hr : u.thk.rmem = t.thk.rmem) (hB : u.thk.rmemB = t.thk.rmemB)
    (ho : u.thk.sigOwner = t.thk.sigOwner) (hb : u.thk.blocks = t.thk.blocks) : Kept b s u :=
  h.trans ⟨hp, hf, fun _ => hst, fun m => m.of_fields (by rw [hq]; exact m.qsram) hr hB ho hb⟩

/-- A change of the port and the queues that keeps the form of queue SRAM. -/
theorem io (h : Kept b s t) (hp : u.pending = t.pending) (hf : u.nv.fuses = t.nv.fuses) (hst : u.drv.st = t.drv.st)
    (hr : u.thk.rmem = t.thk.rmem) (hB : u.thk.rmemB = t.thk.rmemB) (ho : u.thk.sigOwner = t.thk.sigOwner)
    (hb : u.thk.blocks = t.thk.blocks) (hq : Memory.wf t.io.qsram → Memory.wf u.io.qsram) : Kept b s u :=
  h.trans ⟨hp, hf, fun _ => hst, fun m => m.of_fields (hq m.qsram) hr hB ho hb⟩

/-- The same of a state written out, as an update elaborates. -/
theorem of_mk {pending : List Instr} {io : Io} {trc : Trace} {drv : Drive} {clk : Clock} {aon : Aon} {nv : Nv} {boot : Boot} {sup :
    Supply} {icp : Pair} {thk : Thicket} {chk : Tab 8 Chk} {saf : Safety} {thm : Thermal} {prn : Pruner} {pwm : Pwm} {gdv : Tab 16
    GdvChan} {prt : Prt} {acq : Acq} {pos : Pos} {dmd : Demand} {can : Tab 4 Can} {adx : Adx} {crd : Crd} {free : Nat} (h : Kept b s t)
    (hp : pending = t.pending) (hf : nv.fuses = t.nv.fuses) (hst : drv.st = t.drv.st) (hq : io.qsram = t.io.qsram) (hr : thk.rmem =
    t.thk.rmem) (hB : thk.rmemB = t.thk.rmemB) (ho : thk.sigOwner = t.thk.sigOwner) (hb : thk.blocks = t.thk.blocks) : Kept b s ⟨pending,
    io, trc, drv, clk, aon, nv, boot, sup, icp, thk, chk, saf, thm, prn, pwm, gdv, prt, acq, pos, dmd, can, adx, crd, free⟩ := h.same hp
    hf hst hq hr hB ho hb

/-- A change of the memories, each of which keeps its form. -/
theorem mems (h : Kept b s t) (hp : u.pending = t.pending) (hf : u.nv.fuses = t.nv.fuses) (hst : u.drv.st = t.drv.st)
    (hq : Memory.wf t.io.qsram → Memory.wf u.io.qsram)
    (hr : (∀ g < 4, Memory.wf (t.thk.rmem.at g)) → ∀ g < 4, Memory.wf (u.thk.rmem.at g))
    (hB : (∀ g < 4, Memory.wf (t.thk.rmemB.at g)) → ∀ g < 4, Memory.wf (u.thk.rmemB.at g))
    (ho : (∀ g < 4, Memory.wf (t.thk.sigOwner.at g)) → ∀ g < 4, Memory.wf (u.thk.sigOwner.at g))
    (hb : (∀ k < 16, Memory.wf (t.thk.blocks.at k).op ∧ Memory.wf (t.thk.blocks.at k).coef) →
      ∀ k < 16, Memory.wf (u.thk.blocks.at k).op ∧ Memory.wf (u.thk.blocks.at k).coef) : Kept b s u :=
  h.trans ⟨hp, hf, fun _ => hst, fun m => ⟨hq m.qsram, fun g hg => ⟨hr m.rmem g hg, hB m.rmemB g hg, ho m.sigOwner g hg⟩, hb m.blocks⟩⟩

theorem foldl {α : Type} {f : State → α → State} {l : List α} (h : Kept b s t) (hf : ∀ u x, Kept b s u → Kept b s (f u x)) :
    Kept b s (l.foldl f t) := by
  induction l generalizing t with
  | nil => exact h
  | cons x l ih => exact ih (hf _ _ h)

/-- A choice between two kept states. -/
theorem ite {c : Prop} [Decidable c] (ht : Kept b s t) (hu : Kept b s u) : Kept b s (if c then t else u) := by split <;> assumption

end Kept

theorem Answers.next {b : Bool} {s t : State} (h : Kept b s t) : Answers b s (.next t) := ⟨t, rfl, h⟩

theorem Answers.ite {b : Bool} {s : State} {c : Prop} [Decidable c] {x y : Host.Outcome State Fault Refusal} (hx : Answers b s x)
    (hy : Answers b s y) : Answers b s (if c then x else y) := by split <;> assumption

theorem Done.Kept.ite {b : Bool} {s : State} {c : Prop} [Decidable c] {x y : Done} (hx : x.Kept b s) (hy : y.Kept b s) :
    (if c then x else y).Kept b s := by split <;> assumption

theorem ok_kept {b : Bool} {s t : State} (h : Kept b s t) : (ok t).Kept b s := .done h

theorem guardSt_kept {b : Bool} {s : State} {c : Bool} {st : W16} {k : Done} (h : k.Kept b s) : (guardSt c st k).Kept b s := by
  unfold guardSt; split
  · exact h
  · exact .refuse

/-- One word of one memory of a table. -/
theorem upd_memSet_wf {k n : Nat} {t : Tab k (Mem n)} {g a : Nat} {v : BitVec n} (h : ∀ i < k, Memory.wf (t.at i)) :
    ∀ i < k, Memory.wf ((t.upd g fun m => memSet m a v).at i) :=
  Vector.upd_preserves (P := fun m : Mem n => Memory.wf m) t g _ h fun hg => memSet_wf (h g hg)

/-! The queues and the fault log. -/

@[simp] theorem Io.updQ_qsram (io : Io) (n : Nat) (f : QueueRec → QueueRec) : (io.updQ n f).qsram = io.qsram := rfl
@[simp] theorem Io.raise_qsram (io : Io) (i : Nat) : (io.raise i).qsram = io.qsram := rfl
@[simp] theorem Io.err_qsram (io : Io) (i : Nat) : (io.err i).qsram = io.qsram := by unfold Io.err; split <;> rfl
@[simp] theorem Io.notify_qsram (io : Io) (n : Nat) (irq : Bool) : (io.notify n irq).qsram = io.qsram := by
  unfold Io.notify; simp only []; split <;> rfl

theorem Io.putEntry_wf {io : Io} {n : Nat} {head body : List Byte} {cont : Bool} (h : Memory.wf io.qsram) :
    Memory.wf (io.putEntry n head cont body).qsram := memWrite_wf _ (memWrite_wf _ h)

theorem Io.putEntries_wf {io : Io} {n : Nat} {head : List Byte} (l : List (List Byte)) (h : Memory.wf io.qsram) :
    Memory.wf (io.putEntries n head l).qsram := by
  induction l generalizing io with
  | nil => exact h
  | cons x l ih => exact ih (Io.putEntry_wf h)

theorem Io.complete_wf {io : Io} {n op seq status sq : Nat} {tAcc tDone : W64} {result : List Byte} {irq : Bool} (h : Memory.wf io.qsram) :
    Memory.wf (io.complete n op seq status sq tAcc tDone result irq).qsram := by
  unfold Io.complete; split
  · rw [Io.notify_qsram]; exact Io.putEntries_wf _ h
  · exact h

theorem Io.event_wf {io : Io} {src : Nat} {code : W16} {tFault now : W64} (h : Memory.wf io.qsram) :
    Memory.wf (io.event src code tFault now).qsram := by
  unfold Io.event; simp only []; split
  · exact h
  · split
    · rw [Io.notify_qsram]; exact Io.putEntry_wf h
    · exact h

theorem Io.record_wf {io : Io} {state : Nat} {code : W16} {time : W64} {unit : Nat} {data0 tb : W32} (h : Memory.wf io.qsram) :
    Memory.wf (io.record state code time unit data0 tb).qsram := by
  unfold Io.record; exact Io.event_wf (Io.event_wf (Io.event_wf h))

/-! The shared operations: fault records, state events, completions. -/

section
variable {b : Bool} {s0 s : State}

theorem freeTaken_kept (h : Kept b s0 s) : Kept b s0 (freeTaken s) := h.same rfl rfl rfl rfl rfl rfl rfl rfl

theorem tick_kept (h : Kept b s0 s) : Kept b s0 (tick s) := h.same rfl rfl rfl rfl rfl rfl rfl rfl

theorem arrive_kept {k : EvKind} {cause : W16} (h : Kept b s0 s) : Kept b s0 (arrive s k cause) := h.same rfl rfl rfl rfl rfl rfl rfl rfl

theorem recordAt_kept {code : W16} {unit : Nat} {data0 : W32} {time : W64} (h : Kept b s0 s) : Kept b s0 (recordAt s code unit data0 time) := by
  have k : Kept b s0 { s with io := s.io.record s.drv.st.code code time unit data0 s.clk.tb32
                              trc := if bit s.trc.cap.stat 31 && s.trc.tmode == 3 && fld code 15 12 == s.trc.tclass
                                then { s.trc with hit := true } else s.trc } := h.io rfl rfl rfl rfl rfl rfl rfl Io.record_wf
  unfold recordAt; simp only []; split
  · exact arrive_kept k
  · exact k

theorem record_kept {code : W16} {unit : Nat} {data0 : W32} (h : Kept b s0 s) : Kept b s0 (record s code unit data0) := recordAt_kept h

theorem sealCp_kept (h : Kept b s0 s) : Kept b s0 (sealCp s) := by
  unfold sealCp; split
  · exact h
  · exact h.same rfl rfl rfl rfl rfl rfl rfl rfl

theorem writeDone_kept {op : Nat} {r : Req} {acc : W64} {st : W16} {result : List Byte} (h : Kept b s0 s) :
    Kept b s0 (writeDone s op r acc st result) := by
  refine h.io (u := writeDone s op r acc st result) rfl rfl rfl rfl rfl rfl rfl fun m => ?_
  simp only [writeDone]; split <;> first | exact Io.complete_wf m | exact m

theorem jobGone_kept {op : Nat} {r : Req} (h : Kept b s0 s) : Kept b s0 (jobGone s op r) := by
  unfold jobGone; split
  · exact h.same rfl rfl rfl rfl rfl rfl rfl rfl
  · exact h

theorem completeRaw_kept {op : Nat} {r : Req} {st : W16} {result : List Byte} (h : Kept b s0 s) : Kept b s0 (completeRaw s op r st result) :=
  writeDone_kept (jobGone_kept h)

/-- A completion writes queue SRAM and nothing else that the relation looks at. -/
theorem complete_kept {op : Nat} {r : Req} {st : W16} {result : List Byte} (h : Kept b s0 s) : Kept b s0 (complete s op r st result) :=
  completeRaw_kept (sealCp_kept h)

/-- An application of a job keeps what its body keeps. -/
theorem runJob_kept {op : Nat} {r : Req} {body : Done} (h : Kept b s0 s) (hb : body.Kept b s0) : Kept b s0 (runJob op r s body) := by
  unfold runJob; split
  · exact h
  · split
    · split <;> exact complete_kept h
    · split
      · exact h
      · cases hb with
        | refuse => exact complete_kept h
        | done hb => exact complete_kept hb

/-- A descriptor refused at its take changes the port and the pair's checkpoint (R64). -/
theorem refuseTake_kept {op : Nat} {r : Req} {st : W16} {result : List Byte} (h : Kept b s0 s) : Kept b s0 (refuseTake s op r st result) :=
  writeDone_kept (sealCp_kept h)

end

end Sys2Proof.Machine
end

