-- ==== Sys2Proof/Laws/KeptThicket.lean ====
section
/-! SUPPORT. One lemma per operation: what the cells, the module states, the scheduler and the check units keep. -/

namespace Sys2Proof.Machine

theorem updCtx_kept {kb : Bool} {s0 s : State} {c : Nat} {f : Ctx → Ctx} (hk : Kept kb s0 s) : Kept kb s0 (updCtx s c f) := Kept.of_mk
    hk rfl rfl rfl rfl rfl rfl rfl rfl

/-- A change of a block that keeps the form of its two memories. -/
theorem updBlock_kept {kb : Bool} {s0 s : State} {b : Nat} {f : Block → Block} (h : Kept kb s0 s)
    (hf : ∀ x : Block, Memory.wf x.op ∧ Memory.wf x.coef → Memory.wf (f x).op ∧ Memory.wf (f x).coef) : Kept kb s0 (updBlock s b f) :=
  h.mems rfl rfl rfl id id id id fun m =>
    Vector.upd_preserves (P := fun x : Block => Memory.wf x.op ∧ Memory.wf x.coef) s.thk.blocks b f m fun hb => hf _ (m b hb)

theorem updCell_kept {kb : Bool} {s0 s : State} {b p : Nat} {f : Cell → Cell} (h : Kept kb s0 s) : Kept kb s0 (updCell s b p f) :=
  updBlock_kept h fun _ hx => hx

/-- A word of a region's bank: the form stays. -/
theorem putBank_kept {kb : Bool} {s0 s : State} {g a : Nat} {b : Bool} {v : W18} (h : Kept kb s0 s) : Kept kb s0 (putBank s g b a v) := by
  unfold putBank
  split
  · exact h.mems rfl rfl rfl id id upd_memSet_wf id id
  · exact h.mems rfl rfl rfl id upd_memSet_wf id id id

/-- A store of an activation: a signal word waits, another is one word of its region. -/
theorem ctxStore_kept {kb : Bool} {s0 s : State} {c a : Nat} {v : W18} (h : Kept kb s0 s) : Kept kb s0 (ctxStore s c a v) :=
  Kept.ite h (Kept.ite (updCtx_kept h) (putBank_kept h))

theorem slotDone_kept {kb : Bool} {s0 s : State} {c : CellSel} {w : W64} {sat : Bool} (hk : Kept kb s0 s) : Kept kb s0 (slotDone s c w
    sat) := updCtx_kept hk

theorem useLink_kept {kb : Bool} {s0 s : State} {c : Nat} {l : Nat × Nat × Nat} (hk : Kept kb s0 s) : Kept kb s0 (useLink s c l) :=
    updCtx_kept hk

theorem slotA_kept {kb : Bool} {s0 : State} {op : Nat} {c : CellSel} {w : W64} {s : State} {f : Cell → Cell × Bool} (hk : Kept kb s0 s)
    : Kept kb s0 (slotA op c w s f) := by
  unfold slotA
  split
  · exact hk
  · exact Kept.ite (slotDone_kept (updCell_kept hk)) (slotDone_kept hk)

theorem slotB_kept {kb : Bool} {s0 : State} {op : Nat} {c : CellSel} {w : W64} {s : State} {f : Cell → Int → Cell × Bool} (hk : Kept kb
    s0 s) : Kept kb s0 (slotB op c w s f) := by
  unfold slotB
  split
  · exact hk
  · dsimp only
    split
    · exact hk
    · exact Kept.ite (slotDone_kept (updCell_kept (Kept.ite (useLink_kept hk) hk))) (slotDone_kept (updCell_kept (Kept.ite (useLink_kept
        hk) hk)))

theorem execOpNop_kept {kb : Bool} {s0 : State} {c : CellSel} {w : W64} {s : State} (hk : Kept kb s0 s) : Answers kb s0 (execOpNop c w
    s) := Answers.next (slotA_kept hk)

theorem execOpWait_kept {kb : Bool} {s0 : State} {c : CellSel} {w : W64} {s : State} (hk : Kept kb s0 s) : Answers kb s0 (execOpWait c w
    s) := Answers.next (slotA_kept hk)

theorem execOpEnd_kept {kb : Bool} {s0 : State} {c : CellSel} {w : W64} {s : State} (hk : Kept kb s0 s) : Answers kb s0 (execOpEnd c w
    s) := by
  unfold execOpEnd
  split
  · exact Answers.next hk
  · exact Answers.next (Kept.of_mk (updCtx_kept (slotDone_kept hk)) rfl rfl rfl rfl rfl rfl rfl rfl)

theorem execOpLdacc_kept {kb : Bool} {s0 : State} {c : CellSel} {w : W64} {s : State} (hk : Kept kb s0 s) : Answers kb s0 (execOpLdacc c
    w s) := Answers.next (slotA_kept hk)

theorem execOpMul_kept {kb : Bool} {s0 : State} {c : CellSel} {w : W64} {s : State} (hk : Kept kb s0 s) : Answers kb s0 (execOpMul c w
    s) := Answers.next (slotB_kept hk)

theorem execOpMac_kept {kb : Bool} {s0 : State} {c : CellSel} {w : W64} {s : State} (hk : Kept kb s0 s) : Answers kb s0 (execOpMac c w
    s) := Answers.next (slotB_kept hk)

theorem execOpMsu_kept {kb : Bool} {s0 : State} {c : CellSel} {w : W64} {s : State} (hk : Kept kb s0 s) : Answers kb s0 (execOpMsu c w
    s) := Answers.next (slotB_kept hk)

theorem execOpRnd_kept {kb : Bool} {s0 : State} {c : CellSel} {w : W64} {s : State} (hk : Kept kb s0 s) : Answers kb s0 (execOpRnd c w
    s) := Answers.next (slotA_kept hk)

theorem execOpAdd_kept {kb : Bool} {s0 : State} {c : CellSel} {w : W64} {s : State} (hk : Kept kb s0 s) : Answers kb s0 (execOpAdd c w
    s) := Answers.next (slotB_kept hk)

theorem execOpSub_kept {kb : Bool} {s0 : State} {c : CellSel} {w : W64} {s : State} (hk : Kept kb s0 s) : Answers kb s0 (execOpSub c w
    s) := Answers.next (slotB_kept hk)

theorem execOpNeg_kept {kb : Bool} {s0 : State} {c : CellSel} {w : W64} {s : State} (hk : Kept kb s0 s) : Answers kb s0 (execOpNeg c w
    s) := Answers.next (slotA_kept hk)

theorem execOpAbs_kept {kb : Bool} {s0 : State} {c : CellSel} {w : W64} {s : State} (hk : Kept kb s0 s) : Answers kb s0 (execOpAbs c w
    s) := Answers.next (slotA_kept hk)

theorem execOpMin_kept {kb : Bool} {s0 : State} {c : CellSel} {w : W64} {s : State} (hk : Kept kb s0 s) : Answers kb s0 (execOpMin c w
    s) := Answers.next (slotB_kept hk)

theorem execOpMax_kept {kb : Bool} {s0 : State} {c : CellSel} {w : W64} {s : State} (hk : Kept kb s0 s) : Answers kb s0 (execOpMax c w
    s) := Answers.next (slotB_kept hk)

theorem execOpLim_kept {kb : Bool} {s0 : State} {c : CellSel} {w : W64} {s : State} (hk : Kept kb s0 s) : Answers kb s0 (execOpLim c w
    s) := Answers.next (slotB_kept hk)

theorem execOpShl_kept {kb : Bool} {s0 : State} {c : CellSel} {w : W64} {s : State} (hk : Kept kb s0 s) : Answers kb s0 (execOpShl c w
    s) := Answers.next (slotA_kept hk)

theorem execOpShr_kept {kb : Bool} {s0 : State} {c : CellSel} {w : W64} {s : State} (hk : Kept kb s0 s) : Answers kb s0 (execOpShr c w
    s) := Answers.next (slotA_kept hk)

theorem execOpCmplt_kept {kb : Bool} {s0 : State} {c : CellSel} {w : W64} {s : State} (hk : Kept kb s0 s) : Answers kb s0 (execOpCmplt c
    w s) := Answers.next (slotB_kept hk)

theorem execOpCmpge_kept {kb : Bool} {s0 : State} {c : CellSel} {w : W64} {s : State} (hk : Kept kb s0 s) : Answers kb s0 (execOpCmpge c
    w s) := Answers.next (slotB_kept hk)

theorem execOpCmpeq_kept {kb : Bool} {s0 : State} {c : CellSel} {w : W64} {s : State} (hk : Kept kb s0 s) : Answers kb s0 (execOpCmpeq c
    w s) := Answers.next (slotB_kept hk)

theorem execOpSel_kept {kb : Bool} {s0 : State} {c : CellSel} {w : W64} {s : State} (hk : Kept kb s0 s) : Answers kb s0 (execOpSel c w
    s) := Answers.next (slotB_kept hk)

theorem execOpAnd_kept {kb : Bool} {s0 : State} {c : CellSel} {w : W64} {s : State} (hk : Kept kb s0 s) : Answers kb s0 (execOpAnd c w
    s) := Answers.next (slotB_kept hk)

theorem execOpOr_kept {kb : Bool} {s0 : State} {c : CellSel} {w : W64} {s : State} (hk : Kept kb s0 s) : Answers kb s0 (execOpOr c w s)
    := Answers.next (slotB_kept hk)

theorem execOpXor_kept {kb : Bool} {s0 : State} {c : CellSel} {w : W64} {s : State} (hk : Kept kb s0 s) : Answers kb s0 (execOpXor c w
    s) := Answers.next (slotB_kept hk)

theorem execOpSincos_kept {kb : Bool} {s0 : State} {c : CellSel} {w : W64} {s : State} (hk : Kept kb s0 s) : Answers kb s0 (execOpSincos
    c w s) := Answers.next (slotA_kept (freeTaken_kept (freeTaken_kept hk)))

theorem execOpAtan2_kept {kb : Bool} {s0 : State} {c : CellSel} {w : W64} {s : State} (hk : Kept kb s0 s) : Answers kb s0 (execOpAtan2 c
    w s) := Answers.next (slotB_kept (freeTaken_kept hk))

theorem execOpDiv_kept {kb : Bool} {s0 : State} {c : CellSel} {w : W64} {s : State} (hk : Kept kb s0 s) : Answers kb s0 (execOpDiv c w
    s) := Answers.next (slotB_kept hk)

theorem execOpSqrt_kept {kb : Bool} {s0 : State} {c : CellSel} {w : W64} {s : State} (hk : Kept kb s0 s) : Answers kb s0 (execOpSqrt c w
    s) := Answers.next (slotA_kept hk)

theorem execOpLut_kept {kb : Bool} {s0 : State} {c : CellSel} {w : W64} {s : State} (hk : Kept kb s0 s) : Answers kb s0 (execOpLut c w
    s) := Answers.next (slotA_kept (freeTaken_kept (freeTaken_kept (freeTaken_kept hk))))

theorem execOpLdc_kept {kb : Bool} {s0 : State} {c : CellSel} {w : W64} {s : State} (hk : Kept kb s0 s) : Answers kb s0 (execOpLdc c w
    s) := Answers.next (slotA_kept hk)

theorem execOpLd_kept {kb : Bool} {s0 : State} {c : CellSel} {w : W64} {s : State} (hk : Kept kb s0 s) : Answers kb s0 (execOpLd c w s)
    := Answers.next (slotA_kept hk)

theorem execOpSt_kept {kb : Bool} {s0 : State} {c : CellSel} {w : W64} {s : State} (hk : Kept kb s0 s) : Answers kb s0 (execOpSt c w s)
    := by
  unfold execOpSt
  split
  · exact Answers.next hk
  · exact Answers.ite (Answers.next (slotDone_kept (ctxStore_kept hk))) (Answers.next (slotDone_kept hk))

theorem execOpPut_kept {kb : Bool} {s0 : State} {c : CellSel} {w : W64} {s : State} (hk : Kept kb s0 s) : Answers kb s0 (execOpPut c w
    s) := by
  unfold execOpPut
  split
  · exact Answers.next hk
  · exact Answers.ite (Answers.next hk) (Answers.ite (Answers.next (slotDone_kept (updCell_kept (useLink_kept hk)))) (Answers.next
      (slotDone_kept (useLink_kept hk))))

theorem execOpGet_kept {kb : Bool} {s0 : State} {c : CellSel} {w : W64} {s : State} (hk : Kept kb s0 s) : Answers kb s0 (execOpGet c w
    s) := by
  unfold execOpGet
  split
  · exact Answers.next hk
  · dsimp only
    split
    · exact Answers.next hk
    · exact Answers.next (slotDone_kept (updCell_kept (useLink_kept hk)))

theorem execOpFlag_kept {kb : Bool} {s0 : State} {c : CellSel} {w : W64} {s : State} (hk : Kept kb s0 s) : Answers kb s0 (execOpFlag c w
    s) := by
  unfold execOpFlag
  split
  · exact Answers.next hk
  · exact Answers.ite (Answers.next (updCtx_kept (slotDone_kept hk))) (Answers.next (slotDone_kept hk))

theorem updThkCtxs_kept {kb : Bool} {s0 s : State} {f : Nat → Ctx → Ctx} (hk : Kept kb s0 s) : Kept kb s0 (updThkCtxs s f) := Kept.of_mk
    hk rfl rfl rfl rfl rfl rfl rfl rfl

theorem clearQueue_kept {kb : Bool} {s0 s : State} {l : Nat × Nat × Nat} (hk : Kept kb s0 s) : Kept kb s0 (clearQueue s l) :=
    updCell_kept hk

theorem publishDeferred_kept {kb : Bool} {s0 s : State} (hk : Kept kb s0 s) : Kept kb s0 (publishDeferred s) := updThkCtxs_kept hk

theorem dropActs_kept {kb : Bool} {s0 s : State} {gone : List Nat} (hk : Kept kb s0 s) : Kept kb s0 (dropActs s gone) := by
  unfold dropActs
  refine publishDeferred_kept ?_
  generalize hq : updThkCtxs _ _ = q
  have k : Kept kb s0 q := hq ▸ updThkCtxs_kept (Kept.foldl hk fun _ _ hu => clearQueue_kept hu)
  exact k.same rfl rfl rfl rfl rfl rfl rfl rfl

theorem dropAct_kept {kb : Bool} {s0 s : State} {c : Nat} (hk : Kept kb s0 s) : Kept kb s0 (dropAct s c) := dropActs_kept hk

theorem putState_kept {kb : Bool} {s0 s : State} {g a : Nat} {v : W18} (hk : Kept kb s0 s) : Kept kb s0 (putState s g a v) :=
    putBank_kept (putBank_kept hk)

theorem maintain_kept {kb : Bool} {s0 s : State} {i : CtxImg} (hk : Kept kb s0 s) : Kept kb s0 (maintain s i) := by
  unfold maintain
  refine Kept.foldl ?_ fun _ _ hu => ?_
  · exact hk
  · refine Kept.foldl ?_ fun _ _ hu => ?_
    · split
      · exact putState_kept hu
      · exact hu
    · exact Kept.ite hu (putState_kept hu)

theorem writeMaintained_kept {kb : Bool} {s0 s : State} (hk : Kept kb s0 s) : Kept kb s0 (writeMaintained s) := Kept.foldl hk fun _ _ hu
    => maintain_kept hu

theorem updUnit_kept {kb : Bool} {s0 s : State} {u : Nat} {f : PwmUnit → PwmUnit} (hk : Kept kb s0 s) : Kept kb s0 (updUnit s u f) :=
    Kept.of_mk hk rfl rfl rfl rfl rfl rfl rfl rfl

theorem mapUnits_kept {kb : Bool} {s0 s : State} {f : Nat → PwmUnit → PwmUnit} (hk : Kept kb s0 s) : Kept kb s0 (mapUnits s f) :=
    Kept.of_mk hk rfl rfl rfl rfl rfl rfl rfl rfl

theorem placeAt_kept {kb : Bool} {s0 s : State} {u : Nat} {peak : Bool} (hk : Kept kb s0 s) : Kept kb s0 (placeAt s u peak) :=
    updUnit_kept hk

theorem noteSome_kept {kb : Bool} {s0 s : State} {p : Nat → Bool} {t : Int} (hk : Kept kb s0 s) : Kept kb s0 (noteSome s p t) :=
    mapUnits_kept hk

theorem noteUnits_kept {kb : Bool} {s0 s : State} (hk : Kept kb s0 s) : Kept kb s0 (noteUnits s) := noteSome_kept hk

theorem noteGroup_kept {kb : Bool} {s0 s : State} {u : Nat} {t : Int} (hk : Kept kb s0 s) : Kept kb s0 (noteGroup s u t) :=
    noteSome_kept hk

/-- A transition keeps the queue, the fuses and the memories. -/
theorem enterRaw_kept {s0 s : State} {dst : Mode} {cause : W16} (h : Kept false s0 s) : Kept false s0 (enterRaw s dst cause) := by
  have k := fun m => (dropActs_kept (gone := stopped s dst) (Kept.refl (b := true) s)).mem m
  unfold enterRaw
  dsimp only
  generalize dropActs s (stopped s dst) = d at k
  refine h.trans ⟨rfl, rfl, nofun, fun m => ⟨?_, (k m).2.1, (k m).2.2⟩⟩
  dsimp only; split <;> exact m.qsram

theorem copyStartLog_kept {kb : Bool} {s0 s : State} (hk : Kept kb s0 s) : Kept kb s0 (copyStartLog s) := by
  have fuses : ∀ (l : List StartFail) (n : Nv), (l.foldl (fun (nv : Nv) f =>
      { nv with startLog := (startRec f (nv.startNum + 1) :: nv.startLog).take 256, startNum := nv.startNum + 1 }) n).fuses = n.fuses := by
    intro l; induction l with
    | nil => intro n; rfl
    | cons f l ih => intro n; exact ih _
  exact Kept.ite hk (Kept.of_mk hk rfl (fuses _ _) rfl rfl rfl rfl rfl rfl)

theorem enter_kept {s0 s : State} {dst : Mode} {cause : W16} (hk : Kept false s0 s) : Kept false s0 (enter s dst cause) := Kept.ite
    (copyStartLog_kept (sealCp_kept (enterRaw_kept hk))) (sealCp_kept (enterRaw_kept hk))

theorem preempt_kept {kb : Bool} {s0 s : State} (hk : Kept kb s0 s) : Kept kb s0 (preempt s) := Kept.foldl hk fun _ _ hu =>
    complete_kept hu

theorem evaluate_kept {s0 s : State} (hk : Kept false s0 s) : Kept false s0 (evaluate s) := by
  unfold evaluate
  dsimp only
  split
  · exact Kept.of_mk hk rfl rfl rfl rfl rfl rfl rfl rfl
  · exact preempt_kept (enter_kept (Kept.of_mk hk rfl rfl rfl rfl rfl rfl rfl rfl))

theorem execStateEventEvaluation_kept {s0 s : State} (hk : Kept false s0 s) : Answers false s0 (execStateEventEvaluation s) :=
    Answers.ite (Answers.next (evaluate_kept hk)) (Answers.next hk)

/-- A memory that holds nothing has the form. -/
theorem replicate_nil_wf {k n : Nat} : ∀ i < k, Memory.wf ((Vector.replicate k ([] : Mem n)).at i) := fun i hi => by
  rw [Vector.at_replicate _ hi]; exact nil_wf

/-- The memories right after reset have their form. -/
theorem reset_memoriesWf : memoriesWf State.reset :=
  ⟨nil_wf, fun g hg => ⟨replicate_nil_wf g hg, replicate_nil_wf g hg, replicate_nil_wf g hg⟩, fun k hk => by
    show Memory.wf (Vector.at (Vector.replicate 16 ({} : Block)) k).op ∧ Memory.wf (Vector.at (Vector.replicate 16 ({} : Block)) k).coef
    rw [Vector.at_replicate _ hk]; exact ⟨nil_wf, nil_wf⟩⟩

/-- A reset leaves empty memories. -/
theorem coldReset_kept {s0 s : State} (h : Kept false s0 s) : Kept false s0 (coldReset s) :=
  h.trans ⟨rfl, rfl, nofun, fun _ => ⟨reset_memoriesWf.1, reset_memoriesWf.2.1, reset_memoriesWf.2.2⟩⟩

theorem stateJob_kept {s0 : State} {op : Nat} {r : Req} {s : State} {dst : Mode} {result : List Byte} {apply : State → State} (hk : Kept
    false s0 s) (h_apply : ∀ u, Kept false s0 u → Kept false s0 (apply u)) : Kept false s0 (stateJob op r s dst result apply) := by
  unfold stateJob
  split
  · exact complete_kept (evaluate_kept hk)
  · exact preempt_kept (complete_kept (enter_kept (h_apply _ (Kept.of_mk hk rfl rfl rfl rfl rfl rfl rfl rfl))))

theorem runStateJob_kept {s0 : State} {op : Nat} {r : Req} {s : State} {dst : Mode} {check : Option (W16 × List Byte)} {apply : State →
    State} (hk : Kept false s0 s) (h_apply : ∀ u, Kept false s0 u → Kept false s0 (apply u)) : Kept false s0 (runStateJob op r s dst
    check apply) := by
  unfold runStateJob
  refine Kept.ite hk ?_
  refine Kept.ite (Kept.ite (complete_kept hk) (complete_kept hk)) ?_
  refine Kept.ite hk ?_
  split
  · exact complete_kept hk
  · exact stateJob_kept hk h_apply

theorem escalate_kept {kb : Bool} {s0 s : State} {cause : W16} (hk : Kept kb s0 s) : Kept kb s0 (escalate s cause) := arrive_kept
    (Kept.of_mk hk rfl rfl rfl rfl rfl rfl rfl rfl)

theorem putChk_kept {kb : Bool} {s0 s : State} {k : Nat} {u : Chk} (hk : Kept kb s0 s) : Kept kb s0 (putChk s k u) := Kept.ite
    (record_kept (Kept.of_mk hk rfl rfl rfl rfl rfl rfl rfl rfl)) (Kept.of_mk hk rfl rfl rfl rfl rfl rfl rfl rfl)

theorem snoop_kept {kb : Bool} {s0 s : State} {src : Nat} {items : List Item} {last : Bool} (hk : Kept kb s0 s) : Kept kb s0 (snoop s
    src items last) := Kept.ite (Kept.foldl hk fun _ _ hu => putChk_kept hu) hk

theorem snoopConfig_kept {kb : Bool} {s0 s : State} (hk : Kept kb s0 s) : Kept kb s0 (snoopConfig s) := Kept.ite (Kept.of_mk (Kept.foldl
    hk fun _ _ hu => putChk_kept hu) rfl rfl rfl rfl rfl rfl rfl rfl) hk

theorem execCfgChkUnit_kept {kb : Bool} {s0 : State} {r : Req} {s : State} (hk : Kept kb s0 s) : Answers kb s0 (execCfgChkUnit r s) :=
    Answers.next (runJob_kept hk (guardSt_kept (ok_kept (Kept.of_mk hk rfl rfl rfl rfl rfl rfl rfl rfl))))

theorem execCfgChkStatusClr_kept {kb : Bool} {s0 : State} {r : Req} {s : State} (hk : Kept kb s0 s) : Answers kb s0 (execCfgChkStatusClr
    r s) := Answers.next (runJob_kept hk (guardSt_kept (ok_kept (Kept.of_mk hk rfl rfl rfl rfl rfl rfl rfl rfl))))

end Sys2Proof.Machine
end

