-- ==== Sys2Proof/Laws/KeptPower.lean ====
section
/-! SUPPORT. One lemma per operation: what the PWM generator, the gate drivers and the protection keep. -/

namespace Sys2Proof.Machine

theorem recUnit_kept {kb : Bool} {s0 s : State} {u : Nat} {code : W16} (hk : Kept kb s0 s) : Kept kb s0 (recUnit s u code) :=
    record_kept hk

theorem pwmFlag_kept {kb : Bool} {s0 s : State} {u i : Nat} {code : W16} (hk : Kept kb s0 s) : Kept kb s0 (pwmFlag s u i code) :=
    Kept.ite (updUnit_kept hk) (recUnit_kept (updUnit_kept hk))

theorem putShadow_kept {kb : Bool} {s0 s : State} {k : Nat} {v : W18} (hk : Kept kb s0 s) : Kept kb s0 (putShadow s k v) := Kept.ite
    (updUnit_kept hk) (Kept.ite (Kept.of_mk hk rfl rfl rfl rfl rfl rfl rfl rfl) (Kept.ite (Kept.of_mk hk rfl rfl rfl rfl rfl rfl rfl
    rfl) hk))

theorem setLda_kept {kb : Bool} {s0 s : State} {mask : Nat} {byCtx : Bool} (hk : Kept kb s0 s) : Kept kb s0 (setLda s mask byCtx) :=
    mapUnits_kept hk

theorem execOpWcmp_kept {kb : Bool} {s0 : State} {c : CellSel} {w : W64} {s : State} (hk : Kept kb s0 s) : Answers kb s0 (execOpWcmp c w
    s) := by
  unfold execOpWcmp
  split
  · exact Answers.next hk
  · exact Answers.ite (Answers.next (snoop_kept (putShadow_kept (slotDone_kept hk)))) (Answers.next (slotDone_kept hk))

theorem execOpLdall_kept {kb : Bool} {s0 : State} {c : CellSel} {w : W64} {s : State} (hk : Kept kb s0 s) : Answers kb s0 (execOpLdall c
    w s) := by
  unfold execOpLdall
  split
  · exact Answers.next hk
  · exact Answers.ite (Answers.next (snoop_kept (setLda_kept (slotDone_kept hk)))) (Answers.next (slotDone_kept hk))

theorem copyShadows_kept {kb : Bool} {s0 s : State} {u : Nat} (hk : Kept kb s0 s) : Kept kb s0 (copyShadows s u) := Kept.ite
    (pwmFlag_kept (updUnit_kept (Kept.of_mk hk rfl rfl rfl rfl rfl rfl rfl rfl))) (updUnit_kept (Kept.of_mk hk rfl rfl rfl rfl rfl rfl
    rfl rfl))

theorem refresh_kept {kb : Bool} {s0 s : State} {u : Nat} {t : Int} (hk : Kept kb s0 s) : Kept kb s0 (refresh s u t) := Kept.ite
    (Kept.of_mk (updUnit_kept hk) rfl rfl rfl rfl rfl rfl rfl rfl) hk

theorem beginRamp_kept {kb : Bool} {s0 s : State} {u : Nat} (hk : Kept kb s0 s) : Kept kb s0 (beginRamp s u) := by
  unfold beginRamp
  split
  · exact Kept.ite (Kept.of_mk hk rfl rfl rfl rfl rfl rfl rfl rfl) hk
  · exact hk

theorem execPwmReload_kept {kb : Bool} {s0 : State} {u : Fin 6} {peak : Bool} {s : State} (hk : Kept kb s0 s) : Answers kb s0
    (execPwmReload u peak s) := Answers.ite (Answers.next (refresh_kept (Kept.ite (pwmFlag_kept (Kept.ite (beginRamp_kept (Kept.ite
    (copyShadows_kept (updUnit_kept (noteGroup_kept (placeAt_kept hk)))) (updUnit_kept (noteGroup_kept (placeAt_kept hk))))) (Kept.ite
    (copyShadows_kept (updUnit_kept (noteGroup_kept (placeAt_kept hk)))) (updUnit_kept (noteGroup_kept (placeAt_kept hk)))))) (Kept.ite
    (beginRamp_kept (Kept.ite (copyShadows_kept (updUnit_kept (noteGroup_kept (placeAt_kept hk)))) (updUnit_kept (noteGroup_kept
    (placeAt_kept hk))))) (Kept.ite (copyShadows_kept (updUnit_kept (noteGroup_kept (placeAt_kept hk)))) (updUnit_kept (noteGroup_kept
    (placeAt_kept hk)))))))) (Answers.next hk)

theorem fire_kept {kb : Bool} {s0 s : State} {k t : Nat} (hk : Kept kb s0 s) : Kept kb s0 (fire s k t) := Kept.of_mk hk rfl rfl rfl rfl
    rfl rfl rfl rfl

theorem execSampleTrigger_kept {kb : Bool} {s0 : State} {u : Fin 6} {peak : Bool} {s : State} (hk : Kept kb s0 s) : Answers kb s0
    (execSampleTrigger u peak s) := Answers.ite (Answers.next (fire_kept (placeAt_kept hk))) (Answers.next hk)

theorem execAuxEvent_kept {kb : Bool} {s0 : State} {m : Fin 8} {s : State} (hk : Kept kb s0 s) : Answers kb s0 (execAuxEvent m s) :=
    Answers.ite (Answers.next (fire_kept hk)) (Answers.next hk)

theorem execOverlapLockout_kept {kb : Bool} {s0 : State} {u : Fin 6} {s : State} (hk : Kept kb s0 s) : Answers kb s0 (execOverlapLockout
    u s) := Answers.ite (Answers.next (recUnit_kept (updUnit_kept (noteUnits_kept hk)))) (Answers.next hk)

theorem execCbcCutoff_kept {kb : Bool} {s0 : State} {u : Fin 6} {line : Fin 4} {ofs : Fin 52} {s : State} (hk : Kept kb s0 s) : Answers
    kb s0 (execCbcCutoff u line ofs s) := Answers.ite (Answers.next (pwmFlag_kept (updUnit_kept (noteGroup_kept hk)))) (Answers.next hk)

theorem lockStep_kept {kb : Bool} {s0 s : State} {u : Nat} {err : Int} (hk : Kept kb s0 s) : Kept kb s0 (lockStep s u err) := Kept.ite
    (Kept.ite (recUnit_kept (updUnit_kept (updUnit_kept hk))) (updUnit_kept hk)) (Kept.ite (updUnit_kept (updUnit_kept hk))
    (updUnit_kept hk))

theorem resync_kept {kb : Bool} {s0 s : State} {u : Nat} (hk : Kept kb s0 s) : Kept kb s0 (resync s u) := by
  unfold resync; dsimp only; exact mapUnits_kept hk

theorem firstValley_kept {kb : Bool} {s0 s : State} {u : Nat} {err : Int} (hk : Kept kb s0 s) : Kept kb s0 (firstValley s u err) :=
    updUnit_kept hk

theorem execCarrierValley_kept {kb : Bool} {s0 : State} {u : Fin 6} {err : Int} {s : State} (hk : Kept kb s0 s) : Answers kb s0
    (execCarrierValley u err s) := Answers.ite (Answers.next (resync_kept (Kept.ite (lockStep_kept (updUnit_kept (noteGroup_kept
    (Kept.ite (firstValley_kept hk) (placeAt_kept hk))))) (updUnit_kept (noteGroup_kept (Kept.ite (firstValley_kept hk) (placeAt_kept
    hk))))))) (Answers.next hk)

theorem restartUnit_kept {kb : Bool} {s0 s : State} {u : Nat} {wait : Bool} (hk : Kept kb s0 s) : Kept kb s0 (restartUnit s u wait) :=
    updUnit_kept (Kept.of_mk (noteUnits_kept hk) rfl rfl rfl rfl rfl rfl rfl rfl)

theorem execPwmUnitRestart_kept {kb : Bool} {s0 : State} {u : Fin 6} {s : State} (hk : Kept kb s0 s) : Answers kb s0 (execPwmUnitRestart
    u s) := Answers.ite (Answers.next (restartUnit_kept hk)) (Answers.next hk)

theorem applyUnit_kept {kb : Bool} {s0 s : State} {u : Nat} {n : UnitRec} (hk : Kept kb s0 s) : Kept kb s0 (applyUnit s u n) := Kept.ite
    (writeMaintained_kept (Kept.ite (updUnit_kept hk) (restartUnit_kept (updUnit_kept hk)))) (writeMaintained_kept (updUnit_kept hk))

theorem execCfgPwmUnit_kept {kb : Bool} {s0 : State} {r : Req} {s : State} (hk : Kept kb s0 s) : Answers kb s0 (execCfgPwmUnit r s) :=
    by
  unfold execCfgPwmUnit
  refine Answers.next ?_
  refine runJob_kept hk ?_
  split
  · exact Done.Kept.refuse
  · exact ok_kept (applyUnit_kept hk)

theorem putAux_kept {kb : Bool} {s0 s : State} {m : Nat} {c : W64} (hk : Kept kb s0 s) : Kept kb s0 (putAux s m c) := Kept.of_mk hk rfl
    rfl rfl rfl rfl rfl rfl rfl

theorem execCfgPwmAux_kept {kb : Bool} {s0 : State} {r : Req} {s : State} (hk : Kept kb s0 s) : Answers kb s0 (execCfgPwmAux r s) :=
    Answers.next (runJob_kept hk (guardSt_kept (guardSt_kept (guardSt_kept (ok_kept (Kept.ite (writeMaintained_kept (putAux_kept hk))
    hk))))))

theorem execCfgPwmStatusClr_kept {kb : Bool} {s0 : State} {r : Req} {s : State} (hk : Kept kb s0 s) : Answers kb s0 (execCfgPwmStatusClr
    r s) := Answers.next (runJob_kept hk (guardSt_kept (ok_kept (updUnit_kept hk))))

theorem force_kept {kb : Bool} {s0 s : State} {units mode : Nat} (hk : Kept kb s0 s) : Kept kb s0 (force s units mode) := mapUnits_kept
    (noteUnits_kept hk)

theorem forceMode_kept {kb : Bool} {s0 : State} {mode : Nat} {r : Req} {s : State} (hk : Kept kb s0 s) : Kept kb s0 (forceMode mode r s)
    := runJob_kept hk (guardSt_kept (guardSt_kept (ok_kept (force_kept hk))))

theorem execCtlForceRelease_kept {kb : Bool} {s0 : State} {r : Req} {s : State} (hk : Kept kb s0 s) : Answers kb s0 (execCtlForceRelease
    r s) := Answers.next (forceMode_kept hk)

theorem execCtlForceBothOff_kept {kb : Bool} {s0 : State} {r : Req} {s : State} (hk : Kept kb s0 s) : Answers kb s0 (execCtlForceBothOff
    r s) := Answers.next (forceMode_kept hk)

theorem execCtlForceLowerOn_kept {kb : Bool} {s0 : State} {r : Req} {s : State} (hk : Kept kb s0 s) : Answers kb s0 (execCtlForceLowerOn
    r s) := Answers.next (forceMode_kept hk)

theorem execCtlForceUpperOn_kept {kb : Bool} {s0 : State} {r : Req} {s : State} (hk : Kept kb s0 s) : Answers kb s0 (execCtlForceUpperOn
    r s) := Answers.next (forceMode_kept hk)

theorem execCtlForceShadowWrite_kept {kb : Bool} {s0 : State} {r : Req} {s : State} (hk : Kept kb s0 s) : Answers kb s0
    (execCtlForceShadowWrite r s) := Answers.next (runJob_kept hk (guardSt_kept (guardSt_kept (ok_kept (snoop_kept (setLda_kept
    (Kept.foldl hk fun _ _ hu => putShadow_kept hu)))))))

theorem updGdv_kept {kb : Bool} {s0 s : State} {ch : Nat} {f : GdvChan → GdvChan} (hk : Kept kb s0 s) : Kept kb s0 (updGdv s ch f) :=
    Kept.of_mk hk rfl rfl rfl rfl rfl rfl rfl rfl

theorem recGdv_kept {kb : Bool} {s0 s : State} {ch : Nat} {code : W16} (hk : Kept kb s0 s) : Kept kb s0 (recGdv s ch code) :=
    record_kept hk

theorem updPrt_kept {kb : Bool} {s0 s : State} {f : Prt → Prt} (hk : Kept kb s0 s) : Kept kb s0 (updPrt s f) := Kept.of_mk hk rfl rfl
    rfl rfl rfl rfl rfl rfl

theorem recPrt_kept {kb : Bool} {s0 s : State} {unit : Nat} {code : W16} (hk : Kept kb s0 s) : Kept kb s0 (recPrt s unit code) :=
    record_kept hk

theorem putStream_kept {kb : Bool} {s0 s : State} {g slot : Nat} {v flag : W18} (h : Kept kb s0 s) : Kept kb s0 (putStream s g slot v flag) :=
  snoop_kept (h.mems rfl rfl rfl id (fun m => Vector.upd_preserves (P := fun x : Mem 18 => Memory.wf x) s.thk.rmem g
    (fun _ => memSet (memSet (s.thk.rmem.at g) (2 * slot) v) (2 * slot + 1) flag) m fun hg => memSet_wf (memSet_wf (m g hg))) id id id)

theorem deliver_kept {kb : Bool} {s0 s : State} {route slot : Nat} {v flag : W18} (hk : Kept kb s0 s) : Kept kb s0 (deliver s route slot
    v flag) := Kept.foldl hk fun _ _ hu => Kept.ite (putStream_kept hu) hu

theorem publishRegen_kept {kb : Bool} {s0 s : State} (hk : Kept kb s0 s) : Kept kb s0 (publishRegen s) := deliver_kept (updPrt_kept hk)

theorem chopperFault_kept {kb : Bool} {s0 s : State} (hk : Kept kb s0 s) : Kept kb s0 (chopperFault s) := Kept.ite hk (publishRegen_kept
    (recPrt_kept (updPrt_kept hk)))

theorem auxFault_kept {kb : Bool} {s0 s : State} (hk : Kept kb s0 s) : Kept kb s0 (auxFault s) := recPrt_kept (updPrt_kept hk)

theorem dischargeFail_kept {kb : Bool} {s0 s : State} {code : W16} (hk : Kept kb s0 s) : Kept kb s0 (dischargeFail s code) := Kept.ite
    hk (recPrt_kept (updPrt_kept hk))

theorem actPattern_kept {kb : Bool} {s0 s : State} {m : Nat} (hk : Kept kb s0 s) : Kept kb s0 (actPattern s m) := updPrt_kept
    (noteUnits_kept hk)

theorem legTrip_kept {kb : Bool} {s0 s : State} {k : Nat} {code : W16} (hk : Kept kb s0 s) : Kept kb s0 (legTrip s k code) :=
    arrive_kept (Kept.ite (recPrt_kept (updPrt_kept (noteUnits_kept hk))) (updPrt_kept (noteUnits_kept hk)))

theorem legFault_kept {kb : Bool} {s0 s : State} {ch : Nat} {code : W16} (hk : Kept kb s0 s) : Kept kb s0 (legFault s ch code) :=
    arrive_kept (Kept.of_mk (recGdv_kept (updUnit_kept (noteUnits_kept hk))) rfl rfl rfl rfl rfl rfl rfl rfl)

theorem channelLost_kept {kb : Bool} {s0 s : State} {ch : Nat} {code : W16} (hk : Kept kb s0 s) : Kept kb s0 (channelLost s ch code) :=
    Kept.ite (Kept.ite (legFault_kept hk) hk) (Kept.ite (Kept.ite (chopperFault_kept hk) hk) (Kept.ite (dischargeFail_kept hk)
    (auxFault_kept hk)))

theorem execDriverLockout_kept {kb : Bool} {s0 : State} {ch : Fin 16} {negRail : Bool} {s : State} (hk : Kept kb s0 s) : Answers kb s0
    (execDriverLockout ch negRail s) := Answers.ite (Answers.next hk) (Answers.next (channelLost_kept (Kept.ite (recGdv_kept
    (updGdv_kept hk)) (updGdv_kept hk))))

theorem execLockoutRelease_kept {kb : Bool} {s0 : State} {ch : Fin 16} {s : State} (hk : Kept kb s0 s) : Answers kb s0
    (execLockoutRelease ch s) := Answers.next (updGdv_kept hk)

theorem execEarlyWarning_kept {kb : Bool} {s0 : State} {ch : Fin 16} {s : State} (hk : Kept kb s0 s) : Answers kb s0 (execEarlyWarning
    ch s) := Answers.ite (Answers.next (recGdv_kept (updGdv_kept hk))) (Answers.next hk)

theorem execEarlyWarningClear_kept {kb : Bool} {s0 : State} {ch : Fin 16} {s : State} (hk : Kept kb s0 s) : Answers kb s0
    (execEarlyWarningClear ch s) := Answers.next (updGdv_kept hk)

theorem phaseDesat_kept {kb : Bool} {s0 s : State} {ch : Nat} (hk : Kept kb s0 s) : Kept kb s0 (phaseDesat s ch) := Kept.ite
    (actPattern_kept (updPrt_kept (noteUnits_kept (legTrip_kept hk)))) hk

theorem execDesaturation_kept {kb : Bool} {s0 : State} {ch : Fin 16} {s : State} (hk : Kept kb s0 s) : Answers kb s0 (execDesaturation
    ch s) := Answers.ite (Answers.next hk) (Answers.ite (Answers.next (phaseDesat_kept (recGdv_kept (updGdv_kept hk)))) (Answers.ite
    (Answers.next (Kept.ite (chopperFault_kept (recGdv_kept (updGdv_kept hk))) (recGdv_kept (updGdv_kept hk)))) (Answers.ite
    (Answers.next (dischargeFail_kept (recGdv_kept (updGdv_kept hk)))) (Answers.next (auxFault_kept (recGdv_kept (updGdv_kept hk)))))))

theorem execSoftTurnoffEnd_kept {kb : Bool} {s0 : State} {ch : Fin 16} {s : State} (hk : Kept kb s0 s) : Answers kb s0
    (execSoftTurnoffEnd ch s) := Answers.next (updGdv_kept hk)

theorem execCrosscheckRefusal_kept {kb : Bool} {s0 : State} {ch : Fin 16} {s : State} (hk : Kept kb s0 s) : Answers kb s0
    (execCrosscheckRefusal ch s) := Answers.ite (Answers.next hk) (Answers.ite (Answers.next (recUnit_kept (updUnit_kept (noteUnits_kept
    (recGdv_kept (updGdv_kept hk)))))) (Answers.next (updPrt_kept (recGdv_kept (updGdv_kept hk)))))

theorem execDriverLinkSilence_kept {kb : Bool} {s0 : State} {ch : Fin 16} {s : State} (hk : Kept kb s0 s) : Answers kb s0
    (execDriverLinkSilence ch s) := Answers.next (updGdv_kept hk)

theorem execLinkActivityResumed_kept {kb : Bool} {s0 : State} {ch : Fin 16} {s : State} (hk : Kept kb s0 s) : Answers kb s0
    (execLinkActivityResumed ch s) := Answers.next (updGdv_kept hk)

theorem sensorBroken_kept {kb : Bool} {s0 s : State} {n : Nat} (hk : Kept kb s0 s) : Kept kb s0 (sensorBroken s n) := Kept.ite hk
    (record_kept (Kept.of_mk hk rfl rfl rfl rfl rfl rfl rfl rfl))

theorem execGdvLink_kept {kb : Bool} {s0 : State} {ch : Fin 16} {s : State} (hk : Kept kb s0 s) : Answers kb s0 (execGdvLink ch s) :=
    Answers.ite (Answers.next hk) (Answers.next (sensorBroken_kept (channelLost_kept (Kept.ite (updGdv_kept hk) (recGdv_kept
    (updGdv_kept hk))))))

theorem execOnStateSample_kept {kb : Bool} {s0 : State} {ch : Fin 16} {vsns : BitVec 12} {s : State} (hk : Kept kb s0 s) : Answers kb s0
    (execOnStateSample ch vsns s) := Answers.ite (Answers.next (updGdv_kept hk)) (Answers.next hk)

theorem wearUpdate_kept {kb : Bool} {s0 s : State} {ch n : Nat} (hk : Kept kb s0 s) : Kept kb s0 (wearUpdate s ch n) := Kept.ite
    (updGdv_kept (Kept.of_mk hk rfl rfl rfl rfl rfl rfl rfl rfl)) hk

theorem execIndicatorUpdate_kept {kb : Bool} {s0 : State} {ch : Fin 16} {s : State} (hk : Kept kb s0 s) : Answers kb s0
    (execIndicatorUpdate ch s) := by
  unfold execIndicatorUpdate
  dsimp only
  split
  · exact Answers.next (updGdv_kept hk)
  · exact Answers.ite (Answers.next (updGdv_kept hk)) (Answers.ite (Answers.next (wearUpdate_kept (updGdv_kept (freeTaken_kept
      (freeTaken_kept (freeTaken_kept hk)))))) (Answers.next (wearUpdate_kept (Kept.ite (recGdv_kept (updGdv_kept (updGdv_kept
      (freeTaken_kept (freeTaken_kept (freeTaken_kept hk)))))) (updGdv_kept (freeTaken_kept (freeTaken_kept (freeTaken_kept hk))))))))

theorem execCfgGdvChannel_kept {kb : Bool} {s0 : State} {r : Req} {s : State} (hk : Kept kb s0 s) : Answers kb s0 (execCfgGdvChannel r
    s) := Answers.next (runJob_kept hk (guardSt_kept (guardSt_kept (ok_kept (updGdv_kept hk)))))

theorem execCfgGdvInd_kept {kb : Bool} {s0 : State} {r : Req} {s : State} (hk : Kept kb s0 s) : Answers kb s0 (execCfgGdvInd r s) :=
    Answers.next (runJob_kept hk (guardSt_kept (ok_kept (updGdv_kept hk))))

theorem execCfgGdvTable_kept {kb : Bool} {s0 : State} {r : Req} {s : State} (hk : Kept kb s0 s) : Answers kb s0 (execCfgGdvTable r s) :=
    Answers.next (runJob_kept hk (guardSt_kept (ok_kept (updGdv_kept hk))))

theorem execCfgGdvTcool_kept {kb : Bool} {s0 : State} {r : Req} {s : State} (hk : Kept kb s0 s) : Answers kb s0 (execCfgGdvTcool r s) :=
    Answers.next (runJob_kept hk (guardSt_kept (ok_kept (updGdv_kept hk))))

theorem execCfgGdvStatusClr_kept {kb : Bool} {s0 : State} {r : Req} {s : State} (hk : Kept kb s0 s) : Answers kb s0 (execCfgGdvStatusClr
    r s) := Answers.next (runJob_kept hk (guardSt_kept (ok_kept (updGdv_kept hk))))

theorem sense_kept {kb : Bool} {s0 s : State} {volts : Nat} (hk : Kept kb s0 s) : Kept kb s0 (sense s volts) := updPrt_kept hk

theorem ovReact_kept {kb : Bool} {s0 s : State} (hk : Kept kb s0 s) : Kept kb s0 (ovReact s) := arrive_kept (actPattern_kept
    (actPattern_kept (recPrt_kept (updPrt_kept hk))))

theorem uvReact_kept {kb : Bool} {s0 s : State} (hk : Kept kb s0 s) : Kept kb s0 (uvReact s) := arrive_kept (actPattern_kept
    (actPattern_kept (recPrt_kept (updPrt_kept hk))))

theorem execOvervoltageTrip_kept {kb : Bool} {s0 : State} {volts : Nat} {s : State} (hk : Kept kb s0 s) : Answers kb s0
    (execOvervoltageTrip volts s) := Answers.next (Kept.ite (ovReact_kept (sense_kept hk)) (sense_kept hk))

theorem execUndervoltageTrip_kept {kb : Bool} {s0 : State} {volts : Nat} {s : State} (hk : Kept kb s0 s) : Answers kb s0
    (execUndervoltageTrip volts s) := Answers.next (Kept.ite (uvReact_kept (sense_kept hk)) (sense_kept hk))

theorem execLegRejoin_kept {kb : Bool} {s0 : State} {leg : Fin 6} {s : State} (hk : Kept kb s0 s) : Answers kb s0 (execLegRejoin leg s)
    := Answers.ite (Answers.next hk) (Answers.next (updPrt_kept (noteUnits_kept hk)))

theorem execChopperSwitching_kept {kb : Bool} {s0 : State} {volts : Nat} {s : State} (hk : Kept kb s0 s) : Answers kb s0
    (execChopperSwitching volts s) := Answers.ite (Answers.ite (Answers.ite (Answers.next (updPrt_kept (sense_kept hk))) (Answers.next
    (sense_kept hk))) (Answers.ite (Answers.next (updPrt_kept (sense_kept hk))) (Answers.next (sense_kept hk)))) (Answers.next
    (sense_kept hk))

theorem execChopperFault_kept {kb : Bool} {s0 : State} {cause : ChopCause} {s : State} (hk : Kept kb s0 s) : Answers kb s0
    (execChopperFault cause s) := Answers.ite (Answers.next (chopperFault_kept hk)) (Answers.next hk)

theorem execDischargeSwitchOn_kept {kb : Bool} {s0 s : State} (hk : Kept kb s0 s) : Answers kb s0 (execDischargeSwitchOn s) := by
  unfold execDischargeSwitchOn
  refine Answers.ite ?_ (Answers.next hk)
  refine Answers.next ?_
  refine Kept.ite ?_ ?_
  · refine dischargeFail_kept ?_
    split
    · exact complete_kept (updGdv_kept (updPrt_kept hk))
    · exact updGdv_kept (updPrt_kept hk)
  · split
    · exact complete_kept (updGdv_kept (updPrt_kept hk))
    · exact updGdv_kept (updPrt_kept hk)

theorem execDischargeDone_kept {kb : Bool} {s0 : State} {volts : Nat} {s : State} (hk : Kept kb s0 s) : Answers kb s0 (execDischargeDone
    volts s) := Answers.ite (Answers.next (updPrt_kept (sense_kept hk))) (Answers.next (sense_kept hk))

theorem execDischargeTimeout_kept {kb : Bool} {s0 s : State} (hk : Kept kb s0 s) : Answers kb s0 (execDischargeTimeout s) := Answers.ite
    (Answers.next (dischargeFail_kept hk)) (Answers.next hk)

theorem execDischargeNotFalling_kept {kb : Bool} {s0 s : State} (hk : Kept kb s0 s) : Answers kb s0 (execDischargeNotFalling s) :=
    Answers.ite (Answers.next (dischargeFail_kept hk)) (Answers.next hk)

theorem startDischarge_kept {kb : Bool} {s0 s : State} {r : Req} (hk : Kept kb s0 s) : Kept kb s0 (startDischarge s r) := updPrt_kept
    (updGdv_kept hk)

theorem execCtlDischarge_kept {kb : Bool} {s0 : State} {r : Req} {s : State} (hk : Kept kb s0 s) : Answers kb s0 (execCtlDischarge r s)
    := by
  unfold execCtlDischarge
  refine Answers.ite (Answers.next (sealCp_kept (startDischarge_kept hk))) ?_
  refine Answers.next ?_
  refine runJob_kept hk ?_
  split
  · exact Done.Kept.refuse
  · exact ok_kept hk

theorem execCfgPrtDcl_kept {kb : Bool} {s0 : State} {r : Req} {s : State} (hk : Kept kb s0 s) : Answers kb s0 (execCfgPrtDcl r s) :=
    Answers.next (runJob_kept hk (guardSt_kept (guardSt_kept (guardSt_kept (ok_kept (updPrt_kept hk))))))

theorem execCfgPrtChop_kept {kb : Bool} {s0 : State} {r : Req} {s : State} (hk : Kept kb s0 s) : Answers kb s0 (execCfgPrtChop r s) :=
    Answers.next (runJob_kept hk (guardSt_kept (guardSt_kept (ok_kept (updPrt_kept hk)))))

theorem execCfgPrtTrip_kept {kb : Bool} {s0 : State} {r : Req} {s : State} (hk : Kept kb s0 s) : Answers kb s0 (execCfgPrtTrip r s) :=
    Answers.next (runJob_kept hk (guardSt_kept (guardSt_kept (ok_kept (updPrt_kept hk)))))

theorem execCfgPrtCbc_kept {kb : Bool} {s0 : State} {r : Req} {s : State} (hk : Kept kb s0 s) : Answers kb s0 (execCfgPrtCbc r s) :=
    Answers.next (runJob_kept hk (guardSt_kept (ok_kept (updPrt_kept hk))))

theorem execCfgPrtStatusClr_kept {kb : Bool} {s0 : State} {r : Req} {s : State} (hk : Kept kb s0 s) : Answers kb s0 (execCfgPrtStatusClr
    r s) := Answers.next (runJob_kept hk (guardSt_kept (guardSt_kept (ok_kept (Kept.ite (publishRegen_kept (Kept.ite (updGdv_kept
    (updGdv_kept (updPrt_kept hk))) (updPrt_kept hk))) (Kept.ite (updGdv_kept (updGdv_kept (updPrt_kept hk))) (updPrt_kept hk)))))))

end Sys2Proof.Machine
end

