-- ==== Sys2Proof/Laws/KeptSense.lean ====
section
/-! SUPPORT. One lemma per operation: what the converters, the delta-sigma inputs and the position block keep. -/

namespace Sys2Proof.Machine

theorem updGroup_kept {kb : Bool} {s0 s : State} {g : Nat} {f : AcqGroup → AcqGroup} (hk : Kept kb s0 s) : Kept kb s0 (updGroup s g f)
    := Kept.of_mk hk rfl rfl rfl rfl rfl rfl rfl rfl

theorem recGroup_kept {kb : Bool} {s0 s : State} {g : Nat} {code : W16} (hk : Kept kb s0 s) : Kept kb s0 (recGroup s g code) :=
    record_kept hk

theorem acqFlag_kept {kb : Bool} {s0 s : State} {g i : Nat} {code : W16} (hk : Kept kb s0 s) : Kept kb s0 (acqFlag s g i code) :=
    Kept.ite (updGroup_kept hk) (recGroup_kept (updGroup_kept hk))

theorem seqTrigger_kept {kb : Bool} {s0 s : State} {g : Nat} (hk : Kept kb s0 s) : Kept kb s0 (seqTrigger s g) := Kept.ite hk (Kept.ite
    (updGroup_kept hk) (Kept.ite (acqFlag_kept (updGroup_kept hk)) (updGroup_kept hk)))

theorem execSequenceTrigger_kept {kb : Bool} {s0 : State} {g : Fin 4} {s : State} (hk : Kept kb s0 s) : Answers kb s0
    (execSequenceTrigger g s) := Answers.next (seqTrigger_kept hk)

theorem injTrigger_kept {kb : Bool} {s0 s : State} {g j : Nat} (hk : Kept kb s0 s) : Kept kb s0 (injTrigger s g j) := Kept.ite hk
    (Kept.ite (acqFlag_kept (updGroup_kept hk)) (Kept.ite (updGroup_kept hk) (updGroup_kept hk)))

theorem execInjectedTrigger_kept {kb : Bool} {s0 : State} {g j : Fin 4} {s : State} (hk : Kept kb s0 s) : Answers kb s0
    (execInjectedTrigger g j s) := Answers.next (injTrigger_kept hk)

theorem execRunHold_kept {kb : Bool} {s0 : State} {g : Fin 4} {s : State} (hk : Kept kb s0 s) : Answers kb s0 (execRunHold g s) := by
  unfold execRunHold
  refine Answers.ite (Answers.next hk) ?_
  dsimp only
  split
  · exact Answers.next (updGroup_kept (updGroup_kept (freeTaken_kept hk)))
  · exact Answers.ite (Answers.next (updGroup_kept (freeTaken_kept hk))) (Answers.ite (Answers.next (updGroup_kept (updGroup_kept
      (freeTaken_kept hk)))) (Answers.next (updGroup_kept (freeTaken_kept hk))))

theorem execConversionComplete_kept {kb : Bool} {s0 : State} {g : Fin 4} {inj : Bool} {idx : Fin 64} {code : W18} {ovr : Bool} {s :
    State} (hk : Kept kb s0 s) : Answers kb s0 (execConversionComplete g inj idx code ovr s) := by
  unfold execConversionComplete
  dsimp only
  split
  · exact Answers.next hk
  · exact Answers.ite (Answers.next hk) (Answers.ite (Answers.next (deliver_kept (updGroup_kept hk))) (Answers.next (updGroup_kept hk)))

theorem execCalibrationStart_kept {kb : Bool} {s0 : State} {g : Fin 4} {s : State} (hk : Kept kb s0 s) : Answers kb s0
    (execCalibrationStart g s) := Answers.ite (Answers.next hk) (Answers.ite (Answers.next (updGroup_kept hk)) (Answers.ite
    (Answers.next (updGroup_kept hk)) (Answers.next hk)))

theorem execCalibrationComplete_kept {kb : Bool} {s0 : State} {g : Fin 4} {inBand : Bool} {s : State} (hk : Kept kb s0 s) : Answers kb
    s0 (execCalibrationComplete g inBand s) := Answers.ite (Answers.next (Kept.ite (updGroup_kept hk) (recGroup_kept (updGroup_kept
    (updGroup_kept hk))))) (Answers.next hk)

theorem setGroup_kept {kb : Bool} {s0 s : State} {g : Nat} {c : W32 × Tab 64 W64 × Tab 4 W64} (hk : Kept kb s0 s) : Kept kb s0 (setGroup
    s g c) := Kept.ite hk (updGroup_kept hk)

theorem execCfgAcqGroup_kept {kb : Bool} {s0 : State} {r : Req} {s : State} (hk : Kept kb s0 s) : Answers kb s0 (execCfgAcqGroup r s) :=
    Answers.next (runJob_kept hk (guardSt_kept (guardSt_kept (ok_kept (setGroup_kept hk)))))

theorem execCfgAcqSeq_kept {kb : Bool} {s0 : State} {r : Req} {s : State} (hk : Kept kb s0 s) : Answers kb s0 (execCfgAcqSeq r s) :=
    Answers.next (runJob_kept hk (guardSt_kept (guardSt_kept (ok_kept (setGroup_kept hk)))))

theorem execCfgAcqScale_kept {kb : Bool} {s0 : State} {r : Req} {s : State} (hk : Kept kb s0 s) : Answers kb s0 (execCfgAcqScale r s) :=
    Answers.next (runJob_kept hk (guardSt_kept (ok_kept (updGroup_kept hk))))

theorem execCfgAcqCal_kept {kb : Bool} {s0 : State} {r : Req} {s : State} (hk : Kept kb s0 s) : Answers kb s0 (execCfgAcqCal r s) :=
    Answers.next (runJob_kept hk (guardSt_kept (guardSt_kept (ok_kept (Kept.foldl hk fun _ _ hu => updGroup_kept hu)))))

theorem execCfgAcqStatusClr_kept {kb : Bool} {s0 : State} {r : Req} {s : State} (hk : Kept kb s0 s) : Answers kb s0 (execCfgAcqStatusClr
    r s) := Answers.next (runJob_kept hk (guardSt_kept (ok_kept (updGroup_kept hk))))

theorem execCfgAcqSwtrig_kept {kb : Bool} {s0 : State} {r : Req} {s : State} (hk : Kept kb s0 s) : Answers kb s0 (execCfgAcqSwtrig r s)
    := Answers.next (runJob_kept hk (guardSt_kept (ok_kept (Kept.foldl (Kept.foldl hk fun _ _ hu => Kept.ite (seqTrigger_kept hu) hu)
    fun _ _ hu => Kept.ite (injTrigger_kept hu) hu))))

theorem updDsm_kept {kb : Bool} {s0 s : State} {i : Nat} {f : Dsm → Dsm} (hk : Kept kb s0 s) : Kept kb s0 (updDsm s i f) := Kept.of_mk
    hk rfl rfl rfl rfl rfl rfl rfl rfl

theorem recDsm_kept {kb : Bool} {s0 s : State} {i : Nat} {code : W16} (hk : Kept kb s0 s) : Kept kb s0 (recDsm s i code) := record_kept
    hk

theorem dsmDeliver_kept {kb : Bool} {s0 s : State} {i : Nat} (hk : Kept kb s0 s) : Kept kb s0 (dsmDeliver s i) := Kept.ite (deliver_kept
    (updDsm_kept hk)) hk

theorem execDsmResult_kept {kb : Bool} {s0 : State} {i : Fin 12} {sum : Int} {s : State} (hk : Kept kb s0 s) : Answers kb s0
    (execDsmResult i sum s) := Answers.ite (Answers.next hk) (Answers.next (Kept.ite (dsmDeliver_kept (updDsm_kept (freeTaken_kept
    (freeTaken_kept hk)))) (updDsm_kept (freeTaken_kept (freeTaken_kept hk)))))

theorem execDsmDelivery_kept {kb : Bool} {s0 : State} {i : Fin 12} {s : State} (hk : Kept kb s0 s) : Answers kb s0 (execDsmDelivery i s)
    := Answers.ite (Answers.next (dsmDeliver_kept hk)) (Answers.next hk)

theorem assertTrip_kept {kb : Bool} {s0 s : State} {i : Nat} (hk : Kept kb s0 s) : Kept kb s0 (assertTrip s i) := Kept.ite (updPrt_kept
    hk) (Kept.ite (actPattern_kept (legTrip_kept (recPrt_kept (updPrt_kept (noteUnits_kept (updPrt_kept hk)))))) (Kept.ite
    (chopperFault_kept (updPrt_kept (updPrt_kept hk))) (updPrt_kept hk)))

theorem fastOut_kept {kb : Bool} {s0 s : State} {i : Nat} {sum : Int} (hk : Kept kb s0 s) : Kept kb s0 (fastOut s i sum) := Kept.ite
    (Kept.ite (assertTrip_kept (recDsm_kept (updDsm_kept (updDsm_kept (updPrt_kept (updDsm_kept hk)))))) (updDsm_kept (updPrt_kept
    (updDsm_kept hk)))) (updPrt_kept (updDsm_kept (updPrt_kept (updDsm_kept hk))))

theorem execDsmFastTrip_kept {kb : Bool} {s0 : State} {i : Fin 12} {sums : List Int} {s : State} (hk : Kept kb s0 s) : Answers kb s0
    (execDsmFastTrip i sums s) := Answers.ite (Answers.next (Kept.foldl hk fun _ _ hu => fastOut_kept hu)) (Answers.next hk)

theorem execDsmStuck_kept {kb : Bool} {s0 : State} {i : Fin 12} {s : State} (hk : Kept kb s0 s) : Answers kb s0 (execDsmStuck i s) :=
    Answers.ite (Answers.next (Kept.ite (assertTrip_kept (updDsm_kept (recDsm_kept (updDsm_kept hk)))) (recDsm_kept (updDsm_kept hk))))
    (Answers.next hk)

theorem execCfgDsmClocks_kept {kb : Bool} {s0 : State} {r : Req} {s : State} (hk : Kept kb s0 s) : Answers kb s0 (execCfgDsmClocks r s)
    := Answers.next (runJob_kept hk (guardSt_kept (guardSt_kept (ok_kept (Kept.of_mk hk rfl rfl rfl rfl rfl rfl rfl rfl)))))

theorem execCfgDsmInput_kept {kb : Bool} {s0 : State} {r : Req} {s : State} (hk : Kept kb s0 s) : Answers kb s0 (execCfgDsmInput r s) :=
    Answers.next (runJob_kept hk (guardSt_kept (guardSt_kept (ok_kept (updDsm_kept hk)))))

theorem execCfgDsmStatusClr_kept {kb : Bool} {s0 : State} {r : Req} {s : State} (hk : Kept kb s0 s) : Answers kb s0 (execCfgDsmStatusClr
    r s) := Answers.next (runJob_kept hk (guardSt_kept (ok_kept (updDsm_kept hk))))

theorem updEnc_kept {kb : Bool} {s0 s : State} {e : Nat} {f : Enc → Enc} (hk : Kept kb s0 s) : Kept kb s0 (updEnc s e f) := Kept.of_mk
    hk rfl rfl rfl rfl rfl rfl rfl rfl

theorem updHal_kept {kb : Bool} {s0 s : State} {h : Nat} {f : Hal → Hal} (hk : Kept kb s0 s) : Kept kb s0 (updHal s h f) := Kept.of_mk
    hk rfl rfl rfl rfl rfl rfl rfl rfl

theorem updObs_kept {kb : Bool} {s0 s : State} {o : Nat} {f : Obs → Obs} (hk : Kept kb s0 s) : Kept kb s0 (updObs s o f) := Kept.of_mk
    hk rfl rfl rfl rfl rfl rfl rfl rfl

theorem updRsv_kept {kb : Bool} {s0 s : State} {u : Nat} {f : Rsv → Rsv} (hk : Kept kb s0 s) : Kept kb s0 (updRsv s u f) := Kept.of_mk
    hk rfl rfl rfl rfl rfl rfl rfl rfl

theorem mapObs_kept {kb : Bool} {s0 s : State} {f : Obs → Obs} (hk : Kept kb s0 s) : Kept kb s0 (mapObs s f) := Kept.of_mk hk rfl rfl
    rfl rfl rfl rfl rfl rfl

theorem measure_kept {kb : Bool} {s0 s : State} {src : Nat} {q : Rat} (hk : Kept kb s0 s) : Kept kb s0 (measure s src q) := mapObs_kept
    hk

theorem execResolverSample_kept {kb : Bool} {s0 : State} {u : Fin 2} {sn cs : W18} {negPeak : Bool} {s : State} (hk : Kept kb s0 s) :
    Answers kb s0 (execResolverSample u sn cs negPeak s) := Answers.ite (Answers.next hk) (Answers.ite (Answers.next (measure_kept
    (Kept.ite (record_kept (fire_kept (updRsv_kept (freeTaken_kept (freeTaken_kept hk))))) (fire_kept (updRsv_kept (freeTaken_kept
    (freeTaken_kept hk))))))) (Answers.next (Kept.ite (record_kept (fire_kept (updRsv_kept (freeTaken_kept (freeTaken_kept hk)))))
    (fire_kept (updRsv_kept (freeTaken_kept (freeTaken_kept hk)))))))

theorem encFlag_kept {kb : Bool} {s0 s : State} {e i : Nat} {code : W16} (hk : Kept kb s0 s) : Kept kb s0 (encFlag s e i code) :=
    Kept.ite (updEnc_kept hk) (record_kept (updEnc_kept hk))

theorem compareFire_kept {kb : Bool} {s0 s : State} {e : Nat} {rev : Bool} (hk : Kept kb s0 s) : Kept kb s0 (compareFire s e rev) :=
    Kept.ite (fire_kept (updEnc_kept hk)) hk

theorem countStep_kept {kb : Bool} {s0 s : State} {e : Nat} {rev : Bool} (hk : Kept kb s0 s) : Kept kb s0 (countStep s e rev) :=
    compareFire_kept (measure_kept (updEnc_kept (freeTaken_kept hk)))

theorem encIllegal_kept {kb : Bool} {s0 s : State} {e : Nat} (hk : Kept kb s0 s) : Kept kb s0 (encIllegal s e) := encFlag_kept
    (updEnc_kept hk)

theorem execEncoderCountStep_kept {kb : Bool} {s0 : State} {e : Fin 4} {up both : Bool} {s : State} (hk : Kept kb s0 s) : Answers kb s0
    (execEncoderCountStep e up both s) := Answers.ite (Answers.next hk) (Answers.ite (Answers.next (encIllegal_kept hk)) (Answers.next
    (countStep_kept (updEnc_kept hk))))

theorem indexShift_kept {kb : Bool} {s0 s : State} {e ref : Nat} (hk : Kept kb s0 s) : Kept kb s0 (indexShift s e ref) := mapObs_kept
    (freeTaken_kept hk)

theorem execIndexEdge_kept {kb : Bool} {s0 : State} {e : Fin 4} {falling aLevel bLevel : Bool} {s : State} (hk : Kept kb s0 s) : Answers
    kb s0 (execIndexEdge e falling aLevel bLevel s) := Answers.ite (Answers.next (Kept.ite (updEnc_kept hk) hk)) (Answers.ite
    (Answers.next (indexShift_kept (updEnc_kept (updEnc_kept (Kept.ite (updEnc_kept hk) hk))))) (Answers.ite (Answers.ite (Answers.next
    (record_kept (updEnc_kept (updEnc_kept (Kept.ite (updEnc_kept hk) hk))))) (Answers.next (updEnc_kept (Kept.ite (updEnc_kept hk)
    hk)))) (Answers.next (updEnc_kept (Kept.ite (updEnc_kept hk) hk)))))

theorem execEncLine_kept {kb : Bool} {s0 : State} {e : Fin 4} {s : State} (hk : Kept kb s0 s) : Answers kb s0 (execEncLine e s) :=
    Answers.ite (Answers.next (record_kept (updEnc_kept hk))) (Answers.next hk)

theorem execEncLineClear_kept {kb : Bool} {s0 : State} {e : Fin 4} {s : State} (hk : Kept kb s0 s) : Answers kb s0 (execEncLineClear e
    s) := Answers.next (Kept.ite (updEnc_kept hk) hk)

theorem hallCentre_kept {kb : Bool} {s0 s : State} {h k : Nat} (hk : Kept kb s0 s) : Kept kb s0 (hallCentre s h k) := mapObs_kept hk

theorem execHallChange_kept {kb : Bool} {s0 : State} {h : Fin 2} {lines : BitVec 3} {s : State} (hk : Kept kb s0 s) : Answers kb s0
    (execHallChange h lines s) := by
  unfold execHallChange
  refine Answers.ite (Answers.next hk) ?_
  refine Answers.ite (Answers.next (Kept.ite (updHal_kept (updHal_kept hk)) (record_kept (updHal_kept (updHal_kept hk))))) ?_
  dsimp only
  split
  · exact Answers.next (hallCentre_kept (updHal_kept (updHal_kept hk)))
  · exact Answers.ite (Answers.next (updHal_kept (updHal_kept hk))) (Answers.ite (Answers.next (measure_kept (updHal_kept (updHal_kept
      (updHal_kept hk))))) (Answers.ite (Answers.next (measure_kept (updHal_kept (updHal_kept (updHal_kept hk))))) (Answers.next
      (Kept.ite (updHal_kept (updHal_kept (updHal_kept (updHal_kept hk)))) (record_kept (updHal_kept (updHal_kept (updHal_kept
      (updHal_kept hk)))))))))

theorem catchAbort_kept {kb : Bool} {s0 s : State} {m : Nat} (hk : Kept kb s0 s) : Kept kb s0 (catchAbort s m) := arrive_kept
    (record_kept hk)

theorem obsLost_kept {kb : Bool} {s0 s : State} {o : Nat} (hk : Kept kb s0 s) : Kept kb s0 (obsLost s o) := Kept.ite (record_kept
    (updObs_kept hk)) (Kept.ite (Kept.ite (catchAbort_kept (Kept.ite (catchAbort_kept hk) hk)) (Kept.ite (catchAbort_kept hk) hk))
    (Kept.ite (escalate_kept (record_kept hk)) (record_kept hk)))

theorem catchLost_kept {kb : Bool} {s0 s : State} {o : Nat} (hk : Kept kb s0 s) : Kept kb s0 (catchLost s o) := Kept.foldl hk fun _ _ hu
    => Kept.ite (catchAbort_kept hu) hu

theorem choosePattern_kept {kb : Bool} {s0 s : State} {o : Nat} (hk : Kept kb s0 s) : Kept kb s0 (choosePattern s o) := Kept.foldl hk
    fun _ _ hu => Kept.ite (updPrt_kept (noteUnits_kept hu)) hu

theorem noteUpdate_kept {kb : Bool} {s0 s : State} (hk : Kept kb s0 s) : Kept kb s0 (noteUpdate s) := Kept.ite (Kept.of_mk hk rfl rfl
    rfl rfl rfl rfl rfl rfl) hk

theorem execObserverUpdate_kept {kb : Bool} {s0 : State} {o : Fin 4} {s : State} (hk : Kept kb s0 s) : Answers kb s0 (execObserverUpdate
    o s) := Answers.ite (Answers.next hk) (Answers.next (noteUpdate_kept (choosePattern_kept (Kept.ite (Kept.ite (obsLost_kept (Kept.ite
    (record_kept (updObs_kept (freeTaken_kept (freeTaken_kept hk)))) (updObs_kept (freeTaken_kept (freeTaken_kept hk)))))
    (catchLost_kept (Kept.ite (record_kept (updObs_kept (freeTaken_kept (freeTaken_kept hk)))) (updObs_kept (freeTaken_kept
    (freeTaken_kept hk)))))) (Kept.ite (record_kept (updObs_kept (freeTaken_kept (freeTaken_kept hk)))) (updObs_kept (freeTaken_kept
    (freeTaken_kept hk))))))))

theorem execObserverLatch_kept {kb : Bool} {s0 : State} {o : Fin 4} {dtNs : Nat} {s : State} (hk : Kept kb s0 s) : Answers kb s0
    (execObserverLatch o dtNs s) := Answers.ite (Answers.next hk) (Answers.next (Kept.ite (deliver_kept (Kept.ite (deliver_kept
    (Kept.ite (deliver_kept (Kept.ite (deliver_kept (updObs_kept (freeTaken_kept hk))) (updObs_kept (freeTaken_kept hk)))) (Kept.ite
    (deliver_kept (updObs_kept (freeTaken_kept hk))) (updObs_kept (freeTaken_kept hk))))) (Kept.ite (deliver_kept (Kept.ite
    (deliver_kept (updObs_kept (freeTaken_kept hk))) (updObs_kept (freeTaken_kept hk)))) (Kept.ite (deliver_kept (updObs_kept
    (freeTaken_kept hk))) (updObs_kept (freeTaken_kept hk)))))) (Kept.ite (deliver_kept (Kept.ite (deliver_kept (Kept.ite (deliver_kept
    (updObs_kept (freeTaken_kept hk))) (updObs_kept (freeTaken_kept hk)))) (Kept.ite (deliver_kept (updObs_kept (freeTaken_kept hk)))
    (updObs_kept (freeTaken_kept hk))))) (Kept.ite (deliver_kept (Kept.ite (deliver_kept (updObs_kept (freeTaken_kept hk))) (updObs_kept
    (freeTaken_kept hk)))) (Kept.ite (deliver_kept (updObs_kept (freeTaken_kept hk))) (updObs_kept (freeTaken_kept hk)))))))

theorem execPlausibilityCheck_kept {kb : Bool} {s0 : State} {p : Fin 2} {s : State} (hk : Kept kb s0 s) : Answers kb s0
    (execPlausibilityCheck p s) := Answers.ite (Answers.next hk) (Answers.ite (Answers.next (record_kept (updObs_kept (updObs_kept
    (Kept.of_mk hk rfl rfl rfl rfl rfl rfl rfl rfl))))) (Answers.ite (Answers.next (updObs_kept (updObs_kept (Kept.of_mk hk rfl rfl rfl
    rfl rfl rfl rfl rfl)))) (Answers.next (Kept.of_mk hk rfl rfl rfl rfl rfl rfl rfl rfl))))

theorem execCfgPosRsv_kept {kb : Bool} {s0 : State} {r : Req} {s : State} (hk : Kept kb s0 s) : Answers kb s0 (execCfgPosRsv r s) :=
    Answers.next (runJob_kept hk (guardSt_kept (guardSt_kept (ok_kept (updRsv_kept hk)))))

theorem execCfgPosEnc_kept {kb : Bool} {s0 : State} {r : Req} {s : State} (hk : Kept kb s0 s) : Answers kb s0 (execCfgPosEnc r s) :=
    Answers.next (runJob_kept hk (guardSt_kept (guardSt_kept (ok_kept (updEnc_kept (Kept.ite hk (mapObs_kept hk)))))))

theorem execCfgPosCmp_kept {kb : Bool} {s0 : State} {r : Req} {s : State} (hk : Kept kb s0 s) : Answers kb s0 (execCfgPosCmp r s) :=
    Answers.next (runJob_kept hk (guardSt_kept (ok_kept (updEnc_kept hk))))

theorem execCfgPosHal_kept {kb : Bool} {s0 : State} {r : Req} {s : State} (hk : Kept kb s0 s) : Answers kb s0 (execCfgPosHal r s) := by
  unfold execCfgPosHal
  refine Answers.next ?_
  refine runJob_kept hk ?_
  refine guardSt_kept ?_
  refine guardSt_kept ?_
  refine ok_kept ?_
  refine updHal_kept ?_
  split
  · exact hallCentre_kept hk
  · exact hk

theorem setObs_kept {kb : Bool} {s0 s : State} {o : Nat} {a b : W64} {wb : W32} (hk : Kept kb s0 s) : Kept kb s0 (setObs s o a b wb) :=
    by
  unfold setObs
  refine Kept.ite ?_ ?_
  · refine choosePattern_kept ?_
    refine Kept.ite ?_ ?_
    · refine obsLost_kept ?_
      refine Kept.ite ?_ (updObs_kept hk)
      split
      · exact Kept.ite (updObs_kept (updObs_kept hk)) (updObs_kept hk)
      · exact updObs_kept hk
    · refine Kept.ite ?_ (updObs_kept hk)
      split
      · exact Kept.ite (updObs_kept (updObs_kept hk)) (updObs_kept hk)
      · exact updObs_kept hk
  · refine Kept.ite ?_ ?_
    · refine obsLost_kept ?_
      refine Kept.ite ?_ (updObs_kept hk)
      split
      · exact Kept.ite (updObs_kept (updObs_kept hk)) (updObs_kept hk)
      · exact updObs_kept hk
    · refine Kept.ite ?_ (updObs_kept hk)
      split
      · exact Kept.ite (updObs_kept (updObs_kept hk)) (updObs_kept hk)
      · exact updObs_kept hk

theorem execCfgPosObs_kept {kb : Bool} {s0 : State} {r : Req} {s : State} (hk : Kept kb s0 s) : Answers kb s0 (execCfgPosObs r s) :=
    Answers.next (runJob_kept hk (guardSt_kept (guardSt_kept (ok_kept (setObs_kept hk)))))

theorem execCfgPosPla_kept {kb : Bool} {s0 : State} {r : Req} {s : State} (hk : Kept kb s0 s) : Answers kb s0 (execCfgPosPla r s) :=
    Answers.next (runJob_kept hk (guardSt_kept (guardSt_kept (ok_kept (Kept.of_mk hk rfl rfl rfl rfl rfl rfl rfl rfl)))))

theorem execCfgPosStatusClr_kept {kb : Bool} {s0 : State} {r : Req} {s : State} (hk : Kept kb s0 s) : Answers kb s0 (execCfgPosStatusClr
    r s) := Answers.next (runJob_kept hk (guardSt_kept (ok_kept (Kept.ite (updObs_kept hk) (Kept.ite (updEnc_kept hk) (updHal_kept
    hk))))))

theorem setPrtCtl_kept {kb : Bool} {s0 s : State} {c : W64} (hk : Kept kb s0 s) : Kept kb s0 (setPrtCtl s c) := publishRegen_kept
    (Kept.of_mk (Kept.ite (updGdv_kept (updPrt_kept (noteUnits_kept hk))) (updPrt_kept (noteUnits_kept hk))) rfl rfl rfl rfl rfl rfl rfl
    rfl)

theorem execCfgPrtCtl_kept {kb : Bool} {s0 : State} {r : Req} {intact : Bool} {s : State} (hk : Kept kb s0 s) : Answers kb s0
    (execCfgPrtCtl r intact s) := Answers.next (runJob_kept hk (guardSt_kept (guardSt_kept (guardSt_kept (guardSt_kept (Done.Kept.ite
    (Done.Kept.done (record_kept hk)) (ok_kept (setPrtCtl_kept hk))))))))

end Sys2Proof.Machine
end

