-- ==== Sys2Proof/Laws/KeptSafety.lean ====
section
/-! SUPPORT. One lemma per operation: what Blackthorn, the demand stage, temperature and supply keep. -/

namespace Sys2Proof.Machine

theorem updSaf_kept {kb : Bool} {s0 s : State} {f : Safety → Safety} (hk : Kept kb s0 s) : Kept kb s0 (updSaf s f) := Kept.of_mk hk rfl
    rfl rfl rfl rfl rfl rfl rfl

theorem updMach_kept {kb : Bool} {s0 s : State} {m : Nat} {f : BlkMach → BlkMach} (hk : Kept kb s0 s) : Kept kb s0 (updMach s m f) :=
    updSaf_kept hk

theorem updPair_kept {kb : Bool} {s0 s : State} {p : Nat} {f : PairIn → PairIn} (hk : Kept kb s0 s) : Kept kb s0 (updPair s p f) :=
    updSaf_kept hk

theorem recBlk_kept {kb : Bool} {s0 s : State} {unit : Nat} {code : W16} (hk : Kept kb s0 s) : Kept kb s0 (recBlk s unit code) :=
    record_kept hk

theorem blkStep_kept {kb : Bool} {s0 : State} {s s' : State} (hk : Kept kb s0 s) (h_s' : Kept kb s0 s') : Kept kb s0 (blkStep s s') :=
    by
  unfold blkStep
  refine Kept.ite ?_ h_s'
  split
  · exact arrive_kept h_s'
  · exact h_s'

theorem execSafetyInputChange_kept {kb : Bool} {s0 : State} {p : Fin 4} {chanB : Bool} {mv : Nat} {s : State} (hk : Kept kb s0 s) :
    Answers kb s0 (execSafetyInputChange p chanB mv s) := Answers.ite (Answers.next hk) (Answers.next (Kept.ite (recBlk_kept
    (blkStep_kept hk (updMach_kept (updMach_kept (updPair_kept hk))))) (blkStep_kept hk (updMach_kept (updMach_kept (updPair_kept
    hk))))))

theorem execDiscrepancyTimeout_kept {kb : Bool} {s0 : State} {p : Fin 4} {s : State} (hk : Kept kb s0 s) : Answers kb s0
    (execDiscrepancyTimeout p s) := Answers.ite (Answers.next hk) (Answers.next (recBlk_kept (blkStep_kept hk (updPair_kept hk))))

theorem execSpeedCounterSample_kept {kb : Bool} {s0 : State} {m : Fin 2} {net count : Int} {s : State} (hk : Kept kb s0 s) : Answers kb
    s0 (execSpeedCounterSample m net count s) := Answers.ite (Answers.next hk) (Answers.next (Kept.foldl (blkStep_kept hk (updSaf_kept
    (updMach_kept hk))) fun _ _ hu => recBlk_kept hu))

theorem execSpeedSourceIllegal_kept {kb : Bool} {s0 : State} {m : Fin 2} {s : State} (hk : Kept kb s0 s) : Answers kb s0
    (execSpeedSourceIllegal m s) := Answers.ite (Answers.next hk) (Answers.next (recBlk_kept (blkStep_kept hk (updMach_kept hk))))

theorem execSpeedCrossCheck_kept {kb : Bool} {s0 : State} {m : Fin 2} {s : State} (hk : Kept kb s0 s) : Answers kb s0
    (execSpeedCrossCheck m s) := Answers.ite (Answers.next hk) (Answers.next (Kept.ite (recBlk_kept (updMach_kept hk)) (updMach_kept
    hk)))

theorem execSmaxSoftwareCheck_kept {kb : Bool} {s0 : State} {m : Fin 2} {s : State} (hk : Kept kb s0 s) : Answers kb s0
    (execSmaxSoftwareCheck m s) := Answers.ite (Answers.next hk) (Answers.ite (Answers.next (recBlk_kept (blkStep_kept hk (updMach_kept
    hk)))) (Answers.next hk))

theorem execBlackthornComparatorTrip_kept {kb : Bool} {s0 : State} {n : Fin 8} {level : Nat} {s : State} (hk : Kept kb s0 s) : Answers
    kb s0 (execBlackthornComparatorTrip n level s) := Answers.ite (Answers.next hk) (Answers.next (Kept.ite (recBlk_kept (blkStep_kept
    hk (updSaf_kept hk))) (blkStep_kept hk (updSaf_kept hk))))

theorem execLatchSelfClear_kept {kb : Bool} {s0 : State} {m : Fin 2} {cause : BlkCause} {s : State} (hk : Kept kb s0 s) : Answers kb s0
    (execLatchSelfClear m cause s) := by
  unfold execLatchSelfClear
  split
  · exact Answers.next (updMach_kept hk)
  · exact Answers.next (updMach_kept hk)
  · exact Answers.next (updMach_kept hk)
  · exact Answers.next (updMach_kept hk)
  · exact Answers.next (updSaf_kept hk)

theorem execQaQuestion_kept {kb : Bool} {s0 : State} {q : Byte} {s : State} (hk : Kept kb s0 s) : Answers kb s0 (execQaQuestion q s) :=
    Answers.ite (Answers.next (updSaf_kept hk)) (Answers.next hk)

theorem qaRight_kept {kb : Bool} {s0 s : State} (hk : Kept kb s0 s) : Kept kb s0 (qaRight s) := updSaf_kept hk

theorem qaWrong_kept {kb : Bool} {s0 s : State} (hk : Kept kb s0 s) : Kept kb s0 (qaWrong s) := Kept.ite (recBlk_kept (updSaf_kept
    (Kept.ite (recBlk_kept (blkStep_kept hk (updSaf_kept hk))) (blkStep_kept hk (updSaf_kept hk))))) (Kept.ite (recBlk_kept
    (blkStep_kept hk (updSaf_kept hk))) (blkStep_kept hk (updSaf_kept hk)))

theorem execQaAnswer_kept {kb : Bool} {s0 : State} {words : List W32} {cycles : Nat} {s : State} (hk : Kept kb s0 s) : Answers kb s0
    (execQaAnswer words cycles s) := by
  unfold execQaAnswer
  split
  · exact Answers.next hk
  · exact Answers.ite (Answers.next (qaRight_kept hk)) (Answers.next (qaWrong_kept hk))

theorem execQaWindowExpiry_kept {kb : Bool} {s0 s : State} (hk : Kept kb s0 s) : Answers kb s0 (execQaWindowExpiry s) := Answers.ite
    (Answers.next (qaWrong_kept hk)) (Answers.next hk)

theorem execSackPulse_kept {kb : Bool} {s0 : State} {ms : Nat} {s : State} (hk : Kept kb s0 s) : Answers kb s0 (execSackPulse ms s) :=
    Answers.ite (Answers.next (updSaf_kept hk)) (Answers.next hk)

theorem execReferenceClockWindow_kept {kb : Bool} {s0 : State} {edges : Nat} {s : State} (hk : Kept kb s0 s) : Answers kb s0
    (execReferenceClockWindow edges s) := Answers.ite (Answers.next hk) (Answers.ite (Answers.next (updSaf_kept hk)) (Answers.next
    (Kept.ite (recBlk_kept (blkStep_kept hk (updSaf_kept (updSaf_kept hk)))) (blkStep_kept hk (updSaf_kept (updSaf_kept hk))))))

theorem execSafStop_kept {s0 : State} {r : Req} {s : State} (hk : Kept false s0 s) : Answers false s0 (execSafStop r s) := by
  unfold execSafStop
  refine Answers.ite (Answers.next (runJob_kept hk (guardSt_kept (ok_kept hk)))) ?_
  split
  · exact Answers.ite (Answers.next (complete_kept (evaluate_kept hk))) (Answers.ite (Answers.next (runStateJob_kept (Kept.of_mk hk rfl
      rfl rfl rfl rfl rfl rfl rfl) (fun _ hu => hu))) (Answers.next (runStateJob_kept hk (fun _ hu => hu))))
  · exact Answers.next (runStateJob_kept hk (fun _ hu => hu))

theorem blkRelease_kept {s0 s : State} {dst : Mode} (h : Kept false s0 s) : Kept false s0 (blkRelease s dst) :=
  h.trans ⟨rfl, rfl, nofun, fun m => m.of_fields m.qsram rfl rfl rfl rfl⟩

theorem applyRelease_kept {s0 s : State} (hk : Kept false s0 s) : Kept false s0 (applyRelease s) := Kept.foldl (noteUnits_kept
    (Kept.foldl (updPrt_kept (blkRelease_kept hk)) fun _ _ hu => updGdv_kept hu)) fun _ _ hu => updUnit_kept hu

theorem execSafRelease_kept {s0 : State} {r : Req} {s : State} (hk : Kept false s0 s) : Answers false s0 (execSafRelease r s) :=
    Answers.next (runStateJob_kept hk (fun _ hu => applyRelease_kept hu))

theorem execBlackthornReleaseTimeout_kept {kb : Bool} {s0 : State} {r : Req} {s : State} (hk : Kept kb s0 s) : Answers kb s0
    (execBlackthornReleaseTimeout r s) := by
  unfold execBlackthornReleaseTimeout
  refine Answers.next ?_
  refine runJob_kept hk ?_
  refine guardSt_kept ?_
  split
  · exact Done.Kept.done hk
  · exact Done.Kept.done hk

theorem execSafAck_kept {s0 : State} {r : Req} {chPass : BitVec 16} {cmpPass : Byte} {s : State} (hk : Kept false s0 s) : Answers false
    s0 (execSafAck r chPass cmpPass s) := Answers.ite (Answers.next (runJob_kept hk (guardSt_kept (ok_kept (Kept.of_mk hk rfl rfl rfl
    rfl rfl rfl rfl rfl))))) (Answers.next (runStateJob_kept hk (fun _ hu => Kept.of_mk hu rfl rfl rfl rfl rfl rfl rfl rfl)))

theorem execSafTest_kept {kb : Bool} {s0 : State} {r : Req} {chPass : BitVec 16} {cmpPass : Byte} {s : State} (hk : Kept kb s0 s) :
    Answers kb s0 (execSafTest r chPass cmpPass s) := Answers.next (runJob_kept hk (guardSt_kept (guardSt_kept (Done.Kept.ite
    (Done.Kept.done hk) (Done.Kept.done (recBlk_kept hk))))))

theorem execCfgLimit_kept {kb : Bool} {s0 : State} {r : Req} {intact : Bool} {s : State} (hk : Kept kb s0 s) : Answers kb s0
    (execCfgLimit r intact s) := Answers.next (runJob_kept hk (guardSt_kept (guardSt_kept (Done.Kept.ite (ok_kept (updSaf_kept hk))
    (Done.Kept.done (recBlk_kept hk))))))

/-- Words of a region's bank: the form stays. -/
theorem upd_memPuts_wf {k n : Nat} {t : Tab k (Mem n)} {g : Nat} {l : List (Nat × BitVec n)} (h : ∀ i < k, Memory.wf (t.at i)) :
    ∀ i < k, Memory.wf ((t.upd g fun m => memPuts m l).at i) :=
  Vector.upd_preserves (P := fun m : Mem n => Memory.wf m) t g _ h fun hg => memPuts_wf _ (h g hg)

theorem putWords_kept {kb : Bool} {s0 s : State} {g : Nat} {b : Bool} {l : List (Nat × W18)} (h : Kept kb s0 s) :
    Kept kb s0 (putWords s g b l) := by
  unfold putWords
  split
  · exact h.mems rfl rfl rfl id id upd_memPuts_wf id id
  · exact h.mems rfl rfl rfl id upd_memPuts_wf id id id

theorem putLaws_kept {kb : Bool} {s0 s : State} {i : CtxImg} {b : Bool} {rs : List LawRun} (hk : Kept kb s0 s) : Kept kb s0 (putLaws s i
    b rs) := putWords_kept hk

theorem mapCtxLaws_kept {kb : Bool} {s0 : State} {f : LawInst → LawRun → LawRun} {s : State} {i : CtxImg} (hk : Kept kb s0 s) : Kept kb
    s0 (mapCtxLaws f s i) := updCtx_kept (putLaws_kept hk)

theorem mapLaws_kept {kb : Bool} {s0 s : State} {f : LawInst → LawRun → LawRun} (hk : Kept kb s0 s) : Kept kb s0 (mapLaws s f) :=
    Kept.foldl hk fun _ _ hu => mapCtxLaws_kept hu

theorem mergeParams_kept {kb : Bool} {s0 s : State} {c : Nat} (hk : Kept kb s0 s) : Kept kb s0 (mergeParams s c) := updCtx_kept
    (putWords_kept (putWords_kept hk))

theorem startRamp_kept {kb : Bool} {s0 s : State} {k : RampKind} {ms : Nat} (hk : Kept kb s0 s) : Kept kb s0 (startRamp s k ms) :=
    Kept.foldl (Kept.of_mk hk rfl rfl rfl rfl rfl rfl rfl rfl) fun _ _ hu => updCtx_kept hu

theorem askRamp_kept {kb : Bool} {s0 s : State} {k : RampKind} {ms : Nat} (hk : Kept kb s0 s) : Kept kb s0 (askRamp s k ms) := by
  unfold askRamp
  split
  · exact startRamp_kept hk
  · exact Kept.ite (Kept.of_mk hk rfl rfl rfl rfl rfl rfl rfl rfl) (Kept.of_mk hk rfl rfl rfl rfl rfl rfl rfl rfl)

theorem askStop_kept {kb : Bool} {s0 s : State} {k : RampKind} {ms : Nat} (hk : Kept kb s0 s) : Kept kb s0 (askStop s k ms) :=
    Kept.of_mk (Kept.ite (askRamp_kept hk) hk) rfl rfl rfl rfl rfl rfl rfl rfl

theorem execCtlStop_kept {kb : Bool} {s0 : State} {r : Req} {s : State} (hk : Kept kb s0 s) : Answers kb s0 (execCtlStop r s) :=
    Answers.next (runJob_kept hk (guardSt_kept (ok_kept (askStop_kept hk))))

theorem execStopRampComplete_kept {kb : Bool} {s0 s : State} (hk : Kept kb s0 s) : Answers kb s0 (execStopRampComplete s) := by
  unfold execStopRampComplete
  split
  · exact Answers.next hk
  · refine Answers.ite (Answers.next hk) ?_
    split
    · exact Answers.next (arrive_kept hk)
    · exact Answers.next (arrive_kept hk)
    · exact Answers.next (arrive_kept hk)

theorem execStopOverdue_kept {kb : Bool} {s0 s : State} (hk : Kept kb s0 s) : Answers kb s0 (execStopOverdue s) := by
  unfold execStopOverdue
  split
  · exact Answers.ite (Answers.next (arrive_kept (record_kept hk))) (Answers.next hk)
  · exact Answers.next hk

theorem execMonitorStopTimeout_kept {kb : Bool} {s0 s : State} (hk : Kept kb s0 s) : Answers kb s0 (execMonitorStopTimeout s) := by
  unfold execMonitorStopTimeout
  split
  · exact Answers.ite (Answers.next (arrive_kept (recBlk_kept hk))) (Answers.next hk)
  · exact Answers.next hk

theorem execCtlMode_kept {kb : Bool} {s0 : State} {r : Req} {s : State} (hk : Kept kb s0 s) : Answers kb s0 (execCtlMode r s) :=
    Answers.next (runJob_kept hk (guardSt_kept (ok_kept (Kept.of_mk hk rfl rfl rfl rfl rfl rfl rfl rfl))))

theorem execCtlSetpoint_kept {kb : Bool} {s0 : State} {r : Req} {s : State} (hk : Kept kb s0 s) : Answers kb s0 (execCtlSetpoint r s) :=
    by
  unfold execCtlSetpoint
  dsimp only
  split
  · exact Answers.next (runJob_kept hk Done.Kept.refuse)
  · exact Answers.next (runJob_kept hk (guardSt_kept (Done.Kept.done (Kept.of_mk hk rfl rfl rfl rfl rfl rfl rfl rfl))))

theorem execCfgCurve_kept {kb : Bool} {s0 : State} {r : Req} {s : State} (hk : Kept kb s0 s) : Answers kb s0 (execCfgCurve r s) := by
  unfold execCfgCurve
  dsimp only
  split
  · exact Answers.next (runJob_kept hk (guardSt_kept (ok_kept (Kept.of_mk hk rfl rfl rfl rfl rfl rfl rfl rfl))))
  · exact Answers.next (runJob_kept hk Done.Kept.refuse)

theorem updThm_kept {kb : Bool} {s0 s : State} {f : Thermal → Thermal} (hk : Kept kb s0 s) : Kept kb s0 (updThm s f) := Kept.of_mk hk
    rfl rfl rfl rfl rfl rfl rfl rfl

theorem sensorWindow_kept {kb : Bool} {s0 s : State} {n count : Nat} {reading : Int} (hk : Kept kb s0 s) : Kept kb s0 (sensorWindow s n
    count reading) := Kept.ite (record_kept (blkStep_kept (Kept.ite (sensorBroken_kept (updThm_kept hk)) (updThm_kept hk)) (updThm_kept
    (Kept.ite (sensorBroken_kept (updThm_kept hk)) (updThm_kept hk))))) (Kept.ite (sensorBroken_kept (updThm_kept hk)) (updThm_kept hk))

theorem execSensorWindow_kept {kb : Bool} {s0 : State} {n : Fin 32} {count : Nat} {reading : Int} {s : State} (hk : Kept kb s0 s) :
    Answers kb s0 (execSensorWindow n count reading s) := Answers.ite (Answers.next hk) (Answers.next (sensorWindow_kept hk))

theorem execThermalLineRelease_kept {kb : Bool} {s0 s : State} (hk : Kept kb s0 s) : Answers kb s0 (execThermalLineRelease s) :=
    Answers.ite (Answers.next (updThm_kept hk)) (Answers.next hk)

theorem maintainThr_kept {kb : Bool} {s0 : State} {thr : Nat} {s : State} {i : CtxImg} (hk : Kept kb s0 s) : Kept kb s0 (maintainThr thr
    s i) := by
  unfold maintainThr
  refine Kept.foldl ?_ fun _ _ hu => ?_
  · exact hk
  · split
    · exact Kept.ite (putState_kept hu) hu
    · exact hu

theorem writeThr_kept {kb : Bool} {s0 s : State} {thr : Nat} (hk : Kept kb s0 s) : Kept kb s0 (writeThr s thr) := Kept.foldl hk fun _ _
    hu => maintainThr_kept hu

theorem warnCheck_kept {kb : Bool} {s0 s : State} {tm : Int} (hk : Kept kb s0 s) : Kept kb s0 (warnCheck s tm) := Kept.ite hk (Kept.ite
    (updThm_kept hk) (Kept.ite (record_kept (updThm_kept hk)) hk))

theorem stopCheck_kept {kb : Bool} {s0 s : State} {tm : Int} (hk : Kept kb s0 s) : Kept kb s0 (stopCheck s tm) := Kept.ite (askStop_kept
    (record_kept (updThm_kept hk))) (updThm_kept hk)

theorem throttle_kept {kb : Bool} {s0 s : State} (hk : Kept kb s0 s) : Kept kb s0 (throttle s) := stopCheck_kept (warnCheck_kept
    (Kept.ite (record_kept (Kept.ite (writeThr_kept (updThm_kept hk)) (updThm_kept hk))) (Kept.ite (writeThr_kept (updThm_kept hk))
    (updThm_kept hk))))

theorem execThrottleEvaluation_kept {kb : Bool} {s0 s : State} (hk : Kept kb s0 s) : Answers kb s0 (execThrottleEvaluation s) :=
    Answers.ite (Answers.next hk) (Answers.next (throttle_kept hk))

theorem execCfgThmWarn_kept {kb : Bool} {s0 : State} {r : Req} {s : State} (hk : Kept kb s0 s) : Answers kb s0 (execCfgThmWarn r s) :=
    Answers.next (runJob_kept hk (guardSt_kept (ok_kept (updThm_kept hk))))

theorem execCfgThmStatusClr_kept {kb : Bool} {s0 : State} {r : Req} {s : State} (hk : Kept kb s0 s) : Answers kb s0 (execCfgThmStatusClr
    r s) := Answers.next (runJob_kept hk (guardSt_kept (guardSt_kept (ok_kept (updThm_kept hk)))))

theorem updSite_kept {kb : Bool} {s0 s : State} {k : Nat} {f : AgeSite → AgeSite} (hk : Kept kb s0 s) : Kept kb s0 (updSite s k f) :=
    Kept.of_mk hk rfl rfl rfl rfl rfl rfl rfl rfl

theorem preErrorSlow_kept {kb : Bool} {s0 s : State} (hk : Kept kb s0 s) : Kept kb s0 (preErrorSlow s) := Kept.ite (Kept.of_mk hk rfl
    rfl rfl rfl rfl rfl rfl rfl) hk

theorem execCanaryMeasurement_kept {kb : Bool} {s0 : State} {site : Fin 10} {taps : Nat} {s : State} (hk : Kept kb s0 s) : Answers kb s0
    (execCanaryMeasurement site taps s) := Answers.ite (Answers.next hk) (Answers.ite (Answers.next (record_kept (Kept.ite
    (preErrorSlow_kept (updSite_kept (updSite_kept hk))) (updSite_kept (updSite_kept hk))))) (Answers.next (updSite_kept hk)))

theorem replan_kept {kb : Bool} {s0 s : State} (hk : Kept kb s0 s) : Kept kb s0 (replan s) := Kept.ite (record_kept (Kept.of_mk hk rfl
    rfl rfl rfl rfl rfl rfl rfl)) (Kept.of_mk hk rfl rfl rfl rfl rfl rfl rfl rfl)

theorem execDailyReplan_kept {kb : Bool} {s0 s : State} (hk : Kept kb s0 s) : Answers kb s0 (execDailyReplan s) := Answers.ite
    (Answers.next (replan_kept (Kept.of_mk hk rfl rfl rfl rfl rfl rfl rfl rfl))) (Answers.next hk)

theorem execOperatingHoursSave_kept {kb : Bool} {s0 s : State} (hk : Kept kb s0 s) : Answers kb s0 (execOperatingHoursSave s) :=
    Answers.ite (Answers.next (Kept.of_mk hk rfl rfl rfl rfl rfl rfl rfl rfl)) (Answers.next hk)

theorem execDiaAgeingQuery_kept {kb : Bool} {s0 : State} {r : Req} {s : State} (hk : Kept kb s0 s) : Answers kb s0 (execDiaAgeingQuery r
    s) := Answers.next (runJob_kept hk (guardSt_kept (Done.Kept.done hk)))

theorem execDiaAgeingReplan_kept {kb : Bool} {s0 : State} {r : Req} {s : State} (hk : Kept kb s0 s) : Answers kb s0 (execDiaAgeingReplan
    r s) := Answers.next (runJob_kept hk (guardSt_kept (guardSt_kept (ok_kept (replan_kept hk)))))

theorem execDiaAgeingHistory_kept {kb : Bool} {s0 : State} {r : Req} {s : State} (hk : Kept kb s0 s) : Answers kb s0
    (execDiaAgeingHistory r s) := Answers.next (runJob_kept hk (guardSt_kept (Done.Kept.done hk)))

theorem execDiaAgeingStatusClr_kept {kb : Bool} {s0 : State} {r : Req} {s : State} (hk : Kept kb s0 s) : Answers kb s0
    (execDiaAgeingStatusClr r s) := Answers.next (runJob_kept hk (guardSt_kept (ok_kept (Kept.foldl hk fun _ _ hu => Kept.ite
    (updSite_kept hu) hu))))

theorem startFail_kept {s0 s : State} {code : W16} {stage : Nat} (hk : Kept false s0 s) : Kept false s0 (startFail s code stage) :=
    coldReset_kept (Kept.of_mk hk rfl rfl rfl rfl rfl rfl rfl rfl)

theorem internalReset_kept {s0 s : State} {cause : Nat} (hk : Kept false s0 s) : Kept false s0 (internalReset s cause) := coldReset_kept
    (Kept.of_mk hk rfl rfl rfl rfl rfl rfl rfl rfl)

theorem setRail_kept {kb : Bool} {s0 s : State} {rail : Nat} {outside : Bool} (hk : Kept kb s0 s) : Kept kb s0 (setRail s rail outside)
    := Kept.of_mk hk rfl rfl rfl rfl rfl rfl rfl rfl

theorem recSup_kept {kb : Bool} {s0 s : State} {code : W16} (hk : Kept kb s0 s) : Kept kb s0 (recSup s code) := record_kept hk

theorem railReaction_kept {s0 s : State} {rail : Nat} (hk : Kept false s0 s) : Kept false s0 (railReaction s rail) := by
  unfold railReaction
  split
  · exact recSup_kept hk
  · exact internalReset_kept hk
  · exact recSup_kept hk
  · exact recSup_kept hk
  · exact Kept.ite (arrive_kept (Kept.of_mk (recSup_kept hk) rfl rfl rfl rfl rfl rfl rfl rfl)) (recSup_kept hk)
  · exact recSup_kept hk

theorem execRailOutOfWindow_kept {s0 : State} {rail : Fin 7} {outside : Bool} {s : State} (hk : Kept false s0 s) : Answers false s0
    (execRailOutOfWindow rail outside s) := Answers.ite (Answers.next (setRail_kept hk)) (Answers.ite (Answers.next (coldReset_kept
    (Kept.of_mk (setRail_kept hk) rfl rfl rfl rfl rfl rfl rfl rfl))) (Answers.ite (Answers.next (railReaction_kept (blkStep_kept hk
    (setRail_kept hk)))) (Answers.ite (Answers.next (startFail_kept (setRail_kept hk))) (Answers.next (setRail_kept hk)))))

theorem execDroopDetect_kept {kb : Bool} {s0 : State} {level : Nat} {s : State} (hk : Kept kb s0 s) : Answers kb s0 (execDroopDetect
    level s) := Answers.ite (Answers.next hk) (Answers.ite (Answers.next (Kept.of_mk hk rfl rfl rfl rfl rfl rfl rfl rfl)) (Answers.next
    (Kept.of_mk hk rfl rfl rfl rfl rfl rfl rfl rfl)))

theorem execDroopEnd_kept {kb : Bool} {s0 s : State} (hk : Kept kb s0 s) : Answers kb s0 (execDroopEnd s) := by
  unfold execDroopEnd
  split
  · exact Answers.next (Kept.of_mk hk rfl rfl rfl rfl rfl rfl rfl rfl)
  · exact Answers.next hk

theorem execDroopBudgetExhausted_kept {s0 s : State} (hk : Kept false s0 s) : Answers false s0 (execDroopBudgetExhausted s) :=
    Answers.ite (Answers.next (internalReset_kept hk)) (Answers.next hk)

theorem execPllLockLoss_kept {s0 s : State} (hk : Kept false s0 s) : Answers false s0 (execPllLockLoss s) := Answers.ite (Answers.next
    (internalReset_kept hk)) (Answers.next hk)

theorem execReferenceCountWindow_kept {kb : Bool} {s0 : State} {edges : Nat} {s : State} (hk : Kept kb s0 s) : Answers kb s0
    (execReferenceCountWindow edges s) := Answers.ite (Answers.next hk) (Answers.next (Kept.ite (recSup_kept (Kept.of_mk hk rfl rfl rfl
    rfl rfl rfl rfl rfl)) (Kept.of_mk hk rfl rfl rfl rfl rfl rfl rfl rfl)))

end Sys2Proof.Machine
end

