-- ==== Sys2Proof/Laws/KeptStart.lean ====
section
/-! SUPPORT. One lemma per operation: what the start, the lockstep pair, Thicket's errors and self-test keep. -/

namespace Sys2Proof.Machine

theorem bcrUpdate_kept {kb : Bool} {s0 s : State} {f : BootRec → BootRec} (hk : Kept kb s0 s) : Kept kb s0 (bcrUpdate s f) := Kept.of_mk
    hk rfl rfl rfl rfl rfl rfl rfl rfl

theorem recSec_kept {kb : Bool} {s0 s : State} {code : W16} (hk : Kept kb s0 s) : Kept kb s0 (recSec s code) := record_kept hk

/-- Bank selection writes the boot record and a record of the fault log. -/
theorem selectBank_kept {kb : Bool} {s0 s : State} (hk : Kept kb s0 s) : Kept kb s0 (selectBank s).1 := by
  simp only [selectBank]
  split
  · exact hk
  · split
    · dsimp only; exact recSec_kept (bcrUpdate_kept hk)
    · dsimp only; exact bcrUpdate_kept hk

theorem loadFuses_kept {kb : Bool} {s0 s : State} (hk : Kept kb s0 s) : Kept kb s0 (loadFuses s) := Kept.of_mk (Kept.of_mk hk rfl rfl
    rfl rfl rfl rfl rfl rfl) rfl rfl rfl rfl rfl rfl rfl rfl

theorem updSup_kept {kb : Bool} {s0 s : State} {f : Supply → Supply} (hk : Kept kb s0 s) : Kept kb s0 (updSup s f) := Kept.of_mk hk rfl
    rfl rfl rfl rfl rfl rfl rfl

theorem execResetRelease_kept {kb : Bool} {s0 s : State} (hk : Kept kb s0 s) : Answers kb s0 (execResetRelease s) := Answers.ite
    (Answers.next (updSup_kept (freeTaken_kept hk))) (Answers.next hk)

theorem execNodeIdDelayExpiry_kept {kb : Bool} {s0 s : State} (hk : Kept kb s0 s) : Answers kb s0 (execNodeIdDelayExpiry s) :=
    Answers.ite (Answers.next (updSup_kept hk)) (Answers.next hk)

theorem execStartSequencerStep_kept {s0 : State} {railsOk : Bool} {s : State} (hk : Kept false s0 s) : Answers false s0
    (execStartSequencerStep railsOk s) := Answers.ite (Answers.next hk) (Answers.ite (Answers.next (startFail_kept hk)) (Answers.next
    (updSup_kept hk)))

theorem execPllLockDeadline_kept {s0 : State} {locked : Bool} {s : State} (hk : Kept false s0 s) : Answers false s0 (execPllLockDeadline
    locked s) := Answers.ite (Answers.next hk) (Answers.ite (Answers.next (startFail_kept hk)) (Answers.next (enter_kept (Kept.of_mk
    (updSup_kept hk) rfl rfl rfl rfl rfl rfl rfl rfl))))

theorem recordRstc_kept {kb : Bool} {s0 s : State} (hk : Kept kb s0 s) : Kept kb s0 (recordRstc s) := Kept.ite hk (Kept.of_mk
    (record_kept (Kept.of_mk hk rfl rfl rfl rfl rfl rfl rfl rfl)) rfl rfl rfl rfl rfl rfl rfl rfl)

theorem entryRecords_kept {kb : Bool} {s0 s : State} (hk : Kept kb s0 s) : Kept kb s0 (entryRecords s) := Kept.ite (recBlk_kept
    (updSaf_kept (recordRstc_kept hk))) (recordRstc_kept hk)

theorem enterCoppice_kept {s0 s : State} (hk : Kept false s0 s) : Kept false s0 (enterCoppice s) := entryRecords_kept (updSaf_kept
    (enter_kept hk))

theorem failCells_kept {kb : Bool} {s0 s : State} {bad : List (Nat × Nat)} (hk : Kept kb s0 s) : Kept kb s0 (failCells s bad) :=
    Kept.foldl (Kept.foldl hk fun _ _ hu => updBlock_kept hu (fun _ hx => hx)) fun _ _ hu => Kept.ite (updBlock_kept hu (fun _ hx =>
    hx)) hu

theorem runBank_kept {s0 s : State} {bank : Nat} {trial fallback : Bool} {f : BootFinds} (hk : Kept false s0 s) : Kept false s0 (runBank
    s bank trial fallback f) := Kept.ite (startFail_kept (Kept.of_mk hk rfl rfl rfl rfl rfl rfl rfl rfl)) (Kept.of_mk (failCells_kept
    hk) rfl rfl rfl rfl rfl rfl rfl rfl)

theorem execBootRomStart_kept {s0 : State} {f : BootFinds} {s : State} (hk : Kept false s0 s) : Answers false s0 (execBootRomStart f s) := by
  have k := selectBank_kept (loadFuses_kept hk)
  unfold execBootRomStart
  refine Answers.ite (Answers.next hk) (Answers.ite (Answers.next (enterCoppice_kept (loadFuses_kept hk))) (Answers.ite (Answers.next hk) ?_))
  dsimp only
  generalize selectBank (loadFuses s) = p at k
  exact Answers.ite (Answers.next (runBank_kept k)) (Answers.ite (Answers.next (runBank_kept (recSec_kept k)))
    (Answers.next (startFail_kept (recSec_kept k))))

theorem confirmBank_kept {kb : Bool} {s0 s : State} (hk : Kept kb s0 s) : Kept kb s0 (confirmBank s) := by
  unfold confirmBank
  split
  · exact Kept.ite (bcrUpdate_kept hk) (Kept.ite (bcrUpdate_kept hk) hk)
  · exact hk

theorem execStandbyEntry_kept {s0 s : State} (hk : Kept false s0 s) : Answers false s0 (execStandbyEntry s) := Answers.ite (Answers.next
    hk) (Answers.next (entryRecords_kept (enter_kept (confirmBank_kept (Kept.of_mk hk rfl rfl rfl rfl rfl rfl rfl rfl)))))

theorem execStartTimeout_kept {s0 s : State} (hk : Kept false s0 s) : Answers false s0 (execStartTimeout s) := Answers.ite (Answers.next
    (startFail_kept hk)) (Answers.next hk)

theorem pinReset_kept {s0 s : State} (hk : Kept false s0 s) : Kept false s0 (pinReset s) := updSup_kept (coldReset_kept hk)

theorem execResetInput_kept {s0 : State} {lowNs : Nat} {s : State} (hk : Kept false s0 s) : Answers false s0 (execResetInput lowNs s) :=
    Answers.ite (Answers.next hk) (Answers.ite (Answers.next (pinReset_kept hk)) (Answers.ite (Answers.next (pinReset_kept
    (freeTaken_kept hk))) (Answers.next (freeTaken_kept hk))))

theorem execSupplyLoss_kept {s0 : State} {aonToo : Bool} {s : State} (hk : Kept false s0 s) : Answers false s0 (execSupplyLoss aonToo s)
    := Answers.next (pinReset_kept (Kept.ite (Kept.of_mk hk rfl rfl rfl rfl rfl rfl rfl rfl) hk))

theorem updIcp_kept {kb : Bool} {s0 s : State} {f : Pair → Pair} (hk : Kept kb s0 s) : Kept kb s0 (updIcp s f) := Kept.of_mk hk rfl rfl
    rfl rfl rfl rfl rfl rfl

theorem recIcp_kept {kb : Bool} {s0 s : State} {code : W16} (hk : Kept kb s0 s) : Kept kb s0 (recIcp s code) := record_kept hk

theorem degrade_kept {s0 s : State} (hk : Kept false s0 s) : Kept false s0 (degrade s) := Kept.of_mk (enterRaw_kept hk) rfl rfl rfl rfl
    rfl rfl rfl rfl

theorem mismatch_kept {s0 s : State} {kind : Nat} {group : Byte} {offset : W32} (hk : Kept false s0 s) : Kept false s0 (mismatch s kind
    group offset) := Kept.ite (degrade_kept (Kept.of_mk hk rfl rfl rfl rfl rfl rfl rfl rfl)) (Kept.ite (Kept.of_mk (Kept.of_mk hk rfl
    rfl rfl rfl rfl rfl rfl rfl) rfl rfl rfl rfl rfl rfl rfl rfl) (blkStep_kept (Kept.of_mk hk rfl rfl rfl rfl rfl rfl rfl rfl)
    (updIcp_kept (Kept.of_mk hk rfl rfl rfl rfl rfl rfl rfl rfl))))

theorem sigDiff_kept {s0 s : State} {offset : W32} (hk : Kept false s0 s) : Kept false s0 (sigDiff s offset) := mismatch_kept
    (recIcp_kept (updIcp_kept hk))

theorem execLockstepMismatch_kept {s0 : State} {kind : Fin 6} {group : Byte} {offset : W32} {s : State} (hk : Kept false s0 s) : Answers
    false s0 (execLockstepMismatch kind group offset s) := Answers.ite (Answers.next hk) (Answers.ite (Answers.next (sigDiff_kept hk))
    (Answers.next (mismatch_kept hk)))

theorem halt_kept {kb : Bool} {s0 s : State} (hk : Kept kb s0 s) : Kept kb s0 (halt s) := Kept.foldl (updIcp_kept (noteUnits_kept hk))
    fun _ _ hu => Kept.ite hu (recUnit_kept (updUnit_kept hu))

theorem preemptAll_kept {kb : Bool} {s0 s : State} (hk : Kept kb s0 s) : Kept kb s0 (preemptAll s) := Kept.foldl hk fun _ _ hu =>
    completeRaw_kept hu

theorem execCheckpointRestart_kept {kb : Bool} {s0 s : State} (hk : Kept kb s0 s) : Answers kb s0 (execCheckpointRestart s) :=
    Answers.ite (Answers.next hk) (Answers.next (Kept.ite (halt_kept (Kept.of_mk (recIcp_kept (preemptAll_kept (updIcp_kept (Kept.of_mk
    hk rfl rfl rfl rfl rfl rfl rfl rfl)))) rfl rfl rfl rfl rfl rfl rfl rfl)) (Kept.of_mk (recIcp_kept (preemptAll_kept (updIcp_kept
    (Kept.of_mk hk rfl rfl rfl rfl rfl rfl rfl rfl)))) rfl rfl rfl rfl rfl rfl rfl rfl)))

theorem execCheckpointSeal_kept {kb : Bool} {s0 s : State} (hk : Kept kb s0 s) : Answers kb s0 (execCheckpointSeal s) := Answers.ite
    (Answers.next (sealCp_kept hk)) (Answers.next hk)

theorem execCore1PartitionViolation_kept {kb : Bool} {s0 : State} {a : W32} {s : State} (hk : Kept kb s0 s) : Answers kb s0
    (execCore1PartitionViolation a s) := Answers.ite (Answers.next (recIcp_kept (updIcp_kept hk))) (Answers.next hk)

theorem execCtlSplit_kept {kb : Bool} {s0 : State} {r : Req} {s : State} (hk : Kept kb s0 s) : Answers kb s0 (execCtlSplit r s) :=
    Answers.next (runJob_kept hk (guardSt_kept (guardSt_kept (ok_kept (updIcp_kept (sealCp_kept hk))))))

theorem execCtlJoin_kept {s0 : State} {r : Req} {injOk : Bool} {s : State} (hk : Kept false s0 s) : Answers false s0 (execCtlJoin r
    injOk s) := Answers.ite (Answers.next (degrade_kept hk)) (Answers.next (runJob_kept hk (guardSt_kept (Done.Kept.ite (ok_kept
    (updIcp_kept (sealCp_kept hk))) (ok_kept hk)))))

theorem execJoinStopTimeout_kept {kb : Bool} {s0 s : State} (hk : Kept kb s0 s) : Answers kb s0 (execJoinStopTimeout s) := Answers.ite
    (Answers.next (updIcp_kept hk)) (Answers.next hk)

theorem execDebugHalt_kept {kb : Bool} {s0 s : State} (hk : Kept kb s0 s) : Answers kb s0 (execDebugHalt s) := Answers.ite (Answers.next
    hk) (Answers.ite (Answers.next (updIcp_kept hk)) (Answers.next (halt_kept hk)))

theorem execDebugResume_kept {kb : Bool} {s0 s : State} (hk : Kept kb s0 s) : Answers kb s0 (execDebugResume s) := Answers.ite
    (Answers.next (recIcp_kept (Kept.of_mk (sealCp_kept (updIcp_kept hk)) rfl rfl rfl rfl rfl rfl rfl rfl))) (Answers.next hk)

theorem execDebugRequest_kept {kb : Bool} {s0 : State} {rights : BitVec 2} {slot : Fin 4} {challenge sig : List Byte} {s : State} (hk :
    Kept kb s0 s) : Answers kb s0 (execDebugRequest rights slot challenge sig s) := Answers.ite (Answers.next hk) (Answers.ite
    (Answers.next (record_kept (updIcp_kept (updIcp_kept hk)))) (Answers.next (record_kept (updIcp_kept hk))))

/-- Scan leaves empty memories (R524). -/
theorem clearMemories_kept {kb : Bool} {s0 s : State} (hk : Kept kb s0 s) : Kept kb s0 (clearMemories s) :=
  hk.mems rfl rfl rfl (fun _ => nil_wf) (fun _ => replicate_nil_wf) (fun _ => replicate_nil_wf) id fun _ k h => by
    rw [show (clearMemories s).thk.blocks = s.thk.blocks.map (fun b => { b with op := [], coef := [] }) from rfl, Vector.at_map _ _ h]
    exact ⟨nil_wf, nil_wf⟩

theorem execScanEntry_kept {kb : Bool} {s0 s : State} (hk : Kept kb s0 s) : Answers kb s0 (execScanEntry s) := Answers.ite (Answers.next
    (Kept.of_mk (Kept.ite hk (clearMemories_kept hk)) rfl rfl rfl rfl rfl rfl rfl rfl)) (Answers.next hk)

theorem recCtx_kept {kb : Bool} {s0 s : State} {c : Nat} {code : W16} (hk : Kept kb s0 s) : Kept kb s0 (recCtx s c code) := record_kept
    hk

theorem suppress_kept {kb : Bool} {s0 s : State} {c : Nat} (hk : Kept kb s0 s) : Kept kb s0 (suppress s c) := updCtx_kept hk

theorem loseCtx_kept {kb : Bool} {s0 s : State} {c : Nat} (hk : Kept kb s0 s) : Kept kb s0 (loseCtx s c) := Kept.ite hk (Kept.ite
    (escalate_kept (recCtx_kept (updCtx_kept (dropAct_kept hk)))) (recCtx_kept (updCtx_kept (dropAct_kept hk))))

theorem endCellSlice_kept {kb : Bool} {s0 s : State} {b : Nat} (hk : Kept kb s0 s) : Kept kb s0 (endCellSlice s b) := Kept.of_mk hk rfl
    rfl rfl rfl rfl rfl rfl rfl

theorem retire_kept {kb : Bool} {s0 s : State} {b c : Nat} (hk : Kept kb s0 s) : Kept kb s0 (retire s b c) := updBlock_kept hk (fun _ hx
    => hx)

theorem substitute_kept {kb : Bool} {s0 s : State} {b c k : Nat} (hk : Kept kb s0 s) : Kept kb s0 (substitute s b c k) := updBlock_kept
    hk (fun _ hx => hx)

theorem endOn_kept {kb : Bool} {s0 s : State} {b k : Nat} (hk : Kept kb s0 s) : Kept kb s0 (endOn s b k) := Kept.foldl hk fun _ _ hu =>
    dropAct_kept (updCtx_kept hu)

theorem loseCell_kept {kb : Bool} {s0 s : State} {b c : Nat} (hk : Kept kb s0 s) : Kept kb s0 (loseCell s b c) := Kept.foldl
    (retire_kept hk) fun _ _ hu => loseCtx_kept hu

theorem recCell_kept {kb : Bool} {s0 s : State} {b c : Nat} (hk : Kept kb s0 s) : Kept kb s0 (recCell s b c) := record_kept hk

theorem execCellParityError_kept {kb : Bool} {s0 : State} {b cell : Fin 16} {second : Option (Fin 16)} {s : State} (hk : Kept kb s0 s) :
    Answers kb s0 (execCellParityError b cell second s) := by
  unfold execCellParityError
  dsimp only
  split
  · exact Answers.next hk
  · split
    · exact Answers.next (endCellSlice_kept (retire_kept (recCell_kept hk)))
    · exact Answers.ite (Answers.next (loseCell_kept (recCell_kept hk))) (Answers.next (substitute_kept (endOn_kept (endCellSlice_kept
        (recCell_kept hk)))))
  · exact Answers.next (Kept.foldl (Kept.foldl (endCellSlice_kept hk) fun _ _ hu => recCell_kept hu) fun _ _ hu => loseCell_kept hu)

theorem corrected_kept {kb : Bool} {s0 s : State} {b : Nat} (hk : Kept kb s0 s) : Kept kb s0 (corrected s b) := updBlock_kept hk (fun _
    hx => hx)

theorem execCoefEccError_kept {kb : Bool} {s0 : State} {b : Fin 16} {a : Fin 8192} {double : Bool} {readers : List (Fin 160)} {s : State}
    (hk : Kept kb s0 s) : Answers kb s0 (execCoefEccError b a double readers s) :=
  have k : Kept kb s0 (record ((readers.map Fin.val).foldl suppress s) 0x5002 b.val 0) :=
    record_kept (Kept.foldl hk fun _ _ hu => suppress_kept hu)
  Answers.ite (Answers.next (corrected_kept hk)) (Answers.ite (Answers.next (Kept.foldl k fun _ _ hu => loseCtx_kept hu))
    (Answers.next (updBlock_kept k fun _ hx => ⟨hx.1, memSet_wf hx.2⟩)))

theorem execOpmemEccError_kept {kb : Bool} {s0 : State} {b : Fin 16} {a : Fin 4096} {double : Bool} {readers : List (Fin 160)} {s : State}
    (hk : Kept kb s0 s) : Answers kb s0 (execOpmemEccError b a double readers s) :=
  have k : Kept kb s0 (record ((readers.map Fin.val).foldl suppress s) 0x5003 b.val 0) :=
    record_kept (Kept.foldl hk fun _ _ hu => suppress_kept hu)
  Answers.ite (Answers.next (corrected_kept hk)) (Answers.ite (Answers.next (Kept.foldl k fun _ _ hu => loseCtx_kept hu))
    (Answers.next (updBlock_kept k fun _ hx => ⟨memSet_wf hx.1, hx.2⟩)))

theorem afterRmemError_kept {kb : Bool} {s0 s : State} {g a : Nat} (hk : Kept kb s0 s) : Kept kb s0 (afterRmemError s g a) := Kept.ite
    (putBank_kept (freeTaken_kept hk)) (putState_kept hk)

theorem rmemReader_kept {kb : Bool} {s0 s : State} {c : Nat} (hk : Kept kb s0 s) : Kept kb s0 (rmemReader s c) := updCtx_kept
    (suppress_kept hk)

theorem rmemDouble_kept {kb : Bool} {s0 s : State} {g a : Nat} {readers : List Nat} (hk : Kept kb s0 s) : Kept kb s0 (rmemDouble s g a
    readers) := Kept.ite (escalate_kept (afterRmemError_kept (record_kept (Kept.foldl hk fun _ _ hu => rmemReader_kept hu))))
    (afterRmemError_kept (record_kept (Kept.foldl hk fun _ _ hu => rmemReader_kept hu)))

theorem execRegionMemoryEccError_kept {kb : Bool} {s0 : State} {g : Fin 4} {a : Fin 32768} {double : Bool} {readers : List (Fin 160)} {s
    : State} (hk : Kept kb s0 s) : Answers kb s0 (execRegionMemoryEccError g a double readers s) := Answers.ite (Answers.next
    (rmemDouble_kept hk)) (Answers.next hk)

theorem execWatchdogDeadline_kept {kb : Bool} {s0 : State} {c : Fin 160} {s : State} (hk : Kept kb s0 s) : Answers kb s0
    (execWatchdogDeadline c s) := Answers.ite (Answers.next hk) (Answers.next (Kept.ite (loseCtx_kept (recCtx_kept (dropAct_kept
    (updCtx_kept (updCtx_kept hk))))) (recCtx_kept (dropAct_kept (updCtx_kept (updCtx_kept hk))))))

theorem execPreemption_kept {kb : Bool} {s0 : State} {by_ : Fin 160} {at_ : CellSel} {s : State} (hk : Kept kb s0 s) : Answers kb s0
    (execPreemption by_ at_ s) := Answers.ite (Answers.next (Kept.of_mk hk rfl rfl rfl rfl rfl rfl rfl rfl)) (Answers.next hk)

theorem updPrn_kept {kb : Bool} {s0 s : State} {f : Pruner → Pruner} (hk : Kept kb s0 s) : Kept kb s0 (updPrn s f) := Kept.of_mk hk rfl
    rfl rfl rfl rfl rfl rfl rfl

theorem recPrn_kept {kb : Bool} {s0 s : State} {u : Nat} {code : W16} (hk : Kept kb s0 s) : Kept kb s0 (recPrn s u code) := record_kept
    hk

theorem execPrunerSliceStart_kept {kb : Bool} {s0 : State} {kind : Fin 7} {unit : Fin 20} {s : State} (hk : Kept kb s0 s) : Answers kb
    s0 (execPrunerSliceStart kind unit s) := Answers.ite (Answers.next (Kept.ite (updGroup_kept (updPrn_kept hk)) (updPrn_kept hk)))
    (Answers.next hk)

theorem countAbort_kept {kb : Bool} {s0 s : State} {k u : Nat} (hk : Kept kb s0 s) : Kept kb s0 (countAbort s k u) := Kept.ite
    (recPrn_kept (updPrn_kept hk)) (updPrn_kept hk)

theorem execPrunerSliceAbort_kept {kb : Bool} {s0 : State} {kind : Fin 7} {unit : Fin 20} {s : State} (hk : Kept kb s0 s) : Answers kb
    s0 (execPrunerSliceAbort kind unit s) := Answers.ite (Answers.next (Kept.ite (updGroup_kept (countAbort_kept hk)) (countAbort_kept
    hk))) (Answers.next hk)

theorem countRun_kept {kb : Bool} {s0 s : State} {k u : Nat} (hk : Kept kb s0 s) : Kept kb s0 (countRun s k u) := updPrn_kept hk

theorem monitorStop_kept {kb : Bool} {s0 s : State} (hk : Kept kb s0 s) : Kept kb s0 (monitorStop s) := Kept.ite (askRamp_kept hk) hk

theorem failReaction_kept {s0 s : State} {k u : Nat} (hk : Kept false s0 s) : Kept false s0 (failReaction s k u) := by
  unfold failReaction
  split
  · exact Kept.ite hk (retire_kept hk)
  · exact hk
  · exact Kept.ite (escalate_kept hk) (Kept.ite (escalate_kept (freeTaken_kept hk)) (freeTaken_kept hk))
  · exact sigDiff_kept (freeTaken_kept hk)
  · exact Kept.ite (monitorStop_kept (Kept.foldl hk fun _ _ hu => loseCtx_kept hu)) (Kept.foldl hk fun _ _ hu => loseCtx_kept hu)
  · exact Kept.foldl hk fun _ _ hu => loseCtx_kept hu
  · exact escalate_kept (recPrn_kept (Kept.of_mk hk rfl rfl rfl rfl rfl rfl rfl rfl))

theorem countFail_kept {kb : Bool} {s0 s : State} {k u : Nat} (hk : Kept kb s0 s) : Kept kb s0 (countFail s k u) := recPrn_kept
    (updPrn_kept hk)

theorem nameNext_kept {kb : Bool} {s0 s : State} {b : Nat} (hk : Kept kb s0 s) : Kept kb s0 (nameNext s b) :=
  updBlock_kept hk fun x hx => by split <;> exact hx

theorem runDone_kept {s0 s : State} {k u : Nat} {pass : Bool} (hk : Kept false s0 s) : Kept false s0 (runDone s k u pass) := Kept.ite
    (Kept.ite (nameNext_kept (Kept.ite (updGroup_kept (countRun_kept hk)) (countRun_kept hk))) (Kept.ite (updGroup_kept (countRun_kept
    hk)) (countRun_kept hk))) (failReaction_kept (countFail_kept (Kept.ite (updGroup_kept (countRun_kept hk)) (countRun_kept hk))))

theorem execPrunerSliceComplete_kept {s0 : State} {kind : Fin 7} {unit : Fin 20} {pass : Bool} {s : State} (hk : Kept false s0 s) :
    Answers false s0 (execPrunerSliceComplete kind unit pass s) := Answers.ite (Answers.next (runDone_kept hk)) (Answers.next hk)

theorem execPrnOverdue_kept {kb : Bool} {s0 : State} {kind : Fin 7} {unit : Fin 20} {s : State} (hk : Kept kb s0 s) : Answers kb s0
    (execPrnOverdue kind unit s) := Answers.ite (Answers.next (recPrn_kept (updPrn_kept hk))) (Answers.next hk)

theorem execCellSwitch_kept {kb : Bool} {s0 : State} {b : Fin 16} {k : Fin 15} {s : State} (hk : Kept kb s0 s) : Answers kb s0
    (execCellSwitch b k s) := Answers.ite (Answers.next (updBlock_kept hk (fun _ hx => hx))) (Answers.next hk)

theorem execCellSwitchAbandon_kept {kb : Bool} {s0 : State} {b : Fin 16} {k : Fin 15} {s : State} (hk : Kept kb s0 s) : Answers kb s0
    (execCellSwitchAbandon b k s) := Answers.ite (Answers.next (countAbort_kept hk)) (Answers.next hk)

theorem execDiaSelftestQuery_kept {kb : Bool} {s0 : State} {r : Req} {s : State} (hk : Kept kb s0 s) : Answers kb s0
    (execDiaSelftestQuery r s) := Answers.next (runJob_kept hk (guardSt_kept (Done.Kept.done hk)))

theorem execDiaSelftestRun_kept {s0 : State} {r : Req} {outcome : Fin 3} {chPass : BitVec 16} {cmpPass : Byte} {s : State} (hk : Kept
    false s0 s) : Answers false s0 (execDiaSelftestRun r outcome chPass cmpPass s) := by
  unfold execDiaSelftestRun
  refine Answers.ite (Answers.next (runJob_kept hk (guardSt_kept (guardSt_kept (Done.Kept.ite (Done.Kept.done hk) (Done.Kept.done
    (recBlk_kept hk))))))) ?_
  refine Answers.next ?_
  refine runJob_kept hk ?_
  refine guardSt_kept ?_
  refine guardSt_kept ?_
  split
  · exact Done.Kept.done (Kept.foldl hk fun _ _ hu => runDone_kept hu)
  · exact Done.Kept.done (Kept.foldl hk fun _ _ hu => runDone_kept hu)
  · exact Done.Kept.done (Kept.foldl hk fun _ _ hu => countAbort_kept hu)

theorem execDiaSelftestStatusClr_kept {kb : Bool} {s0 : State} {r : Req} {s : State} (hk : Kept kb s0 s) : Answers kb s0
    (execDiaSelftestStatusClr r s) := Answers.next (runJob_kept hk (guardSt_kept (guardSt_kept (ok_kept (updPrn_kept hk)))))

end Sys2Proof.Machine
end

