-- ==== Sys2Proof/Laws/KeptPort.lean ====
section
/-! SUPPORT. One lemma per operation: what the host port, the configuration and the maintenance commands keep. -/

namespace Sys2Proof.Machine

theorem doorbell_kept {kb : Bool} {s0 s : State} {n : Nat} {w : W32} (hk : Kept kb s0 s) : Kept kb s0 (doorbell s n w) := Kept.ite
    (Kept.of_mk hk rfl rfl rfl (by simp) rfl rfl rfl rfl) (Kept.of_mk hk rfl rfl rfl (by simp) rfl rfl rfl rfl)

theorem refuseDirect_kept {kb : Bool} {s0 s : State} {st : W16} (hk : Kept kb s0 s) : Kept kb s0 (refuseDirect s st) := Kept.of_mk hk
    rfl rfl rfl (by simp) rfl rfl rfl rfl

theorem portReset_kept {kb : Bool} {s0 s : State} (hk : Kept kb s0 s) : Kept kb s0 (portReset s) := Kept.of_mk hk rfl rfl rfl rfl rfl
    rfl rfl rfl

theorem writeHpCtrl_kept {kb : Bool} {s0 s : State} {w : W32} (hk : Kept kb s0 s) : Kept kb s0 (writeHpCtrl s w) := Kept.ite
    (refuseDirect_kept hk) (Kept.ite (refuseDirect_kept hk) (Kept.ite (portReset_kept (Kept.of_mk hk rfl rfl rfl rfl rfl rfl rfl rfl))
    (Kept.of_mk hk rfl rfl rfl rfl rfl rfl rfl rfl)))

theorem writeReg_kept {kb : Bool} {s0 s : State} {a : Nat} {w : W32} (hk : Kept kb s0 s) : Kept kb s0 (writeReg s a w) := Kept.ite hk
    (Kept.ite (writeHpCtrl_kept hk) (Kept.ite (Kept.of_mk hk rfl rfl rfl rfl rfl rfl rfl rfl) (Kept.ite (Kept.of_mk hk rfl rfl rfl rfl
    rfl rfl rfl rfl) (Kept.ite (Kept.of_mk hk rfl rfl rfl rfl rfl rfl rfl rfl) (Kept.ite (Kept.of_mk hk rfl rfl rfl rfl rfl rfl rfl rfl)
    (Kept.ite (Kept.of_mk hk rfl rfl rfl rfl rfl rfl rfl rfl) (Kept.ite (doorbell_kept hk) (Kept.of_mk hk rfl rfl rfl (by simp) rfl rfl
    rfl rfl))))))))

/-- A word written through the port: four bytes of queue SRAM, or a register. -/
theorem writeWord_kept {kb : Bool} {s0 s : State} {a : Nat} {w : W32} (hk : Kept kb s0 s) : Kept kb s0 (writeWord s a w) :=
  Kept.ite (Kept.ite (hk.io rfl rfl rfl rfl rfl rfl rfl fun m => memWrite_wf _ m) (Kept.of_mk hk rfl rfl rfl (by simp) rfl rfl rfl rfl))
    (writeReg_kept hk)

theorem writeWords_kept {kb : Bool} {s0 s : State} {a : Nat} {l : List W32} (hk : Kept kb s0 s) : Kept kb s0 (writeWords s a l) := by
  induction l generalizing s a with
  | nil => exact hk
  | cons w l ih => exact ih (writeWord_kept hk)

theorem latchSec_kept {kb : Bool} {s0 s : State} (hk : Kept kb s0 s) : Kept kb s0 (latchSec s) := Kept.of_mk hk rfl rfl rfl rfl rfl rfl
    rfl rfl

theorem hostAlive_kept {kb : Bool} {s0 s : State} (hk : Kept kb s0 s) : Kept kb s0 (hostAlive s) := Kept.of_mk hk rfl rfl rfl rfl rfl
    rfl rfl rfl

theorem execHostWriteFrame_kept {kb : Bool} {s0 : State} {instr : Byte} {addr : BitVec 24} {words : List W32} {crc : Option W16} {clocks
    : Nat} {s : State} (hk : Kept kb s0 s) : Answers kb s0 (execHostWriteFrame instr addr words crc clocks s) := Answers.ite
    (Answers.next hk) (Answers.ite (Answers.next (Kept.of_mk hk rfl rfl rfl (by simp) rfl rfl rfl rfl)) (Answers.ite (Answers.next
    (Kept.of_mk hk rfl rfl rfl (by simp) rfl rfl rfl rfl)) (Answers.next (snoop_kept (writeWords_kept (hostAlive_kept hk))))))

theorem readWords_kept {kb : Bool} {s0 s : State} {a lim n : Nat} (hk : Kept kb s0 s) : Kept kb s0 (readWords a lim n s).2 := by
  induction n generalizing s a with
  | zero => exact hk
  | succ n ih =>
    unfold readWords
    split
    · exact ih hk
    · split
      · exact ih (Kept.ite (latchSec_kept hk) hk)
      · exact ih (hk.same rfl rfl rfl (by simp) rfl rfl rfl rfl)

theorem execHostReadFrame_kept {kb : Bool} {s0 : State} {instr : Byte} {addr : BitVec 24} {clocks : Nat} {s : State} (hk : Kept kb s0 s) :
    Answers kb s0 (execHostReadFrame instr addr clocks s) := by
  unfold execHostReadFrame
  refine Answers.ite (Answers.next hk) (Answers.ite (Answers.next (hk.same rfl rfl rfl (by simp) rfl rfl rfl rfl)) ?_)
  dsimp only
  exact Answers.ite (Answers.next (hostAlive_kept (Kept.of_mk (readWords_kept hk) rfl rfl rfl rfl rfl rfl rfl rfl)))
    (Answers.next (Kept.of_mk (readWords_kept hk) rfl rfl rfl (by simp) rfl rfl rfl rfl))

theorem execDirectRegisterWrite_kept {kb : Bool} {s0 : State} {addr : BitVec 24} {w : W32} {s : State} (hk : Kept kb s0 s) : Answers kb
    s0 (execDirectRegisterWrite addr w s) := Answers.ite (Answers.next hk) (Answers.ite (Answers.next (Kept.of_mk hk rfl rfl rfl (by
    simp) rfl rfl rfl rfl)) (Answers.next (writeReg_kept (hostAlive_kept hk))))

theorem execPortRst_kept {kb : Bool} {s0 s : State} (hk : Kept kb s0 s) : Answers kb s0 (execPortRst s) := Answers.ite (Answers.next hk)
    (Answers.next (portReset_kept hk))

theorem execDoorbellWrite_kept {kb : Bool} {s0 : State} {q : Fin 64} {w : W32} {s : State} (hk : Kept kb s0 s) : Answers kb s0
    (execDoorbellWrite q w s) := Answers.ite (Answers.next hk) (Answers.next (doorbell_kept (hostAlive_kept hk)))

theorem execHpTimeNsRead_kept {kb : Bool} {s0 s : State} (hk : Kept kb s0 s) : Answers kb s0 (execHpTimeNsRead s) := Answers.ite
    (Answers.next hk) (Answers.next (latchSec_kept (Kept.of_mk hk rfl rfl rfl rfl rfl rfl rfl rfl)))

theorem execIrqTimeExpiry_kept {kb : Bool} {s0 : State} {ring : Fin 64} {s : State} (hk : Kept kb s0 s) : Answers kb s0
    (execIrqTimeExpiry ring s) := Answers.ite (Answers.next (Kept.of_mk hk rfl rfl rfl (by simp) rfl rfl rfl rfl)) (Answers.next hk)

theorem setDrive_kept {kb : Bool} {s0 s : State} {d : DriveReq} (hk : Kept kb s0 s) : Kept kb s0 (setDrive s d) := Kept.of_mk hk rfl rfl
    rfl rfl rfl rfl rfl rfl

theorem execCfgDrive_kept {kb : Bool} {s0 : State} {r : Req} {intact : Bool} {s : State} (hk : Kept kb s0 s) : Answers kb s0
    (execCfgDrive r intact s) := Answers.next (runJob_kept hk (guardSt_kept (guardSt_kept (Done.Kept.ite (ok_kept (setDrive_kept hk))
    (Done.Kept.done (recBlk_kept hk))))))

theorem execCfgRelease_kept {s0 : State} {r : Req} {s : State} (hk : Kept false s0 s) : Answers false s0 (execCfgRelease r s) :=
    Answers.next (runStateJob_kept hk (fun _ hu => hu))

theorem execCtlArm_kept {s0 : State} {r : Req} {s : State} (hk : Kept false s0 s) : Answers false s0 (execCtlArm r s) := Answers.next
    (runStateJob_kept hk (fun _ hu => hu))

theorem execCtlDisarm_kept {s0 : State} {r : Req} {s : State} (hk : Kept false s0 s) : Answers false s0 (execCtlDisarm r s) :=
    Answers.next (runStateJob_kept hk (fun _ hu => hu))

theorem applyRun_kept {kb : Bool} {s0 s : State} (hk : Kept kb s0 s) : Kept kb s0 (applyRun s) := mapLaws_kept (Kept.of_mk hk rfl rfl
    rfl rfl rfl rfl rfl rfl)

theorem execCtlRun_kept {s0 : State} {r : Req} {s : State} (hk : Kept false s0 s) : Answers false s0 (execCtlRun r s) := Answers.next
    (runStateJob_kept hk (fun _ hu => applyRun_kept hu))

theorem execHostSilenceTimeout_kept {kb : Bool} {s0 s : State} (hk : Kept kb s0 s) : Answers kb s0 (execHostSilenceTimeout s) :=
    Answers.ite (Answers.next (Kept.ite (record_kept (Kept.of_mk hk rfl rfl rfl rfl rfl rfl rfl rfl)) (arrive_kept (record_kept
    (Kept.of_mk hk rfl rfl rfl rfl rfl rfl rfl rfl))))) (Answers.next hk)

theorem updThk_kept {kb : Bool} {s0 s : State} {f : Thicket → Thicket} (hk : Kept kb s0 s)
    (hf : ∀ t : Thicket, (f t).rmem = t.rmem ∧ (f t).rmemB = t.rmemB ∧ (f t).sigOwner = t.sigOwner ∧ (f t).blocks = t.blocks) :
    Kept kb s0 (updThk s f) :=
  hk.same rfl rfl rfl rfl (hf _).1 (hf _).2.1 (hf _).2.2.1 (hf _).2.2.2

theorem execCfgImageBegin_kept {kb : Bool} {s0 : State} {r : Req} {s : State} (hk : Kept kb s0 s) : Answers kb s0 (execCfgImageBegin r
    s) := Answers.next (runJob_kept hk (guardSt_kept (ok_kept (updThk_kept hk (fun _ => ⟨rfl, rfl, rfl, rfl⟩)))))

theorem execCfgImageData_kept {kb : Bool} {s0 : State} {r : Req} {s : State} (hk : Kept kb s0 s) : Answers kb s0 (execCfgImageData r s)
    := Answers.next (runJob_kept hk (guardSt_kept (ok_kept (updThk_kept hk (fun _ => ⟨rfl, rfl, rfl, rfl⟩)))))

theorem execCfgImageFromFlash_kept {kb : Bool} {s0 : State} {r : Req} {s : State} (hk : Kept kb s0 s) : Answers kb s0
    (execCfgImageFromFlash r s) := Answers.next (runJob_kept hk (guardSt_kept (ok_kept (updThk_kept hk (fun _ => ⟨rfl, rfl, rfl,
    rfl⟩)))))

theorem execCfgImageToFlash_kept {kb : Bool} {s0 : State} {r : Req} {s : State} (hk : Kept kb s0 s) : Answers kb s0 (execCfgImageToFlash
    r s) := Answers.next (runJob_kept hk (guardSt_kept (Done.Kept.ite (ok_kept (Kept.of_mk hk rfl rfl rfl rfl rfl rfl rfl rfl))
    (Done.Kept.done hk))))

theorem loadRegion_wf {b : ImageBody} {g : Nat} {m : Mem 18} (h : Memory.wf m) : Memory.wf (loadRegion b g m) := by
  unfold loadRegion; exact memPuts_wf _ (memPart_wf h)

/-- The commit of an image loads every memory of Thicket in its form. -/
theorem applyCommit_kept {kb : Bool} {s0 s : State} {d : List Byte} {b : ImageBody} (hk : Kept kb s0 s) : Kept kb s0 (applyCommit s d b) := by
  have h : Kept kb s0 (snoopConfig (writeThr (writeMaintained { s with
      thk := { s.thk with
        blocks := Vector.ofFn fun k : Fin 16 => loadBlock b k.val (s.thk.blocks.at k.val)
        rmem := Vector.ofFn fun g : Fin 4 => loadRegion b g.val (s.thk.rmem.at g.val)
        rmemB := Vector.ofFn fun g : Fin 4 => loadRegion b g.val []
        sigOwner := Vector.ofFn fun g : Fin 4 => loadOwners b g.val
        ctxs := loadCtxs b
        preempted := []
        active := d
        body := some b
        activeBad := false }
      drv := { s.drv with committed := true }
      dmd := { s.dmd with curves := Vector.replicate 4 {}, pend := Vector.replicate 4 none } }) (16 - s.thm.step))) := by
    refine snoopConfig_kept (writeThr_kept (writeMaintained_kept (hk.mems rfl rfl rfl id (fun m g hg => ?_) (fun _ g hg => ?_)
      (fun _ g hg => ?_) (fun _ k h => ?_))))
    · exact (Vector.at_ofFn (fun g : Fin 4 => loadRegion b g.val (s.thk.rmem.at g.val)) hg) ▸ loadRegion_wf (m g hg)
    · exact (Vector.at_ofFn (fun g : Fin 4 => loadRegion b g.val []) hg) ▸ loadRegion_wf nil_wf
    · exact (Vector.at_ofFn (fun g : Fin 4 => loadOwners b g.val) hg) ▸ memPuts_wf _ nil_wf
    · exact (Vector.at_ofFn (fun k : Fin 16 => loadBlock b k.val (s.thk.blocks.at k.val)) h) ▸ ⟨memPuts_wf _ nil_wf, memPuts_wf _ nil_wf⟩
  exact Kept.ite h (publishRegen_kept h)

theorem execCfgCommit_kept {s0 : State} {r : Req} {b : ImageBody} {s : State} (hk : Kept false s0 s) : Answers false s0 (execCfgCommit r
    b s) := Answers.next (runStateJob_kept hk (fun _ hu => applyCommit_kept hu))

theorem ctxCommand_kept {kb : Bool} {s0 : State} {w : Nat} {r : Req} {s : State} (hk : Kept kb s0 s) : Kept kb s0 (ctxCommand w r s) :=
    by
  unfold ctxCommand
  refine runJob_kept hk ?_
  split
  · exact Done.Kept.refuse
  · exact ok_kept (snoopConfig_kept (Kept.ite (writeMaintained_kept (Kept.ite (updCtx_kept hk) (dropAct_kept (updCtx_kept hk))))
      (Kept.ite (updCtx_kept hk) (dropAct_kept (updCtx_kept hk)))))

theorem execCfgContextCtrl_kept {kb : Bool} {s0 : State} {r : Req} {s : State} (hk : Kept kb s0 s) : Answers kb s0 (execCfgContextCtrl r
    s) := Answers.next (ctxCommand_kept hk)

theorem execCfgContextPeriod_kept {kb : Bool} {s0 : State} {r : Req} {s : State} (hk : Kept kb s0 s) : Answers kb s0
    (execCfgContextPeriod r s) := Answers.next (ctxCommand_kept hk)

theorem execCfgContextParam_kept {kb : Bool} {s0 : State} {r : Req} {s : State} (hk : Kept kb s0 s) : Answers kb s0 (execCfgContextParam
    r s) := Answers.next (ctxCommand_kept hk)

theorem execCfgContextStatusClr_kept {kb : Bool} {s0 : State} {r : Req} {s : State} (hk : Kept kb s0 s) : Answers kb s0
    (execCfgContextStatusClr r s) := Answers.next (ctxCommand_kept hk)

theorem advance_kept {kb : Bool} {s0 s : State} {n k : Nat} (hk : Kept kb s0 s) : Kept kb s0 (advance s n k) := Kept.of_mk hk rfl rfl
    rfl (by simp) rfl rfl rfl rfl

theorem execDescriptorTake_kept {kb : Bool} {s0 s : State} (hk : Kept kb s0 s) : Answers kb s0 (execDescriptorTake s) := by
  unfold execDescriptorTake
  refine Answers.ite (Answers.next hk) ?_
  split
  · exact Answers.next hk
  · split
    · exact Answers.next hk
    · exact Answers.next (refuseTake_kept (advance_kept hk))
    · dsimp only
      split
      · exact Answers.next (refuseTake_kept (advance_kept hk))
      · exact Answers.next (Kept.of_mk (advance_kept hk) rfl rfl rfl rfl rfl rfl rfl rfl)

theorem execCfgQueue_kept {kb : Bool} {s0 : State} {r : Req} {s : State} (hk : Kept kb s0 s) : Answers kb s0 (execCfgQueue r s) := by
  unfold execCfgQueue
  refine Answers.next ?_
  refine runJob_kept hk ?_
  split
  · exact Done.Kept.refuse
  · exact guardSt_kept (ok_kept (Kept.of_mk hk rfl rfl rfl (by simp) rfl rfl rfl rfl))

theorem execCfgEvents_kept {kb : Bool} {s0 : State} {r : Req} {s : State} (hk : Kept kb s0 s) : Answers kb s0 (execCfgEvents r s) :=
    Answers.next (runJob_kept hk (guardSt_kept (ok_kept (Kept.of_mk hk rfl rfl rfl rfl rfl rfl rfl rfl))))

theorem execQryFaultLog_kept {kb : Bool} {s0 : State} {r : Req} {s : State} (hk : Kept kb s0 s) : Answers kb s0 (execQryFaultLog r s) :=
    Answers.next (runJob_kept hk (guardSt_kept (Done.Kept.done hk)))

theorem copyLog_kept {kb : Bool} {s0 s : State} (hk : Kept kb s0 s) : Kept kb s0 (copyLog s) := Kept.of_mk hk rfl rfl rfl rfl rfl rfl
    rfl rfl

theorem execFaultLogCopy_kept {kb : Bool} {s0 s : State} (hk : Kept kb s0 s) : Answers kb s0 (execFaultLogCopy s) := Answers.ite
    (Answers.next (copyLog_kept hk)) (Answers.next hk)

theorem execQryCapacity_kept {kb : Bool} {s0 : State} {r : Req} {s : State} (hk : Kept kb s0 s) : Answers kb s0 (execQryCapacity r s) :=
    Answers.next (runJob_kept hk (guardSt_kept (Done.Kept.done hk)))

theorem execQryCmdCost_kept {kb : Bool} {s0 : State} {r : Req} {s : State} (hk : Kept kb s0 s) : Answers kb s0 (execQryCmdCost r s) :=
    Answers.next (runJob_kept hk (guardSt_kept (Done.Kept.done hk)))

theorem updNv_kept {kb : Bool} {s0 s : State} {f : Nv → Nv} (hk : Kept kb s0 s) (hf : ∀ n : Nv, (f n).fuses = n.fuses) :
    Kept kb s0 (updNv s f) := hk.same rfl (hf _) rfl rfl rfl rfl rfl rfl

theorem updBank_kept {kb : Bool} {s0 s : State} {b : Nat} {f : FwBank → FwBank} (hk : Kept kb s0 s) : Kept kb s0 (updBank s b f) :=
    updNv_kept hk (fun _ => rfl)

theorem flashJob_kept {kb : Bool} {s0 s : State} {k : Done} (hk : Kept kb s0 s) (h_k : k.Kept kb s0) : (flashJob s k).Kept kb s0 :=
    Done.Kept.ite h_k (Done.Kept.done hk)

theorem execMntFwWriteErase_kept {kb : Bool} {s0 : State} {r : Req} {s : State} (hk : Kept kb s0 s) : Answers kb s0 (execMntFwWriteErase
    r s) := Answers.next (runJob_kept hk (guardSt_kept (guardSt_kept (flashJob_kept hk (ok_kept (updBank_kept hk))))))

theorem execMntFwWriteData_kept {kb : Bool} {s0 : State} {r : Req} {s : State} (hk : Kept kb s0 s) : Answers kb s0 (execMntFwWriteData r
    s) := Answers.next (runJob_kept hk (guardSt_kept (guardSt_kept (flashJob_kept hk (ok_kept (updBank_kept hk))))))

theorem execMntFwVerify_kept {kb : Bool} {s0 : State} {r : Req} {s : State} (hk : Kept kb s0 s) : Answers kb s0 (execMntFwVerify r s) :=
    Answers.next (runJob_kept hk (guardSt_kept (Done.Kept.ite (Done.Kept.done (updBank_kept hk)) (Done.Kept.done hk))))

theorem resetJob_kept {s0 : State} {op : Nat} {r : Req} {s : State} {st : W16} {apply : State → State} (hk : Kept false s0 s) (h_apply :
    ∀ u, Kept false s0 u → Kept false s0 (apply u)) : Kept false s0 (resetJob op r s st apply) := by
  unfold resetJob
  split
  · exact complete_kept (evaluate_kept hk)
  · exact Kept.ite (complete_kept hk) (coldReset_kept (complete_kept (copyLog_kept (h_apply _ hk))))

theorem applyActivate_kept {kb : Bool} {s0 s : State} {b : Nat} (hk : Kept kb s0 s) : Kept kb s0 (applyActivate s b) := Kept.of_mk
    (bcrUpdate_kept hk) rfl rfl rfl rfl rfl rfl rfl rfl

theorem execMntFwActivate_kept {s0 : State} {r : Req} {s : State} (hk : Kept false s0 s) : Answers false s0 (execMntFwActivate r s) :=
    by
  unfold execMntFwActivate
  refine Answers.next ?_
  split
  · exact runJob_kept hk Done.Kept.refuse
  · exact Kept.ite (resetJob_kept hk (fun _ hu => applyActivate_kept hu)) (runJob_kept hk Done.Kept.refuse)

theorem execMntReset_kept {s0 : State} {r : Req} {s : State} (hk : Kept false s0 s) : Answers false s0 (execMntReset r s) :=
    Answers.next (Kept.ite (resetJob_kept hk (fun _ hu => hu)) (runJob_kept hk Done.Kept.refuse))

theorem fuseEnd_kept {kb : Bool} {s0 s : State} {readBackOk : Bool} (hk : Kept kb s0 s) : (fuseEnd s readBackOk).Kept kb s0 :=
    Done.Kept.ite (ok_kept hk) (Done.Kept.done (recSec_kept hk))

theorem spoilTaken_kept {kb : Bool} {s0 s : State} (hk : Kept kb s0 s) : Kept kb s0 (spoilTaken s) := Kept.of_mk hk rfl rfl rfl rfl rfl
    rfl rfl rfl

theorem clearRecords_kept {kb : Bool} {s0 s : State} (hk : Kept kb s0 s) : Kept kb s0 (clearRecords s) := Kept.of_mk hk rfl rfl rfl rfl
    rfl rfl rfl rfl

theorem clearStarts_kept {kb : Bool} {s0 s : State} (hk : Kept kb s0 s) : Kept kb s0 (clearStarts s) := updNv_kept hk (fun _ => rfl)

theorem clearWear_kept {kb : Bool} {s0 s : State} (hk : Kept kb s0 s) : Kept kb s0 (clearWear s) := updNv_kept hk (fun _ => rfl)

theorem clearAgeing_kept {kb : Bool} {s0 s : State} (hk : Kept kb s0 s) : Kept kb s0 (clearAgeing s) := updNv_kept hk (fun _ => rfl)

theorem logClear_kept {kb : Bool} {s0 : State} {i : Nat} {r : Req} {s : State} (hk : Kept kb s0 s) : Kept kb s0 (logClear i r s) :=
    runJob_kept hk (guardSt_kept (flashJob_kept hk (ok_kept (Kept.ite (clearAgeing_kept (Kept.ite (clearWear_kept (Kept.ite
    (clearStarts_kept (Kept.ite (clearRecords_kept hk) hk)) (Kept.ite (clearRecords_kept hk) hk))) (Kept.ite (clearStarts_kept (Kept.ite
    (clearRecords_kept hk) hk)) (Kept.ite (clearRecords_kept hk) hk)))) (Kept.ite (clearWear_kept (Kept.ite (clearStarts_kept (Kept.ite
    (clearRecords_kept hk) hk)) (Kept.ite (clearRecords_kept hk) hk))) (Kept.ite (clearStarts_kept (Kept.ite (clearRecords_kept hk) hk))
    (Kept.ite (clearRecords_kept hk) hk)))))))

theorem execMntLogClearRecords_kept {kb : Bool} {s0 : State} {r : Req} {s : State} (hk : Kept kb s0 s) : Answers kb s0
    (execMntLogClearRecords r s) := Answers.next (logClear_kept hk)

theorem execMntLogClearStartFailures_kept {kb : Bool} {s0 : State} {r : Req} {s : State} (hk : Kept kb s0 s) : Answers kb s0
    (execMntLogClearStartFailures r s) := Answers.next (logClear_kept hk)

theorem execMntLogClearWear_kept {kb : Bool} {s0 : State} {r : Req} {s : State} (hk : Kept kb s0 s) : Answers kb s0 (execMntLogClearWear
    r s) := Answers.next (logClear_kept hk)

theorem execMntLogClearAgeing_kept {kb : Bool} {s0 : State} {r : Req} {s : State} (hk : Kept kb s0 s) : Answers kb s0
    (execMntLogClearAgeing r s) := Answers.next (logClear_kept hk)

theorem execQryAttestReport_kept {kb : Bool} {s0 : State} {r : Req} {s : State} (hk : Kept kb s0 s) : Answers kb s0 (execQryAttestReport
    r s) := Answers.next (runJob_kept hk (guardSt_kept (Done.Kept.done (Kept.ite hk (freeTaken_kept (freeTaken_kept hk))))))

theorem execQryAttestEndorse_kept {kb : Bool} {s0 : State} {r : Req} {s : State} (hk : Kept kb s0 s) : Answers kb s0
    (execQryAttestEndorse r s) := Answers.next (runJob_kept hk (guardSt_kept (Done.Kept.done hk)))

theorem traceSample_kept {kb : Bool} {s0 s : State} {c : Nat} {b : Bool} (hk : Kept kb s0 s) : Kept kb s0 (traceSample s c b) :=
    Kept.ite hk (Kept.ite (Kept.of_mk hk rfl rfl rfl rfl rfl rfl rfl rfl) (Kept.ite (Kept.of_mk (Kept.of_mk (freeTaken_kept hk) rfl rfl
    rfl rfl rfl rfl rfl rfl) rfl rfl rfl rfl rfl rfl rfl rfl) (Kept.of_mk (freeTaken_kept hk) rfl rfl rfl rfl rfl rfl rfl rfl)))

theorem execDiaTraceArm_kept {kb : Bool} {s0 : State} {r : Req} {s : State} (hk : Kept kb s0 s) : Answers kb s0 (execDiaTraceArm r s) :=
    Answers.next (runJob_kept hk (guardSt_kept (guardSt_kept (ok_kept (Kept.of_mk hk rfl rfl rfl rfl rfl rfl rfl rfl)))))

theorem execDiaTraceStop_kept {kb : Bool} {s0 : State} {r : Req} {s : State} (hk : Kept kb s0 s) : Answers kb s0 (execDiaTraceStop r s)
    := Answers.next (runJob_kept hk (guardSt_kept (ok_kept (Kept.of_mk hk rfl rfl rfl rfl rfl rfl rfl rfl))))

theorem execDiaTraceRead_kept {kb : Bool} {s0 : State} {r : Req} {s : State} (hk : Kept kb s0 s) : Answers kb s0 (execDiaTraceRead r s)
    := Answers.next (runJob_kept hk (guardSt_kept (Done.Kept.done hk)))

theorem execDiaTraceStatus_kept {kb : Bool} {s0 : State} {r : Req} {s : State} (hk : Kept kb s0 s) : Answers kb s0 (execDiaTraceStatus r
    s) := Answers.next (runJob_kept hk (guardSt_kept (Done.Kept.done hk)))

end Sys2Proof.Machine
end

