-- ==== Sys2Proof/Laws/Fuses.lean ====
section
/-! SUPPORT. MNT_FUSE changes the fuses and leaves alone what every other command does. -/

namespace Sys2Proof.Machine

/-- From `s` to `t` the queue and the module state are unchanged, and the memories keep their form. -/
structure Formed (s t : State) : Prop where
  pending : t.pending = s.pending
  st : t.drv.st = s.drv.st
  mem : memoriesWf s → memoriesWf t

theorem Kept.formed {s t : State} (h : Kept true s t) : Formed s t := ⟨h.pending, h.st rfl, h.mem⟩

theorem Formed.trans {s t u : State} (h : Formed s t) (k : Formed t u) : Formed s u :=
  ⟨k.pending.trans h.pending, k.st.trans h.st, fun m => k.mem (h.mem m)⟩

/-- The state with which a job is done is formed. -/
inductive Done.Formed (s : State) : Done → Prop
  | refuse {st : W16} : Done.Formed s (.refuse st)
  | done {t : State} {st : W16} {result : List Byte} (h : Machine.Formed s t) : Done.Formed s (.done t st result)

theorem Done.Formed.ite {s : State} {c : Prop} [Decidable c] {x y : Done} (hx : x.Formed s) (hy : y.Formed s) :
    (if c then x else y).Formed s := by split <;> assumption

theorem guardSt_formed {s : State} {c : Bool} {st : W16} {k : Done} (h : k.Formed s) : (guardSt c st k).Formed s := by
  unfold guardSt; split
  · exact h
  · exact .refuse

/-- What the application of a job answers: nothing, a completion on `s`, or one on the state that its body gives. -/
theorem runJob_cases (op : Nat) (r : Req) (s : State) (body : Done) :
    runJob op r s body = s ∨ (∃ st result, runJob op r s body = complete s op r st result) ∨
      ∃ t st result, body = .done t st result ∧ runJob op r s body = complete t op r st result := by
  unfold runJob; split
  · exact .inl rfl
  · split
    · split <;> exact .inr (.inl ⟨_, _, rfl⟩)
    · split
      · exact .inl rfl
      · cases body with
        | refuse st => exact .inr (.inl ⟨_, _, rfl⟩)
        | done t st result => exact .inr (.inr ⟨_, _, _, rfl, rfl⟩)

theorem complete_formed (s : State) (op : Nat) (r : Req) (st : W16) (result : List Byte) : Formed s (complete s op r st result) :=
  (complete_kept (Kept.refl s)).formed

theorem runJob_formed {op : Nat} {r : Req} {s : State} {body : Done} (h : body.Formed s) : Formed s (runJob op r s body) := by
  rcases runJob_cases op r s body with e | ⟨_, _, e⟩ | ⟨t, _, _, eb, e⟩
  · rw [e]; exact ⟨rfl, rfl, id⟩
  · rw [e]; exact complete_formed ..
  · rw [e]; subst eb; cases h with | done h => exact h.trans (complete_formed ..)

theorem updFuses_formed (s : State) (f : Fuses → Fuses) : Formed s (updFuses s f) :=
  ⟨rfl, rfl, fun m => m.of_fields m.qsram rfl rfl rfl rfl⟩

theorem spoilTaken_formed (s : State) (f : Fuses → Fuses) : Formed s (updFuses (spoilTaken s) f) :=
  (spoilTaken_kept (Kept.refl s)).formed.trans (updFuses_formed _ f)

theorem fuseEnd_formed {s t : State} {ok : Bool} (h : Formed s t) : (fuseEnd t ok).Formed s := by
  unfold fuseEnd; split
  · exact .done h
  · exact .done (h.trans (recSec_kept (Kept.refl t)).formed)

theorem programmed_formed {s : State} {f g : Fuses → Fuses} {ok : Bool} :
    (fuseEnd (if ok then updFuses s f else updFuses (spoilTaken s) g) ok).Formed s := by
  cases ok
  · exact fuseEnd_formed (spoilTaken_formed s g)
  · exact fuseEnd_formed (updFuses_formed s f)

section
variable {r : Req} {ok : Bool} {s : State}

theorem execMntFuseIdent_formed : ∃ t, execMntFuseIdent r ok s = .next t ∧ Formed s t :=
  ⟨_, rfl, runJob_formed (guardSt_formed (guardSt_formed (Done.Formed.ite (.done ⟨rfl, rfl, id⟩) programmed_formed)))⟩

theorem execMntFuseKey_formed : ∃ t, execMntFuseKey r ok s = .next t ∧ Formed s t :=
  ⟨_, rfl, runJob_formed (guardSt_formed (guardSt_formed (Done.Formed.ite (.done ⟨rfl, rfl, id⟩) programmed_formed)))⟩

theorem execMntFuseRevoke_formed : ∃ t, execMntFuseRevoke r ok s = .next t ∧ Formed s t :=
  ⟨_, rfl, runJob_formed (guardSt_formed programmed_formed)⟩

theorem execMntFusePolicy_formed : ∃ t, execMntFusePolicy r ok s = .next t ∧ Formed s t :=
  ⟨_, rfl, runJob_formed (guardSt_formed (guardSt_formed (Done.Formed.ite (.done ⟨rfl, rfl, id⟩) programmed_formed)))⟩

theorem execMntFuseSafety_formed : ∃ t, execMntFuseSafety r ok s = .next t ∧ Formed s t :=
  ⟨_, rfl, runJob_formed (guardSt_formed (guardSt_formed (Done.Formed.ite (.done ⟨rfl, rfl, id⟩) programmed_formed)))⟩

theorem execMntFuseRollback_formed : ∃ t, execMntFuseRollback r ok s = .next t ∧ Formed s t :=
  ⟨_, rfl, runJob_formed (guardSt_formed (guardSt_formed programmed_formed))⟩

end

end Sys2Proof.Machine
end

