-- ==== Sys2Proof/Laws/KeptContext.lean ====
section
/-! SUPPORT. One lemma per operation: what contexts and the catch keep. -/

namespace Sys2Proof.Machine

theorem resetArea_wf {m : Mem 18} {inside : Nat → Bool} {l : List (Nat × W18)} (h : Memory.wf m) : Memory.wf (resetArea m inside l) :=
  memPuts_wf _ ⟨h.1.filter _, fun x hx => h.2 x (List.mem_of_mem_filter hx)⟩

theorem resetArea_upd_wf {t : Tab 4 (Mem 18)} {g : Nat} {inside : Nat → Bool} {l : List (Nat × W18)} (h : ∀ i < 4, Memory.wf (t.at i)) :
    ∀ i < 4, Memory.wf ((t.upd g fun m => resetArea m inside l).at i) :=
  Vector.upd_preserves (P := fun m : Mem 18 => Memory.wf m) t g _ h fun hg => resetArea_wf (h g hg)

/-- A context's state area set to its initial values. -/
theorem prime_kept {kb : Bool} {s0 s : State} {i : CtxImg} (hk : Kept kb s0 s) : Kept kb s0 (prime s i) := by
  unfold prime
  refine Kept.ite hk ?_
  dsimp only
  refine maintainThr_kept (maintain_kept (updCtx_kept (putLaws_kept (putLaws_kept ?_))))
  exact hk.mems rfl rfl rfl id resetArea_upd_wf resetArea_upd_wf id id

theorem markStale_kept {kb : Bool} {s0 s : State} {i : CtxImg} {late : List Nat} (hk : Kept kb s0 s) : Kept kb s0 (markStale s i late)
    := Kept.ite hk (updCtx_kept (Kept.foldl hk fun _ _ hu => putBank_kept hu))

theorem takeCurves_kept {kb : Bool} {s0 s : State} (hk : Kept kb s0 s) : Kept kb s0 (takeCurves s) := by
  unfold takeCurves
  apply mapLaws_kept
  exact hk.same rfl rfl rfl rfl rfl rfl rfl rfl

theorem speedStart_kept {kb : Bool} {s0 s : State} {i : CtxImg} {a : Activation} (hk : Kept kb s0 s) : Kept kb s0 (speedStart s i a) :=
    Kept.ite hk (Kept.foldl hk fun _ _ hu => Kept.ite (mapLaws_kept hu) hu)

theorem endStopped_kept {kb : Bool} {s0 s : State} {m : Nat} (hk : Kept kb s0 s) : Kept kb s0 (endStopped s m) := Kept.ite (Kept.of_mk
    hk rfl rfl rfl rfl rfl rfl rfl rfl) (Kept.ite (arrive_kept (Kept.of_mk hk rfl rfl rfl rfl rfl rfl rfl rfl)) (arrive_kept (Kept.of_mk
    hk rfl rfl rfl rfl rfl rfl rfl rfl)))

theorem stopAfterCatch_kept {kb : Bool} {s0 s : State} {i : CtxImg} (hk : Kept kb s0 s) : Kept kb s0 (stopAfterCatch s i) := by
  unfold stopAfterCatch
  split
  · exact Kept.ite (endStopped_kept hk) hk
  · exact hk

theorem catchSample_kept {kb : Bool} {s0 s : State} {i : CtxImg} (hk : Kept kb s0 s) : Kept kb s0 (catchSample s i) := by
  unfold catchSample
  split
  · exact hk
  · exact Kept.ite (Kept.of_mk (freeTaken_kept hk) rfl rfl rfl rfl rfl rfl rfl rfl) hk

theorem release_kept {kb : Bool} {s0 s : State} {i : CtxImg} {late : List Nat} (hk : Kept kb s0 s) : Kept kb s0 (release s i late) :=
    updCtx_kept (Kept.of_mk (speedStart_kept (catchSample_kept (stopAfterCatch_kept (Kept.ite (takeCurves_kept (markStale_kept
    (mergeParams_kept (prime_kept hk)))) (markStale_kept (mergeParams_kept (prime_kept hk))))))) rfl rfl rfl rfl rfl rfl rfl rfl)

theorem dropTrigger_kept {kb : Bool} {s0 s : State} {c : Nat} (hk : Kept kb s0 s) : Kept kb s0 (dropTrigger s c) := recCtx_kept
    (updCtx_kept hk)

theorem trigger_kept {kb : Bool} {s0 s : State} {i : CtxImg} {late : List Nat} (hk : Kept kb s0 s) : Kept kb s0 (trigger s i late) :=
    Kept.ite hk (Kept.ite (updCtx_kept hk) (Kept.ite (updCtx_kept hk) (Kept.ite (dropTrigger_kept (updCtx_kept hk)) (release_kept
    (updCtx_kept hk)))))

theorem execContextRelease_kept {kb : Bool} {s0 : State} {c : Fin 160} {late : List Nat} {s : State} (hk : Kept kb s0 s) : Answers kb s0
    (execContextRelease c late s) := by
  unfold execContextRelease
  dsimp only
  split
  · exact Answers.ite (Answers.next hk) (Answers.next (trigger_kept hk))
  · exact Answers.next hk

theorem putOutputs_kept {kb : Bool} {s0 s : State} {c : Nat} {a : Activation} (hk : Kept kb s0 s) : Kept kb s0 (putOutputs s c a) :=
    Kept.ite (snoop_kept (Kept.ite (Kept.foldl hk fun _ _ hu => putShadow_kept hu) (setLda_kept (Kept.foldl hk fun _ _ hu =>
    putShadow_kept hu)))) hk

theorem catchStep_kept {kb : Bool} {s0 s : State} {i : CtxImg} {a : Activation} (hk : Kept kb s0 s) : Kept kb s0 (catchStep s i a) := by
  unfold catchStep
  split
  · exact hk
  · exact Kept.ite (Kept.of_mk hk rfl rfl rfl rfl rfl rfl rfl rfl) hk

theorem putResults_kept {kb : Bool} {s0 s : State} {i : CtxImg} {a : Activation} (hk : Kept kb s0 s) : Kept kb s0 (putResults s i a) :=
    putLaws_kept (putWords_kept (putWords_kept hk))

theorem finishAct_kept {kb : Bool} {s0 s : State} {i : CtxImg} {a : Activation} (hk : Kept kb s0 s) : Kept kb s0 (finishAct s i a) :=
    catchStep_kept (traceSample_kept (dropAct_kept (updCtx_kept (putOutputs_kept (putResults_kept hk)))))

theorem execContextCompletion_kept {kb : Bool} {s0 : State} {c : Fin 160} {s : State} (hk : Kept kb s0 s) : Answers kb s0
    (execContextCompletion c s) := by
  unfold execContextCompletion
  split
  · exact Answers.ite (Answers.next hk) (Answers.ite (Answers.next (dropAct_kept (updCtx_kept hk))) (Answers.next (Kept.foldl
      (finishAct_kept hk) fun _ _ hu => trigger_kept hu)))
  · exact Answers.next hk

theorem updCatch_kept {kb : Bool} {s0 s : State} {m : Nat} {f : Catch → Catch} (hk : Kept kb s0 s) : Kept kb s0 (updCatch s m f) :=
    Kept.of_mk hk rfl rfl rfl rfl rfl rfl rfl rfl

theorem alignObs_kept {kb : Bool} {s0 s : State} {l : LawInst} {theta : Int} (hk : Kept kb s0 s) : Kept kb s0 (alignObs s l theta) := by
  unfold alignObs
  split
  · exact updObs_kept hk
  · exact hk

theorem synchronise_kept {kb : Bool} {s0 s : State} {m : Nat} {w : Int} (hk : Kept kb s0 s) : Kept kb s0 (synchronise s m w) := by
  unfold synchronise
  dsimp only
  split
  · exact updCatch_kept (Kept.foldl hk fun _ _ hu => Kept.ite (prime_kept hu) hu)
  · exact Kept.ite (catchAbort_kept (freeTaken_kept (Kept.foldl hk fun _ _ hu => Kept.ite (prime_kept hu) hu))) (updCatch_kept
      (mapLaws_kept (freeTaken_kept (Kept.foldl hk fun _ _ hu => Kept.ite (prime_kept hu) hu))))

theorem leaveStage_kept {kb : Bool} {s0 s : State} {m : Nat} {w : Int} (hk : Kept kb s0 s) : Kept kb s0 (leaveStage s m w) := Kept.ite
    (endStopped_kept hk) (synchronise_kept hk)

theorem execCatchDetectEnd_kept {kb : Bool} {s0 : State} {m : Fin 2} {ns : Nat} {s : State} (hk : Kept kb s0 s) : Answers kb s0
    (execCatchDetectEnd m ns s) := by
  unfold execCatchDetectEnd
  dsimp only
  split
  · exact Answers.next hk
  · exact Answers.ite (Answers.next hk) (Answers.ite (Answers.next (leaveStage_kept (updCatch_kept hk))) (Answers.ite (Answers.next
      (catchAbort_kept hk)) (Answers.ite (Answers.ite (Answers.next (endStopped_kept (updCatch_kept hk))) (Answers.next (updCatch_kept
      (updCatch_kept hk)))) (Answers.next (leaveStage_kept (alignObs_kept (updCatch_kept hk)))))))

theorem execAlignEnd_kept {kb : Bool} {s0 : State} {m : Fin 2} {s : State} (hk : Kept kb s0 s) : Answers kb s0 (execAlignEnd m s) := by
  unfold execAlignEnd
  split
  · exact Answers.next hk
  · exact Answers.ite (Answers.next hk) (Answers.next (leaveStage_kept (alignObs_kept hk)))

theorem execTorqueMonitorCheck_kept {kb : Bool} {s0 : State} {m : Fin 2} {own : W18} {s : State} (hk : Kept kb s0 s) : Answers kb s0
    (execTorqueMonitorCheck m own s) := Answers.ite (Answers.next hk) (Answers.ite (Answers.next (monitorStop_kept (recBlk_kept
    (updMach_kept hk)))) (Answers.next (updMach_kept hk)))

end Sys2Proof.Machine
end

