-- ==== Sys2Proof/Laws/KeptNet.lean ====
section
/-! SUPPORT. One lemma per operation: what CAN, Adexia and torque allocation keep. -/

namespace Sys2Proof.Machine

theorem updCan_kept {kb : Bool} {s0 s : State} {c : Nat} {f : Can → Can} (hk : Kept kb s0 s) : Kept kb s0 (updCan s c f) := Kept.of_mk
    hk rfl rfl rfl rfl rfl rfl rfl rfl

theorem updObj_kept {kb : Bool} {s0 s : State} {c o : Nat} {f : CanObj → CanObj} (hk : Kept kb s0 s) : Kept kb s0 (updObj s c o f) :=
    updCan_kept hk

theorem recCan_kept {kb : Bool} {s0 s : State} {c : Nat} {code : W16} (hk : Kept kb s0 s) : Kept kb s0 (recCan s c code) := record_kept
    hk

theorem canSet_kept {kb : Bool} {s0 s : State} {c i : Nat} (hk : Kept kb s0 s) : Kept kb s0 (canSet s c i) := updCan_kept hk

theorem canFlag_kept {kb : Bool} {s0 s : State} {c i : Nat} {code : W16} (hk : Kept kb s0 s) : Kept kb s0 (canFlag s c i code) :=
    Kept.ite hk (recCan_kept (canSet_kept hk))

theorem canErrState_kept {kb : Bool} {s0 s : State} {c : Nat} (hk : Kept kb s0 s) : Kept kb s0 (canErrState s c) := Kept.ite hk
    (Kept.ite (recCan_kept (canSet_kept (updCan_kept hk))) (Kept.ite (Kept.ite hk (recCan_kept (canSet_kept (updCan_kept hk))))
    (updCan_kept hk)))

theorem canError_kept {kb : Bool} {s0 s : State} {c : Nat} {e : CanErr} (hk : Kept kb s0 s) : Kept kb s0 (canError s c e) := Kept.ite hk
    (canErrState_kept (updCan_kept hk))

theorem canGood_kept {kb : Bool} {s0 s : State} {c : Nat} {sent : Bool} (hk : Kept kb s0 s) : Kept kb s0 (canGood s c sent) := Kept.ite
    hk (Kept.ite (canErrState_kept (updCan_kept hk)) (canErrState_kept (updCan_kept (freeTaken_kept hk))))

theorem execCanErrorDetected_kept {kb : Bool} {s0 : State} {c : Fin 4} {e : CanErr} {bitErr : Bool} {s : State} (hk : Kept kb s0 s) :
    Answers kb s0 (execCanErrorDetected c e bitErr s) := Answers.ite (Answers.next hk) (Answers.next (canError_kept (Kept.ite
    (canSet_kept hk) hk)))

theorem execCanBusoffRecovery_kept {kb : Bool} {s0 : State} {c : Fin 4} {s : State} (hk : Kept kb s0 s) : Answers kb s0
    (execCanBusoffRecovery c s) := Answers.ite (Answers.next (updCan_kept hk)) (Answers.next hk)

theorem execProtocolException_kept {kb : Bool} {s0 : State} {c : Fin 4} {s : State} (hk : Kept kb s0 s) : Answers kb s0
    (execProtocolException c s) := Answers.ite (Answers.next (updCan_kept hk)) (Answers.next hk)

theorem putMsg_kept {kb : Bool} {s0 s : State} {k : Nat} {v : W18} (hk : Kept kb s0 s) : Kept kb s0 (putMsg s k v) := Kept.of_mk hk rfl
    rfl rfl rfl rfl rfl rfl rfl

theorem msgPath_kept {kb : Bool} {s0 s : State} {c o : Nat} (hk : Kept kb s0 s) : Kept kb s0 (msgPath s c o) := by
  unfold msgPath
  dsimp only
  split
  · exact hk
  · refine Kept.ite hk ?_
    refine Kept.ite (canSet_kept (updObj_kept hk)) ?_
    split
    · exact putMsg_kept (updObj_kept hk)
    · exact canSet_kept (updObj_kept hk)

theorem putFrame_kept {kb : Bool} {s0 s : State} {c o : Nat} {f : CanFrame} {lost : Bool} (hk : Kept kb s0 s) : Kept kb s0 (putFrame s c
    o f lost) := msgPath_kept (Kept.ite (canFlag_kept (updObj_kept hk)) (updObj_kept hk))

theorem storeFrame_kept {kb : Bool} {s0 s : State} {c o : Nat} {f : CanFrame} (hk : Kept kb s0 s) : Kept kb s0 (storeFrame s c o f) :=
    Kept.ite (putFrame_kept hk) (Kept.ite (canFlag_kept (updObj_kept hk)) (updObj_kept hk))

theorem unlock_kept {kb : Bool} {s0 s : State} {c o : Nat} {clears : Bool} (hk : Kept kb s0 s) : Kept kb s0 (unlock s c o clears) := by
  unfold unlock
  dsimp only
  split
  · exact putFrame_kept (updObj_kept hk)
  · exact updObj_kept hk

theorem execCanLockRelease_kept {kb : Bool} {s0 : State} {c : Fin 4} {o : Fin 128} {by_ : CanReader} {s : State} (hk : Kept kb s0 s) :
    Answers kb s0 (execCanLockRelease c o by_ s) := Answers.ite (Answers.next (unlock_kept hk)) (Answers.next hk)

theorem execCanLockTimeout_kept {kb : Bool} {s0 : State} {c : Fin 4} {o : Fin 128} {s : State} (hk : Kept kb s0 s) : Answers kb s0
    (execCanLockTimeout c o s) := Answers.ite (Answers.next (canSet_kept (unlock_kept hk))) (Answers.next hk)

/-- An entry stored in a submission ring that CAN or Adexia feeds. -/
theorem feedRing_kept {kb : Bool} {s0 s : State} {n : Nat} {entry : List Byte} (hk : Kept kb s0 s) : Kept kb s0 (feedRing s n entry) :=
  hk.io rfl rfl rfl rfl rfl rfl rfl fun m => memWrite_wf _ m

theorem canDescriptor_kept {kb : Bool} {s0 s : State} {c : Nat} {f : CanFrame} (hk : Kept kb s0 s) : Kept kb s0 (canDescriptor s c f) :=
    by
  unfold canDescriptor
  refine Kept.ite (canSet_kept hk) ?_
  split
  · exact Kept.ite (recCan_kept (canSet_kept hk)) (feedRing_kept hk)
  · exact recCan_kept (canSet_kept hk)

theorem canReceive_kept {kb : Bool} {s0 s : State} {c : Nat} {f : CanFrame} (hk : Kept kb s0 s) : Kept kb s0 (canReceive s c f) := by
  unfold canReceive
  refine Kept.ite hk ?_
  split
  · exact hk
  · exact Kept.ite (canDescriptor_kept (snoop_kept (storeFrame_kept hk))) (snoop_kept (storeFrame_kept hk))

theorem execCanFrameReceived_kept {kb : Bool} {s0 : State} {c : Fin 4} {f : CanFrame} {s : State} (hk : Kept kb s0 s) : Answers kb s0
    (execCanFrameReceived c f s) := Answers.ite (Answers.next hk) (Answers.ite (Answers.next (canError_kept (updCan_kept hk)))
    (Answers.next (canReceive_kept (canGood_kept (updCan_kept hk)))))

theorem execCanMessageWordTimeout_kept {kb : Bool} {s0 : State} {c : Fin 4} {o : Fin 128} {s : State} (hk : Kept kb s0 s) : Answers kb
    s0 (execCanMessageWordTimeout c o s) := Answers.ite (Answers.next (recCan_kept (canSet_kept (putMsg_kept hk)))) (Answers.next hk)

theorem consume_kept {kb : Bool} {s0 s : State} {n k : Nat} (hk : Kept kb s0 s) : Kept kb s0 (consume s n k) := Kept.of_mk hk rfl rfl
    rfl (by simp) rfl rfl rfl rfl

theorem cmdtxEnd_kept {kb : Bool} {s0 s : State} {c o : Nat} {sent : Bool} (hk : Kept kb s0 s) : Kept kb s0 (cmdtxEnd s c o sent) := by
  unfold cmdtxEnd
  refine Kept.ite hk ?_
  refine Kept.ite ?_ (updCan_kept hk)
  dsimp only
  split
  · exact Kept.ite (consume_kept (updCan_kept hk)) (updCan_kept hk)
  · exact updCan_kept hk

theorem failAttempt_kept {kb : Bool} {s0 s : State} {c o : Nat} (hk : Kept kb s0 s) : Kept kb s0 (failAttempt s c o) := Kept.ite
    (cmdtxEnd_kept (canFlag_kept (updObj_kept hk))) (updObj_kept hk)

theorem loopBack_kept {kb : Bool} {s0 s : State} {c o : Nat} {t : State} (hk : Kept kb s0 s) (h_t : Kept kb s0 t) : Kept kb s0 (loopBack
    s c o t) := Kept.ite (canReceive_kept (freeTaken_kept h_t)) h_t

theorem execCanTxAttemptEnd_kept {kb : Bool} {s0 : State} {c : Fin 4} {o : Fin 128} {how : TxEnd} {s : State} (hk : Kept kb s0 s) :
    Answers kb s0 (execCanTxAttemptEnd c o how s) := by
  unfold execCanTxAttemptEnd
  refine Answers.ite (Answers.next hk) ?_
  dsimp only
  split
  · exact Answers.next (loopBack_kept (updCan_kept hk) (cmdtxEnd_kept (canGood_kept (updObj_kept (updCan_kept hk)))))
  · exact Answers.next (updObj_kept (updCan_kept hk))
  · exact Answers.next (failAttempt_kept (canSet_kept (updCan_kept hk)))
  · exact Answers.next (failAttempt_kept (updCan_kept hk))

theorem execCanPeriodRequest_kept {kb : Bool} {s0 : State} {c : Fin 4} {o : Fin 128} {s : State} (hk : Kept kb s0 s) : Answers kb s0
    (execCanPeriodRequest c o s) := Answers.ite (Answers.next hk) (Answers.ite (Answers.next (updCan_kept hk)) (Answers.next
    (updObj_kept hk)))

theorem requestCpl_kept {kb : Bool} {s0 s : State} {c n : Nat} (hk : Kept kb s0 s) : Kept kb s0 (requestCpl s c n) := updObj_kept
    (updCan_kept hk)

theorem execCanCompletionSend_kept {kb : Bool} {s0 : State} {c : Fin 4} {s : State} (hk : Kept kb s0 s) : Answers kb s0
    (execCanCompletionSend c s) := by
  unfold execCanCompletionSend
  split
  · exact Answers.ite (Answers.next (requestCpl_kept hk)) (Answers.next hk)
  · exact Answers.next hk

theorem execCanCompletionRetry_kept {kb : Bool} {s0 : State} {c : Fin 4} {s : State} (hk : Kept kb s0 s) : Answers kb s0
    (execCanCompletionRetry c s) := by
  unfold execCanCompletionRetry
  split
  · exact Answers.ite (Answers.next (requestCpl_kept hk)) (Answers.next hk)
  · exact Answers.next hk

theorem execCfgCanCtrl_kept {kb : Bool} {s0 : State} {r : Req} {s : State} (hk : Kept kb s0 s) : Answers kb s0 (execCfgCanCtrl r s) :=
    Answers.next (runJob_kept hk (guardSt_kept (guardSt_kept (ok_kept (updCan_kept hk)))))

theorem execCfgCanMobj_kept {kb : Bool} {s0 : State} {r : Req} {s : State} (hk : Kept kb s0 s) : Answers kb s0 (execCfgCanMobj r s) :=
    Answers.next (runJob_kept hk (guardSt_kept (guardSt_kept (ok_kept (Kept.foldl hk fun _ _ hu => updObj_kept hu)))))

theorem execCfgCanTxdata_kept {kb : Bool} {s0 : State} {r : Req} {s : State} (hk : Kept kb s0 s) : Answers kb s0 (execCfgCanTxdata r s)
    := Answers.next (runJob_kept hk (guardSt_kept (ok_kept (updObj_kept hk))))

theorem execCfgCanRecover_kept {kb : Bool} {s0 : State} {r : Req} {s : State} (hk : Kept kb s0 s) : Answers kb s0 (execCfgCanRecover r
    s) := Answers.next (runJob_kept hk (guardSt_kept (guardSt_kept (ok_kept (updCan_kept hk)))))

theorem execCfgCanStatusClr_kept {kb : Bool} {s0 : State} {r : Req} {s : State} (hk : Kept kb s0 s) : Answers kb s0 (execCfgCanStatusClr
    r s) := Answers.next (runJob_kept hk (guardSt_kept (ok_kept (updCan_kept hk))))

theorem updAdx_kept {kb : Bool} {s0 s : State} {f : Adx → Adx} (hk : Kept kb s0 s) : Kept kb s0 (updAdx s f) := Kept.of_mk hk rfl rfl
    rfl rfl rfl rfl rfl rfl

theorem updPort_kept {kb : Bool} {s0 s : State} {p : Nat} {f : AdxPort → AdxPort} (hk : Kept kb s0 s) : Kept kb s0 (updPort s p f) :=
    updAdx_kept hk

theorem recPort_kept {kb : Bool} {s0 s : State} {p : Nat} {code : W16} (hk : Kept kb s0 s) : Kept kb s0 (recPort s p code) :=
    record_kept hk

theorem recAdx_kept {kb : Bool} {s0 s : State} {unit : Nat} {code : W16} (hk : Kept kb s0 s) : Kept kb s0 (recAdx s unit code) :=
    record_kept hk

theorem recTim_kept {kb : Bool} {s0 s : State} {code : W16} (hk : Kept kb s0 s) : Kept kb s0 (recTim s code) := record_kept hk

theorem portFlag_kept {kb : Bool} {s0 s : State} {p i : Nat} {code : W16} (hk : Kept kb s0 s) : Kept kb s0 (portFlag s p i code) :=
    Kept.ite (updPort_kept hk) (recPort_kept (updPort_kept hk))

theorem adxSet_kept {kb : Bool} {s0 s : State} {i : Nat} (hk : Kept kb s0 s) : Kept kb s0 (adxSet s i) := updAdx_kept hk

theorem execPortLinkChange_kept {kb : Bool} {s0 : State} {p : Fin 2} {up : Bool} {s : State} (hk : Kept kb s0 s) : Answers kb s0
    (execPortLinkChange p up s) := Answers.ite (Answers.next (updPort_kept hk)) (Answers.next (Kept.ite (recPort_kept (updPort_kept
    (updPort_kept hk))) (recAdx_kept (recPort_kept (updPort_kept (updPort_kept hk))))))

theorem sendFrames_kept {kb : Bool} {s0 s : State} {l : List (Nat × BitVec 48 × List Byte)} (hk : Kept kb s0 s) :
    Kept kb s0 (sendFrames s l) := by
  unfold sendFrames; exact updAdx_kept hk

theorem execSupervisionSend_kept {kb : Bool} {s0 s : State} (hk : Kept kb s0 s) : Answers kb s0 (execSupervisionSend s) := Answers.ite
    (Answers.next (sendFrames_kept hk)) (Answers.next hk)

theorem setGm_kept {kb : Bool} {s0 s : State} {gm : W64} (hk : Kept kb s0 s) : Kept kb s0 (setGm s gm) := Kept.ite (recTim_kept
    (updAdx_kept hk)) (updAdx_kept hk)

theorem ptpArrives_kept {kb : Bool} {s0 s : State} {p : Nat} {b : List Byte} (hk : Kept kb s0 s) : Kept kb s0 (ptpArrives s p b) :=
    Kept.ite (updPort_kept (freeTaken_kept (updPort_kept hk))) (updPort_kept hk)

theorem execPtpSyncInterval_kept {kb : Bool} {s0 : State} {p : Fin 2} {s : State} (hk : Kept kb s0 s) : Answers kb s0
    (execPtpSyncInterval p s) := Answers.ite (Answers.next hk) (Answers.ite (Answers.ite (Answers.next (setGm_kept (updAdx_kept
    (freeTaken_kept (freeTaken_kept (updAdx_kept (freeTaken_kept hk))))))) (Answers.next (updAdx_kept (freeTaken_kept (freeTaken_kept
    (updAdx_kept (freeTaken_kept hk))))))) (Answers.next (updAdx_kept (updAdx_kept (freeTaken_kept hk)))))

theorem loseSync_kept {kb : Bool} {s0 s : State} (hk : Kept kb s0 s) : Kept kb s0 (loseSync s) := Kept.ite (recTim_kept (updAdx_kept
    hk)) (updAdx_kept hk)

theorem judgeSync_kept {kb : Bool} {s0 s : State} {m : Int} (hk : Kept kb s0 s) : Kept kb s0 (judgeSync s m) := Kept.ite (loseSync_kept
    hk) (updAdx_kept hk)

theorem servo_kept {kb : Bool} {s0 s : State} {m : Int} (hk : Kept kb s0 s) : Kept kb s0 (servo s m) := Kept.ite (Kept.of_mk hk rfl rfl
    rfl rfl rfl rfl rfl rfl) (Kept.ite (Kept.of_mk hk rfl rfl rfl rfl rfl rfl rfl rfl) (recTim_kept (updAdx_kept (Kept.of_mk hk rfl rfl
    rfl rfl rfl rfl rfl rfl))))

theorem execPtpSyncMeasurement_kept {kb : Bool} {s0 : State} {p : Fin 2} {m : Int} {timInc : BitVec 40} {gm : W64} {s : State} (hk :
    Kept kb s0 s) : Answers kb s0 (execPtpSyncMeasurement p m timInc gm s) := Answers.ite (Answers.next hk) (Answers.next
    (judgeSync_kept (servo_kept (Kept.of_mk (setGm_kept (updAdx_kept hk)) rfl rfl rfl rfl rfl rfl rfl rfl))))

theorem execSyncTimeout_kept {kb : Bool} {s0 : State} {otherAlive : Bool} {s : State} (hk : Kept kb s0 s) : Answers kb s0
    (execSyncTimeout otherAlive s) := Answers.ite (Answers.next hk) (Answers.ite (Answers.next (recTim_kept (updAdx_kept hk)))
    (Answers.next (loseSync_kept hk)))

theorem execOneShotOffsetApply_kept {kb : Bool} {s0 s : State} (hk : Kept kb s0 s) : Answers kb s0 (execOneShotOffsetApply s) :=
    Answers.ite (Answers.next (tick_kept hk)) (Answers.next hk)

theorem execCplFrameSend_kept {kb : Bool} {s0 s : State} (hk : Kept kb s0 s) : Answers kb s0 (execCplFrameSend s) := by
  unfold execCplFrameSend
  split
  · exact Answers.next hk
  · exact Answers.ite (Answers.next hk) (Answers.next (consume_kept (sendFrames_kept hk)))

theorem execAdexiaMsgTimeout_kept {kb : Bool} {s0 : State} {k : Fin 8} {s : State} (hk : Kept kb s0 s) : Answers kb s0
    (execAdexiaMsgTimeout k s) := Answers.ite (Answers.next (recAdx_kept (adxSet_kept (putMsg_kept hk)))) (Answers.next hk)

theorem execMissingDuplicateTimeout_kept {kb : Bool} {s0 : State} {p : Fin 2} {s : State} (hk : Kept kb s0 s) : Answers kb s0
    (execMissingDuplicateTimeout p s) := by
  unfold execMissingDuplicateTimeout
  dsimp only
  split
  · exact Answers.next hk
  · exact Answers.ite (Answers.next hk) (Answers.next (Kept.ite (recPort_kept (updPort_kept (updPort_kept hk))) (updPort_kept
      (updPort_kept hk))))

theorem execCfgAdxCtrl_kept {kb : Bool} {s0 : State} {r : Req} {s : State} (hk : Kept kb s0 s) : Answers kb s0 (execCfgAdxCtrl r s) :=
  Answers.next (runJob_kept hk (guardSt_kept (guardSt_kept (ok_kept
    (Kept.of_mk hk rfl (by dsimp only; split <;> rfl) rfl rfl rfl rfl rfl rfl)))))

theorem execCfgAdxMw_kept {kb : Bool} {s0 : State} {r : Req} {s : State} (hk : Kept kb s0 s) : Answers kb s0 (execCfgAdxMw r s) :=
    Answers.next (runJob_kept hk (guardSt_kept (ok_kept (updAdx_kept hk))))

theorem execCfgAdxTimeCfg_kept {kb : Bool} {s0 : State} {r : Req} {s : State} (hk : Kept kb s0 s) : Answers kb s0 (execCfgAdxTimeCfg r
    s) := Answers.next (runJob_kept hk (guardSt_kept (guardSt_kept (ok_kept (Kept.of_mk hk rfl rfl rfl rfl rfl rfl rfl rfl)))))

theorem execCfgAdxTimeSet_kept {kb : Bool} {s0 : State} {r : Req} {s : State} (hk : Kept kb s0 s) : Answers kb s0 (execCfgAdxTimeSet r
    s) := Answers.next (runJob_kept hk (guardSt_kept (guardSt_kept (ok_kept (Kept.of_mk hk rfl rfl rfl rfl rfl rfl rfl rfl)))))

theorem execCfgAdxTimeAdj_kept {kb : Bool} {s0 : State} {r : Req} {s : State} (hk : Kept kb s0 s) : Answers kb s0 (execCfgAdxTimeAdj r
    s) := Answers.ite (Answers.next (runJob_kept hk (guardSt_kept (guardSt_kept (ok_kept (Kept.of_mk hk rfl rfl rfl rfl rfl rfl rfl
    rfl)))))) (Answers.next (runJob_kept hk (guardSt_kept (guardSt_kept (ok_kept (Kept.of_mk hk rfl rfl rfl rfl rfl rfl rfl rfl))))))

theorem adxClear_kept {kb : Bool} {s0 s : State} {k m : Nat} (hk : Kept kb s0 s) : Kept kb s0 (adxClear s k m) := Kept.ite (updAdx_kept
    hk) (Kept.ite (updPort_kept hk) (updAdx_kept hk))

theorem execCfgAdxStatusClr_kept {kb : Bool} {s0 : State} {r : Req} {s : State} (hk : Kept kb s0 s) : Answers kb s0 (execCfgAdxStatusClr
    r s) := Answers.next (runJob_kept hk (guardSt_kept (ok_kept (adxClear_kept hk))))

theorem updCrd_kept {kb : Bool} {s0 s : State} {f : Crd → Crd} (hk : Kept kb s0 s) : Kept kb s0 (updCrd s f) := Kept.of_mk hk rfl rfl
    rfl rfl rfl rfl rfl rfl

theorem recCrd_kept {kb : Bool} {s0 s : State} {code : W16} (hk : Kept kb s0 s) : Kept kb s0 (recCrd s code) := record_kept hk

theorem crdSet_kept {kb : Bool} {s0 s : State} {i : Nat} (hk : Kept kb s0 s) : Kept kb s0 (crdSet s i) := updCrd_kept hk

theorem crdFlag_kept {kb : Bool} {s0 s : State} {i : Nat} {code : W16} (hk : Kept kb s0 s) : Kept kb s0 (crdFlag s i code) :=
    recCrd_kept (crdSet_kept hk)

theorem split_kept {kb : Bool} {s0 s : State} {cycle : W32} (hk : Kept kb s0 s) : Kept kb s0 (split s cycle) := Kept.of_mk (updCrd_kept
    hk) rfl rfl rfl rfl rfl rfl rfl rfl

theorem takeSections_kept {kb : Bool} {s0 s : State} {node : Nat} {own : Bool} {p : List Byte} (hk : Kept kb s0 s) : Kept kb s0
    (takeSections s node own p) := Kept.ite (updCrd_kept (Kept.ite (updCrd_kept (Kept.ite (updCrd_kept (Kept.ite (updCrd_kept hk) hk))
    (Kept.ite (updCrd_kept hk) hk))) (Kept.ite (updCrd_kept (Kept.ite (updCrd_kept hk) hk)) (Kept.ite (updCrd_kept hk) hk)))) (Kept.ite
    (updCrd_kept (Kept.ite (updCrd_kept (Kept.ite (updCrd_kept hk) hk)) (Kept.ite (updCrd_kept hk) hk))) (Kept.ite (updCrd_kept
    (Kept.ite (updCrd_kept hk) hk)) (Kept.ite (updCrd_kept hk) hk)))

theorem takeAlloc_kept {kb : Bool} {s0 s : State} {node : Nat} {p : List Byte} (hk : Kept kb s0 s) : Kept kb s0 (takeAlloc s node p) :=
    Kept.ite (takeSections_kept hk) hk

theorem fence_kept {kb : Bool} {s0 s : State} (hk : Kept kb s0 s) : Kept kb s0 (fence s) := Kept.ite (crdFlag_kept (updCrd_kept hk)) hk

theorem takeOffice_kept {kb : Bool} {s0 s : State} (hk : Kept kb s0 s) : Kept kb s0 (takeOffice s) := Kept.ite (updCrd_kept (fence_kept
    (updCrd_kept hk))) (updCrd_kept (fence_kept (updCrd_kept hk)))

theorem appoint_kept {kb : Bool} {s0 s : State} (hk : Kept kb s0 s) : Kept kb s0 (appoint s) := by
  unfold appoint
  split
  · exact hk
  · exact Kept.ite (recCrd_kept (updCrd_kept (Kept.of_mk hk rfl rfl rfl rfl rfl rfl rfl rfl))) (updCrd_kept (Kept.of_mk hk rfl rfl rfl
      rfl rfl rfl rfl rfl))

theorem adxCommit_kept {kb : Bool} {s0 s : State} (hk : Kept kb s0 s) : Kept kb s0 (adxCommit s) := by
  unfold adxCommit
  split
  · exact hk
  · exact updAdx_kept hk

theorem queueAlloc_kept {kb : Bool} {s0 s : State} (hk : Kept kb s0 s) : Kept kb s0 (queueAlloc s) := takeSections_kept (Kept.ite
    (freeTaken_kept hk) (sendFrames_kept (freeTaken_kept hk)))

theorem countStart_kept {kb : Bool} {s0 s : State} (hk : Kept kb s0 s) : Kept kb s0 (countStart s) := updCrd_kept hk

theorem execAllocCycleInstant_kept {kb : Bool} {s0 s : State} (hk : Kept kb s0 s) : Answers kb s0 (execAllocCycleInstant s) :=
    Answers.ite (Answers.next (adxCommit_kept hk)) (Answers.next (queueAlloc_kept (Kept.ite (appoint_kept (countStart_kept (Kept.ite
    (split_kept (takeOffice_kept (updCrd_kept (adxCommit_kept hk)))) (takeOffice_kept (updCrd_kept (adxCommit_kept hk)))))) (Kept.ite
    (split_kept (takeOffice_kept (updCrd_kept (adxCommit_kept hk)))) (takeOffice_kept (updCrd_kept (adxCommit_kept hk)))))))

theorem writeAslot_kept {kb : Bool} {s0 s : State} {m : Nat} {v : W18} (hk : Kept kb s0 s) : Kept kb s0 (writeAslot s m v) :=
    deliver_kept (freeTaken_kept hk)

theorem applyAlloc_kept {kb : Bool} {s0 s : State} {a : AllocSec} (hk : Kept kb s0 s) : Kept kb s0 (applyAlloc s a) := by
  unfold applyAlloc
  exact updCrd_kept (Kept.foldl hk fun _ _ hu => writeAslot_kept (freeTaken_kept hu))

theorem missAlloc_kept {kb : Bool} {s0 s : State} (hk : Kept kb s0 s) : Kept kb s0 (missAlloc s) := Kept.ite (recCrd_kept (updCrd_kept
    (Kept.ite (crdSet_kept (updCrd_kept hk)) (Kept.foldl (crdSet_kept (updCrd_kept hk)) fun _ _ hu => writeAslot_kept hu))))
    (crdSet_kept (updCrd_kept hk))

theorem memberLatch_kept {kb : Bool} {s0 s : State} {l : List AllocSec} (hk : Kept kb s0 s) : Kept kb s0 (memberLatch s l) := by
  unfold memberLatch
  dsimp only
  split
  · exact applyAlloc_kept (Kept.ite (crdFlag_kept (updCrd_kept hk)) (updCrd_kept hk))
  · exact missAlloc_kept (Kept.ite (crdFlag_kept (updCrd_kept hk)) (updCrd_kept hk))

theorem willAppoint_kept {kb : Bool} {s0 s : State} {n : Nat} (hk : Kept kb s0 s) : Kept kb s0 (willAppoint s n) := updCrd_kept hk

theorem arbiterLatch_kept {kb : Bool} {s0 s : State} {reps : List Report} {allocs : List AllocSec} (hk : Kept kb s0 s) : Kept kb s0
    (arbiterLatch s reps allocs) := by
  unfold arbiterLatch
  split
  · exact hk
  · refine Kept.ite ?_ (Kept.ite (Kept.ite (willAppoint_kept (crdFlag_kept (updCrd_kept (updCrd_kept hk)))) (crdFlag_kept (crdFlag_kept
      (updCrd_kept (updCrd_kept hk))))) (Kept.ite (willAppoint_kept (updCrd_kept hk)) (updCrd_kept hk)))
    split
    · exact willAppoint_kept hk
    · exact hk

theorem execAllocLatch_kept {kb : Bool} {s0 s : State} (hk : Kept kb s0 s) : Answers kb s0 (execAllocLatch s) := Answers.ite
    (Answers.next hk) (Answers.next (Kept.ite (arbiterLatch_kept (Kept.ite (memberLatch_kept (fence_kept (updCrd_kept hk))) (fence_kept
    (updCrd_kept hk)))) (Kept.ite (memberLatch_kept (fence_kept (updCrd_kept hk))) (fence_kept (updCrd_kept hk)))))

theorem execStateCopySend_kept {kb : Bool} {s0 s : State} (hk : Kept kb s0 s) : Answers kb s0 (execStateCopySend s) := Answers.ite
    (Answers.next (updCrd_kept hk)) (Answers.next hk)

theorem execStateCopyReceived_kept {kb : Bool} {s0 : State} {b : List Byte} {s : State} (hk : Kept kb s0 s) : Answers kb s0
    (execStateCopyReceived b s) := Answers.ite (Answers.next hk) (Answers.ite (Answers.next (updCrd_kept hk)) (Answers.next (updCrd_kept
    hk)))

theorem execPairLinkTimeout_kept {kb : Bool} {s0 s : State} (hk : Kept kb s0 s) : Answers kb s0 (execPairLinkTimeout s) := Answers.ite
    (Answers.next (crdFlag_kept (updCrd_kept hk))) (Answers.next hk)

theorem execArbiterStartupAppoint_kept {kb : Bool} {s0 s : State} (hk : Kept kb s0 s) : Answers kb s0 (execArbiterStartupAppoint s) :=
    Answers.ite (Answers.ite (Answers.next (willAppoint_kept hk)) (Answers.next (willAppoint_kept hk))) (Answers.next hk)

theorem execCfgCrdCfg_kept {kb : Bool} {s0 : State} {r : Req} {s : State} (hk : Kept kb s0 s) : Answers kb s0 (execCfgCrdCfg r s) :=
    Answers.next (runJob_kept hk (guardSt_kept (guardSt_kept (ok_kept (updCrd_kept hk)))))

theorem execCfgCrdPar_kept {kb : Bool} {s0 : State} {r : Req} {s : State} (hk : Kept kb s0 s) : Answers kb s0 (execCfgCrdPar r s) :=
    Answers.next (runJob_kept hk (guardSt_kept (guardSt_kept (ok_kept (updCrd_kept hk)))))

theorem execCfgCrdStatusClr_kept {kb : Bool} {s0 : State} {r : Req} {s : State} (hk : Kept kb s0 s) : Answers kb s0 (execCfgCrdStatusClr
    r s) := Answers.next (runJob_kept hk (guardSt_kept (ok_kept (updCrd_kept hk))))

theorem countBad_kept {kb : Bool} {s0 s : State} {p : Nat} (hk : Kept kb s0 s) : Kept kb s0 (countBad s p) := updPort_kept hk

theorem discardDup_kept {kb : Bool} {s0 s : State} {p : Nat} {mac : BitVec 48} {q : Nat} (hk : Kept kb s0 s) : Kept kb s0 (discardDup s
    p mac q).2 := by
  unfold discardDup
  dsimp only
  split
  · split
    · exact updPort_kept (updAdx_kept hk)
    · exact updPort_kept hk
  · split
    · exact updPort_kept (updAdx_kept hk)
    · exact updPort_kept (updPort_kept (updAdx_kept hk))
    · exact updPort_kept (updAdx_kept hk)

theorem police_kept {kb : Bool} {s0 s : State} {p : Nat} (hk : Kept kb s0 s) : Kept kb s0 (police s p).2 := by
  simp only [police]
  generalize (if (s.adx.ports.at p).window = s.clk.sec.toNat * 1000 + s.clk.ns.toNat / 1000000 then (s.adx.ports.at p).taken else 0) = n
  split
  · exact updPort_kept hk
  · exact portFlag_kept (updPort_kept hk)

theorem msgEntry_kept {kb : Bool} {s0 : State} {src : Nat} {pl : List Byte} {s : State} {k : Nat} (hk : Kept kb s0 s) : Kept kb s0
    (msgEntry src pl s k) := by
  unfold msgEntry
  refine Kept.ite ?_ hk
  split
  · exact putMsg_kept hk
  · exact adxSet_kept hk

theorem cmdFrame_kept {kb : Bool} {s0 s : State} {p src : Nat} {pl : List Byte} (hk : Kept kb s0 s) : Kept kb s0 (cmdFrame s p src pl)
    := by
  unfold cmdFrame
  refine Kept.ite hk ?_
  refine Kept.ite (countBad_kept hk) ?_
  dsimp only
  split
  · exact Kept.ite (recAdx_kept (adxSet_kept hk)) (Kept.foldl hk fun _ _ hu => feedRing_kept hu)
  · exact recAdx_kept (adxSet_kept hk)

theorem adexiaFrame_kept {kb : Bool} {s0 s : State} {p : Nat} {b : List Byte} (hk : Kept kb s0 s) : Kept kb s0 (adexiaFrame s p b) := by
  have k := police_kept (p := p) hk
  unfold adexiaFrame
  refine Kept.ite hk (Kept.ite (Kept.ite (takeAlloc_kept hk) hk) (Kept.ite (Kept.ite hk ?_) hk))
  generalize police s p = q at k
  rcases q with ⟨_ | _, t⟩
  · exact k
  · exact Kept.ite (Kept.foldl k fun _ _ hu => msgEntry_kept hu) (cmdFrame_kept k)

theorem adexiaArrives_kept {kb : Bool} {s0 s : State} {p : Nat} {f : EthFrame} (hk : Kept kb s0 s) : Kept kb s0 (adexiaArrives s p f) := by
  unfold adexiaArrives
  dsimp only
  split
  · rename_i r _
    have k := discardDup_kept (p := p) (mac := f.srcMac) (q := r.seq % 65536) (Kept.ite (c := (r.lan == 0xB - p) = true)
      (updPort_kept (p := p) (f := fun x => { x with flags := setBit x.flags 3 true }) hk) hk)
    generalize discardDup _ _ _ _ = q at k ⊢
    refine Kept.ite ?_ (adexiaFrame_kept (snoop_kept (updPort_kept (Kept.ite (updPort_kept hk) hk))))
    rcases q with ⟨_ | _, t⟩
    · exact k
    · exact adexiaFrame_kept (snoop_kept k)
  · exact adexiaFrame_kept (snoop_kept (updPort_kept hk))

theorem execAdexiaFrameReceived_kept {kb : Bool} {s0 : State} {p : Fin 2} {f : EthFrame} {s : State} (hk : Kept kb s0 s) : Answers kb s0
    (execAdexiaFrameReceived p f s) := by
  unfold execAdexiaFrameReceived
  refine Answers.ite (Answers.next hk) ?_
  refine Answers.ite (Answers.ite (Answers.next (Kept.ite (recAdx_kept (adxSet_kept hk)) hk)) (Answers.ite (Answers.next (countBad_kept
    (Kept.ite (recAdx_kept (adxSet_kept hk)) hk))) (Answers.next (adexiaArrives_kept (Kept.ite (recAdx_kept (adxSet_kept hk)) hk))))) ?_
  refine Answers.ite (Answers.next (Kept.ite (ptpArrives_kept (Kept.ite (recAdx_kept (adxSet_kept hk)) hk)) (Kept.ite (recAdx_kept
    (adxSet_kept hk)) hk))) ?_
  refine Answers.ite ?_ (Answers.next (countBad_kept (Kept.ite (recAdx_kept (adxSet_kept hk)) hk)))
  split
  · exact Answers.next (discardDup_kept (Kept.ite (recAdx_kept (adxSet_kept hk)) hk))
  · exact Answers.next (updPort_kept (Kept.ite (recAdx_kept (adxSet_kept hk)) hk))

end Sys2Proof.Machine
end

