-- ==== Sys2Proof/Laws/KeptQuery.lean ====
section
/-! SUPPORT. One lemma per operation: what injections and queries keep. -/

namespace Sys2Proof.Machine

theorem injectLockout_kept {kb : Bool} {s0 s : State} {ch : Nat} (hk : Kept kb s0 s) : Kept kb s0 (injectLockout s ch) := Kept.ite hk
    (updGdv_kept (channelLost_kept (updGdv_kept hk)))

theorem injectDesat_kept {kb : Bool} {s0 s : State} {ch : Nat} (hk : Kept kb s0 s) : Kept kb s0 (injectDesat s ch) := Kept.ite hk
    (Kept.ite (phaseDesat_kept (recGdv_kept (updGdv_kept hk))) (Kept.ite (chopperFault_kept (recGdv_kept (updGdv_kept hk))) (recGdv_kept
    (updGdv_kept hk))))

theorem injectTrip_kept {kb : Bool} {s0 s : State} {i : Nat} (hk : Kept kb s0 s) : Kept kb s0 (injectTrip s i) := assertTrip_kept
    (recDsm_kept (updDsm_kept hk))

theorem injectReading_kept {kb : Bool} {s0 s : State} {n : Nat} {v : Int} (hk : Kept kb s0 s) : Kept kb s0 (injectReading s n v) := by
  have k : Kept kb s (throttle (sensorWindow (sensorWindow s n (s.thm.count.at n + 1) v) n (s.thm.count.at n + 2) v)) :=
    throttle_kept (sensorWindow_kept (sensorWindow_kept (Kept.refl s)))
  exact hk.trans ⟨rfl, rfl, fun _ => rfl, fun m => m.of_fields (k.mem m).qsram rfl rfl rfl rfl⟩

theorem injectAt_kept {kb : Bool} {s0 s : State} {target inst arg : Nat} (hk : Kept kb s0 s) : Kept kb s0 (injectAt s target inst arg)
    := by
  unfold injectAt
  split
  · exact injectLockout_kept hk
  · exact injectDesat_kept hk
  · exact injectTrip_kept hk
  · exact Kept.ite hk (ovReact_kept hk)
  · exact Kept.ite hk (uvReact_kept hk)
  · exact rmemDouble_kept hk
  · exact injectReading_kept hk

theorem inject_kept {kb : Bool} {s0 s : State} {target inst arg : Nat} (hk : Kept kb s0 s) : Kept kb s0 (inject s target inst arg) := by
  have k : Kept kb s0 (injectAt { s with io := { s.io with inj := true } } target inst arg) :=
    injectAt_kept (hk.same rfl rfl rfl rfl rfl rfl rfl rfl)
  unfold inject
  dsimp only
  generalize injectAt _ target inst arg = t at k
  have k' : Kept kb s0 { t with io := { t.io with inj := s.io.inj } } := k.same rfl rfl rfl rfl rfl rfl rfl rfl
  exact Kept.ite (updPrt_kept k') k'

theorem injectMismatch_kept {kb : Bool} {s0 s : State} {group : Nat} (hk : Kept kb s0 s) : Kept kb s0 (injectMismatch s group) :=
    blkStep_kept (Kept.of_mk (freeTaken_kept (freeTaken_kept hk)) rfl rfl rfl rfl rfl rfl rfl rfl) (updIcp_kept (Kept.of_mk
    (freeTaken_kept (freeTaken_kept hk)) rfl rfl rfl rfl rfl rfl rfl rfl))

theorem execDiaInject_kept {kb : Bool} {s0 : State} {r : Req} {reactNs : W32} {s : State} (hk : Kept kb s0 s) : Answers kb s0
    (execDiaInject r reactNs s) := Answers.ite (Answers.next (injectMismatch_kept (runJob_kept hk (guardSt_kept (guardSt_kept
    (Done.Kept.ite (ok_kept hk) (Done.Kept.done (inject_kept hk)))))))) (Answers.next (runJob_kept hk (guardSt_kept (guardSt_kept
    (Done.Kept.ite (ok_kept hk) (Done.Kept.done (inject_kept hk)))))))

theorem execQryState_kept {kb : Bool} {s0 : State} {r : Req} {s : State} (hk : Kept kb s0 s) : Answers kb s0 (execQryState r s) :=
    Answers.next (runJob_kept hk (guardSt_kept (Done.Kept.done hk)))

theorem execQryStatus_kept {kb : Bool} {s0 : State} {r : Req} {s : State} (hk : Kept kb s0 s) : Answers kb s0 (execQryStatus r s) :=
    Answers.next (runJob_kept hk (guardSt_kept (Done.Kept.done hk)))

theorem lawConstsTaken_kept {kb : Bool} {s0 s : State} {c : Nat} (hk : Kept kb s0 s) : Kept kb s0 (lawConstsTaken s c) := Kept.of_mk hk
    rfl rfl rfl rfl rfl rfl rfl rfl

theorem execQryConfig_kept {kb : Bool} {s0 : State} {r : Req} {s : State} (hk : Kept kb s0 s) : Answers kb s0 (execQryConfig r s) := by
  unfold execQryConfig
  refine Answers.next ?_
  refine runJob_kept hk ?_
  split
  · exact Done.Kept.refuse
  · exact guardSt_kept (Done.Kept.ite (Done.Kept.ite (Done.Kept.done hk) Done.Kept.refuse) (Done.Kept.done (Kept.ite
      (lawConstsTaken_kept hk) (Kept.ite (freeTaken_kept hk) hk))))

theorem readChks_kept {kb : Bool} {s0 s : State} (hk : Kept kb s0 s) : Kept kb s0 (readChks s) := Kept.foldl hk fun _ _ hu =>
    putChk_kept hu

theorem readObj_kept {kb : Bool} {s0 s : State} {c o : Nat} (hk : Kept kb s0 s) : Kept kb s0 (readObj s c o).2 :=
  unlock_kept (Kept.ite (unlock_kept hk) hk)

theorem readObjs_kept {kb : Bool} {s0 s : State} {c first n : Nat} (hk : Kept kb s0 s) : Kept kb s0 (readObjs s c first n).2 := by
  induction n with
  | zero => exact hk
  | succ n ih => exact readObj_kept ih

theorem telCan_kept {kb : Bool} {s0 s : State} {c first n : Nat} (hk : Kept kb s0 s) : Kept kb s0 (telCan s c first n).2 := readObjs_kept hk

/-- Reading telemetry takes free values and unlocks objects, and no more. -/
theorem telemetry_kept {kb : Bool} {s0 s : State} {sel first n : Nat} {q : List Byte × State} (hk : Kept kb s0 s)
    (e : telemetry s sel first n = some q) : Kept kb s0 q.2 := by
  unfold telemetry at e
  split at e <;> first
    | (cases e; first
        | exact hk
        | exact freeTaken_kept (freeTaken_kept hk)
        | exact telCan_kept hk
        | exact readChks_kept hk)
    | exact nomatch e

theorem execQryTelemetry_kept {kb : Bool} {s0 : State} {r : Req} {s : State} (hk : Kept kb s0 s) : Answers kb s0 (execQryTelemetry r s) := by
  unfold execQryTelemetry
  refine Answers.next (runJob_kept hk (guardSt_kept ?_))
  split
  · exact Done.Kept.done (telemetry_kept hk (by assumption))
  · exact Done.Kept.refuse

end Sys2Proof.Machine
end

