-- ==== Sys2Proof/Laws/State.lean ====
section
/-! SUPPORT. What each named update of the state does to each of its parts: one lemma for each, so that no proof unfolds an update. -/

namespace Sys2Proof.Machine

variable (s : State)

/-! `arrive` changes `drv`. -/

@[simp] theorem arrive_pending (k : EvKind) (cause : W16) : (arrive s k cause).pending = s.pending := rfl
@[simp] theorem arrive_io (k : EvKind) (cause : W16) : (arrive s k cause).io = s.io := rfl
@[simp] theorem arrive_trc (k : EvKind) (cause : W16) : (arrive s k cause).trc = s.trc := rfl
@[simp] theorem arrive_drv (k : EvKind) (cause : W16) :
    (arrive s k cause).drv = { s.drv with events := s.drv.events ++ [⟨k, cause⟩] } := rfl
@[simp] theorem arrive_clk (k : EvKind) (cause : W16) : (arrive s k cause).clk = s.clk := rfl
@[simp] theorem arrive_aon (k : EvKind) (cause : W16) : (arrive s k cause).aon = s.aon := rfl
@[simp] theorem arrive_nv (k : EvKind) (cause : W16) : (arrive s k cause).nv = s.nv := rfl
@[simp] theorem arrive_boot (k : EvKind) (cause : W16) : (arrive s k cause).boot = s.boot := rfl
@[simp] theorem arrive_sup (k : EvKind) (cause : W16) : (arrive s k cause).sup = s.sup := rfl
@[simp] theorem arrive_icp (k : EvKind) (cause : W16) : (arrive s k cause).icp = s.icp := rfl
@[simp] theorem arrive_thk (k : EvKind) (cause : W16) : (arrive s k cause).thk = s.thk := rfl
@[simp] theorem arrive_chk (k : EvKind) (cause : W16) : (arrive s k cause).chk = s.chk := rfl
@[simp] theorem arrive_saf (k : EvKind) (cause : W16) : (arrive s k cause).saf = s.saf := rfl
@[simp] theorem arrive_thm (k : EvKind) (cause : W16) : (arrive s k cause).thm = s.thm := rfl
@[simp] theorem arrive_prn (k : EvKind) (cause : W16) : (arrive s k cause).prn = s.prn := rfl
@[simp] theorem arrive_pwm (k : EvKind) (cause : W16) : (arrive s k cause).pwm = s.pwm := rfl
@[simp] theorem arrive_gdv (k : EvKind) (cause : W16) : (arrive s k cause).gdv = s.gdv := rfl
@[simp] theorem arrive_prt (k : EvKind) (cause : W16) : (arrive s k cause).prt = s.prt := rfl
@[simp] theorem arrive_acq (k : EvKind) (cause : W16) : (arrive s k cause).acq = s.acq := rfl
@[simp] theorem arrive_pos (k : EvKind) (cause : W16) : (arrive s k cause).pos = s.pos := rfl
@[simp] theorem arrive_dmd (k : EvKind) (cause : W16) : (arrive s k cause).dmd = s.dmd := rfl
@[simp] theorem arrive_can (k : EvKind) (cause : W16) : (arrive s k cause).can = s.can := rfl
@[simp] theorem arrive_adx (k : EvKind) (cause : W16) : (arrive s k cause).adx = s.adx := rfl
@[simp] theorem arrive_crd (k : EvKind) (cause : W16) : (arrive s k cause).crd = s.crd := rfl
@[simp] theorem arrive_free (k : EvKind) (cause : W16) : (arrive s k cause).free = s.free := rfl

/-! `freeTaken` changes `free`. -/

@[simp] theorem freeTaken_pending : (freeTaken s).pending = s.pending := rfl
@[simp] theorem freeTaken_io : (freeTaken s).io = s.io := rfl
@[simp] theorem freeTaken_trc : (freeTaken s).trc = s.trc := rfl
@[simp] theorem freeTaken_drv : (freeTaken s).drv = s.drv := rfl
@[simp] theorem freeTaken_clk : (freeTaken s).clk = s.clk := rfl
@[simp] theorem freeTaken_aon : (freeTaken s).aon = s.aon := rfl
@[simp] theorem freeTaken_nv : (freeTaken s).nv = s.nv := rfl
@[simp] theorem freeTaken_boot : (freeTaken s).boot = s.boot := rfl
@[simp] theorem freeTaken_sup : (freeTaken s).sup = s.sup := rfl
@[simp] theorem freeTaken_icp : (freeTaken s).icp = s.icp := rfl
@[simp] theorem freeTaken_thk : (freeTaken s).thk = s.thk := rfl
@[simp] theorem freeTaken_chk : (freeTaken s).chk = s.chk := rfl
@[simp] theorem freeTaken_saf : (freeTaken s).saf = s.saf := rfl
@[simp] theorem freeTaken_thm : (freeTaken s).thm = s.thm := rfl
@[simp] theorem freeTaken_prn : (freeTaken s).prn = s.prn := rfl
@[simp] theorem freeTaken_pwm : (freeTaken s).pwm = s.pwm := rfl
@[simp] theorem freeTaken_gdv : (freeTaken s).gdv = s.gdv := rfl
@[simp] theorem freeTaken_prt : (freeTaken s).prt = s.prt := rfl
@[simp] theorem freeTaken_acq : (freeTaken s).acq = s.acq := rfl
@[simp] theorem freeTaken_pos : (freeTaken s).pos = s.pos := rfl
@[simp] theorem freeTaken_dmd : (freeTaken s).dmd = s.dmd := rfl
@[simp] theorem freeTaken_can : (freeTaken s).can = s.can := rfl
@[simp] theorem freeTaken_adx : (freeTaken s).adx = s.adx := rfl
@[simp] theorem freeTaken_crd : (freeTaken s).crd = s.crd := rfl
@[simp] theorem freeTaken_free : (freeTaken s).free = s.free + 1 := rfl

/-! `updCtx` changes `thk`. -/

@[simp] theorem updCtx_pending (c : Nat) (f : Ctx → Ctx) : (updCtx s c f).pending = s.pending := rfl
@[simp] theorem updCtx_io (c : Nat) (f : Ctx → Ctx) : (updCtx s c f).io = s.io := rfl
@[simp] theorem updCtx_trc (c : Nat) (f : Ctx → Ctx) : (updCtx s c f).trc = s.trc := rfl
@[simp] theorem updCtx_drv (c : Nat) (f : Ctx → Ctx) : (updCtx s c f).drv = s.drv := rfl
@[simp] theorem updCtx_clk (c : Nat) (f : Ctx → Ctx) : (updCtx s c f).clk = s.clk := rfl
@[simp] theorem updCtx_aon (c : Nat) (f : Ctx → Ctx) : (updCtx s c f).aon = s.aon := rfl
@[simp] theorem updCtx_nv (c : Nat) (f : Ctx → Ctx) : (updCtx s c f).nv = s.nv := rfl
@[simp] theorem updCtx_boot (c : Nat) (f : Ctx → Ctx) : (updCtx s c f).boot = s.boot := rfl
@[simp] theorem updCtx_sup (c : Nat) (f : Ctx → Ctx) : (updCtx s c f).sup = s.sup := rfl
@[simp] theorem updCtx_icp (c : Nat) (f : Ctx → Ctx) : (updCtx s c f).icp = s.icp := rfl
@[simp] theorem updCtx_thk (c : Nat) (f : Ctx → Ctx) : (updCtx s c f).thk = { s.thk with ctxs := s.thk.ctxs.upd c f } := rfl
@[simp] theorem updCtx_chk (c : Nat) (f : Ctx → Ctx) : (updCtx s c f).chk = s.chk := rfl
@[simp] theorem updCtx_saf (c : Nat) (f : Ctx → Ctx) : (updCtx s c f).saf = s.saf := rfl
@[simp] theorem updCtx_thm (c : Nat) (f : Ctx → Ctx) : (updCtx s c f).thm = s.thm := rfl
@[simp] theorem updCtx_prn (c : Nat) (f : Ctx → Ctx) : (updCtx s c f).prn = s.prn := rfl
@[simp] theorem updCtx_pwm (c : Nat) (f : Ctx → Ctx) : (updCtx s c f).pwm = s.pwm := rfl
@[simp] theorem updCtx_gdv (c : Nat) (f : Ctx → Ctx) : (updCtx s c f).gdv = s.gdv := rfl
@[simp] theorem updCtx_prt (c : Nat) (f : Ctx → Ctx) : (updCtx s c f).prt = s.prt := rfl
@[simp] theorem updCtx_acq (c : Nat) (f : Ctx → Ctx) : (updCtx s c f).acq = s.acq := rfl
@[simp] theorem updCtx_pos (c : Nat) (f : Ctx → Ctx) : (updCtx s c f).pos = s.pos := rfl
@[simp] theorem updCtx_dmd (c : Nat) (f : Ctx → Ctx) : (updCtx s c f).dmd = s.dmd := rfl
@[simp] theorem updCtx_can (c : Nat) (f : Ctx → Ctx) : (updCtx s c f).can = s.can := rfl
@[simp] theorem updCtx_adx (c : Nat) (f : Ctx → Ctx) : (updCtx s c f).adx = s.adx := rfl
@[simp] theorem updCtx_crd (c : Nat) (f : Ctx → Ctx) : (updCtx s c f).crd = s.crd := rfl
@[simp] theorem updCtx_free (c : Nat) (f : Ctx → Ctx) : (updCtx s c f).free = s.free := rfl

/-! `updThkCtxs` changes `thk`. -/

@[simp] theorem updThkCtxs_pending (f : Nat → Ctx → Ctx) : (updThkCtxs s f).pending = s.pending := by unfold updThkCtxs; rfl
@[simp] theorem updThkCtxs_io (f : Nat → Ctx → Ctx) : (updThkCtxs s f).io = s.io := by unfold updThkCtxs; rfl
@[simp] theorem updThkCtxs_trc (f : Nat → Ctx → Ctx) : (updThkCtxs s f).trc = s.trc := by unfold updThkCtxs; rfl
@[simp] theorem updThkCtxs_drv (f : Nat → Ctx → Ctx) : (updThkCtxs s f).drv = s.drv := by unfold updThkCtxs; rfl
@[simp] theorem updThkCtxs_clk (f : Nat → Ctx → Ctx) : (updThkCtxs s f).clk = s.clk := by unfold updThkCtxs; rfl
@[simp] theorem updThkCtxs_aon (f : Nat → Ctx → Ctx) : (updThkCtxs s f).aon = s.aon := by unfold updThkCtxs; rfl
@[simp] theorem updThkCtxs_nv (f : Nat → Ctx → Ctx) : (updThkCtxs s f).nv = s.nv := by unfold updThkCtxs; rfl
@[simp] theorem updThkCtxs_boot (f : Nat → Ctx → Ctx) : (updThkCtxs s f).boot = s.boot := by unfold updThkCtxs; rfl
@[simp] theorem updThkCtxs_sup (f : Nat → Ctx → Ctx) : (updThkCtxs s f).sup = s.sup := by unfold updThkCtxs; rfl
@[simp] theorem updThkCtxs_icp (f : Nat → Ctx → Ctx) : (updThkCtxs s f).icp = s.icp := by unfold updThkCtxs; rfl
@[simp] theorem updThkCtxs_thk (f : Nat → Ctx → Ctx) :
    (updThkCtxs s f).thk = { s.thk with ctxs := Vector.ofFn fun i : Fin 160 => f i.val (s.thk.ctxs.at i.val) } := by unfold updThkCtxs; rfl
@[simp] theorem updThkCtxs_chk (f : Nat → Ctx → Ctx) : (updThkCtxs s f).chk = s.chk := by unfold updThkCtxs; rfl
@[simp] theorem updThkCtxs_saf (f : Nat → Ctx → Ctx) : (updThkCtxs s f).saf = s.saf := by unfold updThkCtxs; rfl
@[simp] theorem updThkCtxs_thm (f : Nat → Ctx → Ctx) : (updThkCtxs s f).thm = s.thm := by unfold updThkCtxs; rfl
@[simp] theorem updThkCtxs_prn (f : Nat → Ctx → Ctx) : (updThkCtxs s f).prn = s.prn := by unfold updThkCtxs; rfl
@[simp] theorem updThkCtxs_pwm (f : Nat → Ctx → Ctx) : (updThkCtxs s f).pwm = s.pwm := by unfold updThkCtxs; rfl
@[simp] theorem updThkCtxs_gdv (f : Nat → Ctx → Ctx) : (updThkCtxs s f).gdv = s.gdv := by unfold updThkCtxs; rfl
@[simp] theorem updThkCtxs_prt (f : Nat → Ctx → Ctx) : (updThkCtxs s f).prt = s.prt := by unfold updThkCtxs; rfl
@[simp] theorem updThkCtxs_acq (f : Nat → Ctx → Ctx) : (updThkCtxs s f).acq = s.acq := by unfold updThkCtxs; rfl
@[simp] theorem updThkCtxs_pos (f : Nat → Ctx → Ctx) : (updThkCtxs s f).pos = s.pos := by unfold updThkCtxs; rfl
@[simp] theorem updThkCtxs_dmd (f : Nat → Ctx → Ctx) : (updThkCtxs s f).dmd = s.dmd := by unfold updThkCtxs; rfl
@[simp] theorem updThkCtxs_can (f : Nat → Ctx → Ctx) : (updThkCtxs s f).can = s.can := by unfold updThkCtxs; rfl
@[simp] theorem updThkCtxs_adx (f : Nat → Ctx → Ctx) : (updThkCtxs s f).adx = s.adx := by unfold updThkCtxs; rfl
@[simp] theorem updThkCtxs_crd (f : Nat → Ctx → Ctx) : (updThkCtxs s f).crd = s.crd := by unfold updThkCtxs; rfl
@[simp] theorem updThkCtxs_free (f : Nat → Ctx → Ctx) : (updThkCtxs s f).free = s.free := by unfold updThkCtxs; rfl

/-! `updBlock` changes `thk`. -/

@[simp] theorem updBlock_pending (b : Nat) (f : Block → Block) : (updBlock s b f).pending = s.pending := rfl
@[simp] theorem updBlock_io (b : Nat) (f : Block → Block) : (updBlock s b f).io = s.io := rfl
@[simp] theorem updBlock_trc (b : Nat) (f : Block → Block) : (updBlock s b f).trc = s.trc := rfl
@[simp] theorem updBlock_drv (b : Nat) (f : Block → Block) : (updBlock s b f).drv = s.drv := rfl
@[simp] theorem updBlock_clk (b : Nat) (f : Block → Block) : (updBlock s b f).clk = s.clk := rfl
@[simp] theorem updBlock_aon (b : Nat) (f : Block → Block) : (updBlock s b f).aon = s.aon := rfl
@[simp] theorem updBlock_nv (b : Nat) (f : Block → Block) : (updBlock s b f).nv = s.nv := rfl
@[simp] theorem updBlock_boot (b : Nat) (f : Block → Block) : (updBlock s b f).boot = s.boot := rfl
@[simp] theorem updBlock_sup (b : Nat) (f : Block → Block) : (updBlock s b f).sup = s.sup := rfl
@[simp] theorem updBlock_icp (b : Nat) (f : Block → Block) : (updBlock s b f).icp = s.icp := rfl
@[simp] theorem updBlock_thk (b : Nat) (f : Block → Block) : (updBlock s b f).thk = { s.thk with blocks := s.thk.blocks.upd b f } := rfl
@[simp] theorem updBlock_chk (b : Nat) (f : Block → Block) : (updBlock s b f).chk = s.chk := rfl
@[simp] theorem updBlock_saf (b : Nat) (f : Block → Block) : (updBlock s b f).saf = s.saf := rfl
@[simp] theorem updBlock_thm (b : Nat) (f : Block → Block) : (updBlock s b f).thm = s.thm := rfl
@[simp] theorem updBlock_prn (b : Nat) (f : Block → Block) : (updBlock s b f).prn = s.prn := rfl
@[simp] theorem updBlock_pwm (b : Nat) (f : Block → Block) : (updBlock s b f).pwm = s.pwm := rfl
@[simp] theorem updBlock_gdv (b : Nat) (f : Block → Block) : (updBlock s b f).gdv = s.gdv := rfl
@[simp] theorem updBlock_prt (b : Nat) (f : Block → Block) : (updBlock s b f).prt = s.prt := rfl
@[simp] theorem updBlock_acq (b : Nat) (f : Block → Block) : (updBlock s b f).acq = s.acq := rfl
@[simp] theorem updBlock_pos (b : Nat) (f : Block → Block) : (updBlock s b f).pos = s.pos := rfl
@[simp] theorem updBlock_dmd (b : Nat) (f : Block → Block) : (updBlock s b f).dmd = s.dmd := rfl
@[simp] theorem updBlock_can (b : Nat) (f : Block → Block) : (updBlock s b f).can = s.can := rfl
@[simp] theorem updBlock_adx (b : Nat) (f : Block → Block) : (updBlock s b f).adx = s.adx := rfl
@[simp] theorem updBlock_crd (b : Nat) (f : Block → Block) : (updBlock s b f).crd = s.crd := rfl
@[simp] theorem updBlock_free (b : Nat) (f : Block → Block) : (updBlock s b f).free = s.free := rfl

/-! `updCell` changes `thk`. -/

@[simp] theorem updCell_pending (b p : Nat) (f : Cell → Cell) : (updCell s b p f).pending = s.pending := rfl
@[simp] theorem updCell_io (b p : Nat) (f : Cell → Cell) : (updCell s b p f).io = s.io := rfl
@[simp] theorem updCell_trc (b p : Nat) (f : Cell → Cell) : (updCell s b p f).trc = s.trc := rfl
@[simp] theorem updCell_drv (b p : Nat) (f : Cell → Cell) : (updCell s b p f).drv = s.drv := rfl
@[simp] theorem updCell_clk (b p : Nat) (f : Cell → Cell) : (updCell s b p f).clk = s.clk := rfl
@[simp] theorem updCell_aon (b p : Nat) (f : Cell → Cell) : (updCell s b p f).aon = s.aon := rfl
@[simp] theorem updCell_nv (b p : Nat) (f : Cell → Cell) : (updCell s b p f).nv = s.nv := rfl
@[simp] theorem updCell_boot (b p : Nat) (f : Cell → Cell) : (updCell s b p f).boot = s.boot := rfl
@[simp] theorem updCell_sup (b p : Nat) (f : Cell → Cell) : (updCell s b p f).sup = s.sup := rfl
@[simp] theorem updCell_icp (b p : Nat) (f : Cell → Cell) : (updCell s b p f).icp = s.icp := rfl
@[simp] theorem updCell_thk (b p : Nat) (f : Cell → Cell) :
    (updCell s b p f).thk = { s.thk with blocks := s.thk.blocks.upd b fun x => { x with cells := x.cells.upd p f } } := rfl
@[simp] theorem updCell_chk (b p : Nat) (f : Cell → Cell) : (updCell s b p f).chk = s.chk := rfl
@[simp] theorem updCell_saf (b p : Nat) (f : Cell → Cell) : (updCell s b p f).saf = s.saf := rfl
@[simp] theorem updCell_thm (b p : Nat) (f : Cell → Cell) : (updCell s b p f).thm = s.thm := rfl
@[simp] theorem updCell_prn (b p : Nat) (f : Cell → Cell) : (updCell s b p f).prn = s.prn := rfl
@[simp] theorem updCell_pwm (b p : Nat) (f : Cell → Cell) : (updCell s b p f).pwm = s.pwm := rfl
@[simp] theorem updCell_gdv (b p : Nat) (f : Cell → Cell) : (updCell s b p f).gdv = s.gdv := rfl
@[simp] theorem updCell_prt (b p : Nat) (f : Cell → Cell) : (updCell s b p f).prt = s.prt := rfl
@[simp] theorem updCell_acq (b p : Nat) (f : Cell → Cell) : (updCell s b p f).acq = s.acq := rfl
@[simp] theorem updCell_pos (b p : Nat) (f : Cell → Cell) : (updCell s b p f).pos = s.pos := rfl
@[simp] theorem updCell_dmd (b p : Nat) (f : Cell → Cell) : (updCell s b p f).dmd = s.dmd := rfl
@[simp] theorem updCell_can (b p : Nat) (f : Cell → Cell) : (updCell s b p f).can = s.can := rfl
@[simp] theorem updCell_adx (b p : Nat) (f : Cell → Cell) : (updCell s b p f).adx = s.adx := rfl
@[simp] theorem updCell_crd (b p : Nat) (f : Cell → Cell) : (updCell s b p f).crd = s.crd := rfl
@[simp] theorem updCell_free (b p : Nat) (f : Cell → Cell) : (updCell s b p f).free = s.free := rfl

/-! `updThk` changes `thk`. -/

@[simp] theorem updThk_pending (f : Thicket → Thicket) : (updThk s f).pending = s.pending := rfl
@[simp] theorem updThk_io (f : Thicket → Thicket) : (updThk s f).io = s.io := rfl
@[simp] theorem updThk_trc (f : Thicket → Thicket) : (updThk s f).trc = s.trc := rfl
@[simp] theorem updThk_drv (f : Thicket → Thicket) : (updThk s f).drv = s.drv := rfl
@[simp] theorem updThk_clk (f : Thicket → Thicket) : (updThk s f).clk = s.clk := rfl
@[simp] theorem updThk_aon (f : Thicket → Thicket) : (updThk s f).aon = s.aon := rfl
@[simp] theorem updThk_nv (f : Thicket → Thicket) : (updThk s f).nv = s.nv := rfl
@[simp] theorem updThk_boot (f : Thicket → Thicket) : (updThk s f).boot = s.boot := rfl
@[simp] theorem updThk_sup (f : Thicket → Thicket) : (updThk s f).sup = s.sup := rfl
@[simp] theorem updThk_icp (f : Thicket → Thicket) : (updThk s f).icp = s.icp := rfl
@[simp] theorem updThk_thk (f : Thicket → Thicket) : (updThk s f).thk = f s.thk := rfl
@[simp] theorem updThk_chk (f : Thicket → Thicket) : (updThk s f).chk = s.chk := rfl
@[simp] theorem updThk_saf (f : Thicket → Thicket) : (updThk s f).saf = s.saf := rfl
@[simp] theorem updThk_thm (f : Thicket → Thicket) : (updThk s f).thm = s.thm := rfl
@[simp] theorem updThk_prn (f : Thicket → Thicket) : (updThk s f).prn = s.prn := rfl
@[simp] theorem updThk_pwm (f : Thicket → Thicket) : (updThk s f).pwm = s.pwm := rfl
@[simp] theorem updThk_gdv (f : Thicket → Thicket) : (updThk s f).gdv = s.gdv := rfl
@[simp] theorem updThk_prt (f : Thicket → Thicket) : (updThk s f).prt = s.prt := rfl
@[simp] theorem updThk_acq (f : Thicket → Thicket) : (updThk s f).acq = s.acq := rfl
@[simp] theorem updThk_pos (f : Thicket → Thicket) : (updThk s f).pos = s.pos := rfl
@[simp] theorem updThk_dmd (f : Thicket → Thicket) : (updThk s f).dmd = s.dmd := rfl
@[simp] theorem updThk_can (f : Thicket → Thicket) : (updThk s f).can = s.can := rfl
@[simp] theorem updThk_adx (f : Thicket → Thicket) : (updThk s f).adx = s.adx := rfl
@[simp] theorem updThk_crd (f : Thicket → Thicket) : (updThk s f).crd = s.crd := rfl
@[simp] theorem updThk_free (f : Thicket → Thicket) : (updThk s f).free = s.free := rfl

/-! `updUnit` changes `pwm`. -/

@[simp] theorem updUnit_pending (u : Nat) (f : PwmUnit → PwmUnit) : (updUnit s u f).pending = s.pending := rfl
@[simp] theorem updUnit_io (u : Nat) (f : PwmUnit → PwmUnit) : (updUnit s u f).io = s.io := rfl
@[simp] theorem updUnit_trc (u : Nat) (f : PwmUnit → PwmUnit) : (updUnit s u f).trc = s.trc := rfl
@[simp] theorem updUnit_drv (u : Nat) (f : PwmUnit → PwmUnit) : (updUnit s u f).drv = s.drv := rfl
@[simp] theorem updUnit_clk (u : Nat) (f : PwmUnit → PwmUnit) : (updUnit s u f).clk = s.clk := rfl
@[simp] theorem updUnit_aon (u : Nat) (f : PwmUnit → PwmUnit) : (updUnit s u f).aon = s.aon := rfl
@[simp] theorem updUnit_nv (u : Nat) (f : PwmUnit → PwmUnit) : (updUnit s u f).nv = s.nv := rfl
@[simp] theorem updUnit_boot (u : Nat) (f : PwmUnit → PwmUnit) : (updUnit s u f).boot = s.boot := rfl
@[simp] theorem updUnit_sup (u : Nat) (f : PwmUnit → PwmUnit) : (updUnit s u f).sup = s.sup := rfl
@[simp] theorem updUnit_icp (u : Nat) (f : PwmUnit → PwmUnit) : (updUnit s u f).icp = s.icp := rfl
@[simp] theorem updUnit_thk (u : Nat) (f : PwmUnit → PwmUnit) : (updUnit s u f).thk = s.thk := rfl
@[simp] theorem updUnit_chk (u : Nat) (f : PwmUnit → PwmUnit) : (updUnit s u f).chk = s.chk := rfl
@[simp] theorem updUnit_saf (u : Nat) (f : PwmUnit → PwmUnit) : (updUnit s u f).saf = s.saf := rfl
@[simp] theorem updUnit_thm (u : Nat) (f : PwmUnit → PwmUnit) : (updUnit s u f).thm = s.thm := rfl
@[simp] theorem updUnit_prn (u : Nat) (f : PwmUnit → PwmUnit) : (updUnit s u f).prn = s.prn := rfl
@[simp] theorem updUnit_pwm (u : Nat) (f : PwmUnit → PwmUnit) : (updUnit s u f).pwm = { s.pwm with units := s.pwm.units.upd u f } := rfl
@[simp] theorem updUnit_gdv (u : Nat) (f : PwmUnit → PwmUnit) : (updUnit s u f).gdv = s.gdv := rfl
@[simp] theorem updUnit_prt (u : Nat) (f : PwmUnit → PwmUnit) : (updUnit s u f).prt = s.prt := rfl
@[simp] theorem updUnit_acq (u : Nat) (f : PwmUnit → PwmUnit) : (updUnit s u f).acq = s.acq := rfl
@[simp] theorem updUnit_pos (u : Nat) (f : PwmUnit → PwmUnit) : (updUnit s u f).pos = s.pos := rfl
@[simp] theorem updUnit_dmd (u : Nat) (f : PwmUnit → PwmUnit) : (updUnit s u f).dmd = s.dmd := rfl
@[simp] theorem updUnit_can (u : Nat) (f : PwmUnit → PwmUnit) : (updUnit s u f).can = s.can := rfl
@[simp] theorem updUnit_adx (u : Nat) (f : PwmUnit → PwmUnit) : (updUnit s u f).adx = s.adx := rfl
@[simp] theorem updUnit_crd (u : Nat) (f : PwmUnit → PwmUnit) : (updUnit s u f).crd = s.crd := rfl
@[simp] theorem updUnit_free (u : Nat) (f : PwmUnit → PwmUnit) : (updUnit s u f).free = s.free := rfl

/-! `mapUnits` changes `pwm`. -/

@[simp] theorem mapUnits_pending (f : Nat → PwmUnit → PwmUnit) : (mapUnits s f).pending = s.pending := by unfold mapUnits; rfl
@[simp] theorem mapUnits_io (f : Nat → PwmUnit → PwmUnit) : (mapUnits s f).io = s.io := by unfold mapUnits; rfl
@[simp] theorem mapUnits_trc (f : Nat → PwmUnit → PwmUnit) : (mapUnits s f).trc = s.trc := by unfold mapUnits; rfl
@[simp] theorem mapUnits_drv (f : Nat → PwmUnit → PwmUnit) : (mapUnits s f).drv = s.drv := by unfold mapUnits; rfl
@[simp] theorem mapUnits_clk (f : Nat → PwmUnit → PwmUnit) : (mapUnits s f).clk = s.clk := by unfold mapUnits; rfl
@[simp] theorem mapUnits_aon (f : Nat → PwmUnit → PwmUnit) : (mapUnits s f).aon = s.aon := by unfold mapUnits; rfl
@[simp] theorem mapUnits_nv (f : Nat → PwmUnit → PwmUnit) : (mapUnits s f).nv = s.nv := by unfold mapUnits; rfl
@[simp] theorem mapUnits_boot (f : Nat → PwmUnit → PwmUnit) : (mapUnits s f).boot = s.boot := by unfold mapUnits; rfl
@[simp] theorem mapUnits_sup (f : Nat → PwmUnit → PwmUnit) : (mapUnits s f).sup = s.sup := by unfold mapUnits; rfl
@[simp] theorem mapUnits_icp (f : Nat → PwmUnit → PwmUnit) : (mapUnits s f).icp = s.icp := by unfold mapUnits; rfl
@[simp] theorem mapUnits_thk (f : Nat → PwmUnit → PwmUnit) : (mapUnits s f).thk = s.thk := by unfold mapUnits; rfl
@[simp] theorem mapUnits_chk (f : Nat → PwmUnit → PwmUnit) : (mapUnits s f).chk = s.chk := by unfold mapUnits; rfl
@[simp] theorem mapUnits_saf (f : Nat → PwmUnit → PwmUnit) : (mapUnits s f).saf = s.saf := by unfold mapUnits; rfl
@[simp] theorem mapUnits_thm (f : Nat → PwmUnit → PwmUnit) : (mapUnits s f).thm = s.thm := by unfold mapUnits; rfl
@[simp] theorem mapUnits_prn (f : Nat → PwmUnit → PwmUnit) : (mapUnits s f).prn = s.prn := by unfold mapUnits; rfl
@[simp] theorem mapUnits_pwm (f : Nat → PwmUnit → PwmUnit) :
    (mapUnits s f).pwm = { s.pwm with units := Vector.ofFn fun i : Fin 6 => f i.val (s.pwm.units.at i.val) } := by unfold mapUnits; rfl
@[simp] theorem mapUnits_gdv (f : Nat → PwmUnit → PwmUnit) : (mapUnits s f).gdv = s.gdv := by unfold mapUnits; rfl
@[simp] theorem mapUnits_prt (f : Nat → PwmUnit → PwmUnit) : (mapUnits s f).prt = s.prt := by unfold mapUnits; rfl
@[simp] theorem mapUnits_acq (f : Nat → PwmUnit → PwmUnit) : (mapUnits s f).acq = s.acq := by unfold mapUnits; rfl
@[simp] theorem mapUnits_pos (f : Nat → PwmUnit → PwmUnit) : (mapUnits s f).pos = s.pos := by unfold mapUnits; rfl
@[simp] theorem mapUnits_dmd (f : Nat → PwmUnit → PwmUnit) : (mapUnits s f).dmd = s.dmd := by unfold mapUnits; rfl
@[simp] theorem mapUnits_can (f : Nat → PwmUnit → PwmUnit) : (mapUnits s f).can = s.can := by unfold mapUnits; rfl
@[simp] theorem mapUnits_adx (f : Nat → PwmUnit → PwmUnit) : (mapUnits s f).adx = s.adx := by unfold mapUnits; rfl
@[simp] theorem mapUnits_crd (f : Nat → PwmUnit → PwmUnit) : (mapUnits s f).crd = s.crd := by unfold mapUnits; rfl
@[simp] theorem mapUnits_free (f : Nat → PwmUnit → PwmUnit) : (mapUnits s f).free = s.free := by unfold mapUnits; rfl

/-! `noteSome` changes `pwm`. -/

@[simp] theorem noteSome_pending (p : Nat → Bool) (t : Int) : (noteSome s p t).pending = s.pending := rfl
@[simp] theorem noteSome_io (p : Nat → Bool) (t : Int) : (noteSome s p t).io = s.io := rfl
@[simp] theorem noteSome_trc (p : Nat → Bool) (t : Int) : (noteSome s p t).trc = s.trc := rfl
@[simp] theorem noteSome_drv (p : Nat → Bool) (t : Int) : (noteSome s p t).drv = s.drv := rfl
@[simp] theorem noteSome_clk (p : Nat → Bool) (t : Int) : (noteSome s p t).clk = s.clk := rfl
@[simp] theorem noteSome_aon (p : Nat → Bool) (t : Int) : (noteSome s p t).aon = s.aon := rfl
@[simp] theorem noteSome_nv (p : Nat → Bool) (t : Int) : (noteSome s p t).nv = s.nv := rfl
@[simp] theorem noteSome_boot (p : Nat → Bool) (t : Int) : (noteSome s p t).boot = s.boot := rfl
@[simp] theorem noteSome_sup (p : Nat → Bool) (t : Int) : (noteSome s p t).sup = s.sup := rfl
@[simp] theorem noteSome_icp (p : Nat → Bool) (t : Int) : (noteSome s p t).icp = s.icp := rfl
@[simp] theorem noteSome_thk (p : Nat → Bool) (t : Int) : (noteSome s p t).thk = s.thk := rfl
@[simp] theorem noteSome_chk (p : Nat → Bool) (t : Int) : (noteSome s p t).chk = s.chk := rfl
@[simp] theorem noteSome_saf (p : Nat → Bool) (t : Int) : (noteSome s p t).saf = s.saf := rfl
@[simp] theorem noteSome_thm (p : Nat → Bool) (t : Int) : (noteSome s p t).thm = s.thm := rfl
@[simp] theorem noteSome_prn (p : Nat → Bool) (t : Int) : (noteSome s p t).prn = s.prn := rfl
@[simp] theorem noteSome_gdv (p : Nat → Bool) (t : Int) : (noteSome s p t).gdv = s.gdv := rfl
@[simp] theorem noteSome_prt (p : Nat → Bool) (t : Int) : (noteSome s p t).prt = s.prt := rfl
@[simp] theorem noteSome_acq (p : Nat → Bool) (t : Int) : (noteSome s p t).acq = s.acq := rfl
@[simp] theorem noteSome_pos (p : Nat → Bool) (t : Int) : (noteSome s p t).pos = s.pos := rfl
@[simp] theorem noteSome_dmd (p : Nat → Bool) (t : Int) : (noteSome s p t).dmd = s.dmd := rfl
@[simp] theorem noteSome_can (p : Nat → Bool) (t : Int) : (noteSome s p t).can = s.can := rfl
@[simp] theorem noteSome_adx (p : Nat → Bool) (t : Int) : (noteSome s p t).adx = s.adx := rfl
@[simp] theorem noteSome_crd (p : Nat → Bool) (t : Int) : (noteSome s p t).crd = s.crd := rfl
@[simp] theorem noteSome_free (p : Nat → Bool) (t : Int) : (noteSome s p t).free = s.free := rfl

/-! `noteUnits` changes `pwm`. -/

@[simp] theorem noteUnits_pending : (noteUnits s).pending = s.pending := rfl
@[simp] theorem noteUnits_io : (noteUnits s).io = s.io := rfl
@[simp] theorem noteUnits_trc : (noteUnits s).trc = s.trc := rfl
@[simp] theorem noteUnits_drv : (noteUnits s).drv = s.drv := rfl
@[simp] theorem noteUnits_clk : (noteUnits s).clk = s.clk := rfl
@[simp] theorem noteUnits_aon : (noteUnits s).aon = s.aon := rfl
@[simp] theorem noteUnits_nv : (noteUnits s).nv = s.nv := rfl
@[simp] theorem noteUnits_boot : (noteUnits s).boot = s.boot := rfl
@[simp] theorem noteUnits_sup : (noteUnits s).sup = s.sup := rfl
@[simp] theorem noteUnits_icp : (noteUnits s).icp = s.icp := rfl
@[simp] theorem noteUnits_thk : (noteUnits s).thk = s.thk := rfl
@[simp] theorem noteUnits_chk : (noteUnits s).chk = s.chk := rfl
@[simp] theorem noteUnits_saf : (noteUnits s).saf = s.saf := rfl
@[simp] theorem noteUnits_thm : (noteUnits s).thm = s.thm := rfl
@[simp] theorem noteUnits_prn : (noteUnits s).prn = s.prn := rfl
@[simp] theorem noteUnits_gdv : (noteUnits s).gdv = s.gdv := rfl
@[simp] theorem noteUnits_prt : (noteUnits s).prt = s.prt := rfl
@[simp] theorem noteUnits_acq : (noteUnits s).acq = s.acq := rfl
@[simp] theorem noteUnits_pos : (noteUnits s).pos = s.pos := rfl
@[simp] theorem noteUnits_dmd : (noteUnits s).dmd = s.dmd := rfl
@[simp] theorem noteUnits_can : (noteUnits s).can = s.can := rfl
@[simp] theorem noteUnits_adx : (noteUnits s).adx = s.adx := rfl
@[simp] theorem noteUnits_crd : (noteUnits s).crd = s.crd := rfl
@[simp] theorem noteUnits_free : (noteUnits s).free = s.free := rfl

/-! `noteGroup` changes `pwm`. -/

@[simp] theorem noteGroup_pending (u : Nat) (t : Int) : (noteGroup s u t).pending = s.pending := rfl
@[simp] theorem noteGroup_io (u : Nat) (t : Int) : (noteGroup s u t).io = s.io := rfl
@[simp] theorem noteGroup_trc (u : Nat) (t : Int) : (noteGroup s u t).trc = s.trc := rfl
@[simp] theorem noteGroup_drv (u : Nat) (t : Int) : (noteGroup s u t).drv = s.drv := rfl
@[simp] theorem noteGroup_clk (u : Nat) (t : Int) : (noteGroup s u t).clk = s.clk := rfl
@[simp] theorem noteGroup_aon (u : Nat) (t : Int) : (noteGroup s u t).aon = s.aon := rfl
@[simp] theorem noteGroup_nv (u : Nat) (t : Int) : (noteGroup s u t).nv = s.nv := rfl
@[simp] theorem noteGroup_boot (u : Nat) (t : Int) : (noteGroup s u t).boot = s.boot := rfl
@[simp] theorem noteGroup_sup (u : Nat) (t : Int) : (noteGroup s u t).sup = s.sup := rfl
@[simp] theorem noteGroup_icp (u : Nat) (t : Int) : (noteGroup s u t).icp = s.icp := rfl
@[simp] theorem noteGroup_thk (u : Nat) (t : Int) : (noteGroup s u t).thk = s.thk := rfl
@[simp] theorem noteGroup_chk (u : Nat) (t : Int) : (noteGroup s u t).chk = s.chk := rfl
@[simp] theorem noteGroup_saf (u : Nat) (t : Int) : (noteGroup s u t).saf = s.saf := rfl
@[simp] theorem noteGroup_thm (u : Nat) (t : Int) : (noteGroup s u t).thm = s.thm := rfl
@[simp] theorem noteGroup_prn (u : Nat) (t : Int) : (noteGroup s u t).prn = s.prn := rfl
@[simp] theorem noteGroup_gdv (u : Nat) (t : Int) : (noteGroup s u t).gdv = s.gdv := rfl
@[simp] theorem noteGroup_prt (u : Nat) (t : Int) : (noteGroup s u t).prt = s.prt := rfl
@[simp] theorem noteGroup_acq (u : Nat) (t : Int) : (noteGroup s u t).acq = s.acq := rfl
@[simp] theorem noteGroup_pos (u : Nat) (t : Int) : (noteGroup s u t).pos = s.pos := rfl
@[simp] theorem noteGroup_dmd (u : Nat) (t : Int) : (noteGroup s u t).dmd = s.dmd := rfl
@[simp] theorem noteGroup_can (u : Nat) (t : Int) : (noteGroup s u t).can = s.can := rfl
@[simp] theorem noteGroup_adx (u : Nat) (t : Int) : (noteGroup s u t).adx = s.adx := rfl
@[simp] theorem noteGroup_crd (u : Nat) (t : Int) : (noteGroup s u t).crd = s.crd := rfl
@[simp] theorem noteGroup_free (u : Nat) (t : Int) : (noteGroup s u t).free = s.free := rfl

/-! `putBank` changes `thk`. -/

@[simp] theorem putBank_pending (g : Nat) (b : Bool) (a : Nat) (v : W18) : (putBank s g b a v).pending = s.pending := by unfold putBank; split <;> rfl
@[simp] theorem putBank_io (g : Nat) (b : Bool) (a : Nat) (v : W18) : (putBank s g b a v).io = s.io := by unfold putBank; split <;> rfl
@[simp] theorem putBank_trc (g : Nat) (b : Bool) (a : Nat) (v : W18) : (putBank s g b a v).trc = s.trc := by unfold putBank; split <;> rfl
@[simp] theorem putBank_drv (g : Nat) (b : Bool) (a : Nat) (v : W18) : (putBank s g b a v).drv = s.drv := by unfold putBank; split <;> rfl
@[simp] theorem putBank_clk (g : Nat) (b : Bool) (a : Nat) (v : W18) : (putBank s g b a v).clk = s.clk := by unfold putBank; split <;> rfl
@[simp] theorem putBank_aon (g : Nat) (b : Bool) (a : Nat) (v : W18) : (putBank s g b a v).aon = s.aon := by unfold putBank; split <;> rfl
@[simp] theorem putBank_nv (g : Nat) (b : Bool) (a : Nat) (v : W18) : (putBank s g b a v).nv = s.nv := by unfold putBank; split <;> rfl
@[simp] theorem putBank_boot (g : Nat) (b : Bool) (a : Nat) (v : W18) : (putBank s g b a v).boot = s.boot := by unfold putBank; split <;> rfl
@[simp] theorem putBank_sup (g : Nat) (b : Bool) (a : Nat) (v : W18) : (putBank s g b a v).sup = s.sup := by unfold putBank; split <;> rfl
@[simp] theorem putBank_icp (g : Nat) (b : Bool) (a : Nat) (v : W18) : (putBank s g b a v).icp = s.icp := by unfold putBank; split <;> rfl
@[simp] theorem putBank_chk (g : Nat) (b : Bool) (a : Nat) (v : W18) : (putBank s g b a v).chk = s.chk := by unfold putBank; split <;> rfl
@[simp] theorem putBank_saf (g : Nat) (b : Bool) (a : Nat) (v : W18) : (putBank s g b a v).saf = s.saf := by unfold putBank; split <;> rfl
@[simp] theorem putBank_thm (g : Nat) (b : Bool) (a : Nat) (v : W18) : (putBank s g b a v).thm = s.thm := by unfold putBank; split <;> rfl
@[simp] theorem putBank_prn (g : Nat) (b : Bool) (a : Nat) (v : W18) : (putBank s g b a v).prn = s.prn := by unfold putBank; split <;> rfl
@[simp] theorem putBank_pwm (g : Nat) (b : Bool) (a : Nat) (v : W18) : (putBank s g b a v).pwm = s.pwm := by unfold putBank; split <;> rfl
@[simp] theorem putBank_gdv (g : Nat) (b : Bool) (a : Nat) (v : W18) : (putBank s g b a v).gdv = s.gdv := by unfold putBank; split <;> rfl
@[simp] theorem putBank_prt (g : Nat) (b : Bool) (a : Nat) (v : W18) : (putBank s g b a v).prt = s.prt := by unfold putBank; split <;> rfl
@[simp] theorem putBank_acq (g : Nat) (b : Bool) (a : Nat) (v : W18) : (putBank s g b a v).acq = s.acq := by unfold putBank; split <;> rfl
@[simp] theorem putBank_pos (g : Nat) (b : Bool) (a : Nat) (v : W18) : (putBank s g b a v).pos = s.pos := by unfold putBank; split <;> rfl
@[simp] theorem putBank_dmd (g : Nat) (b : Bool) (a : Nat) (v : W18) : (putBank s g b a v).dmd = s.dmd := by unfold putBank; split <;> rfl
@[simp] theorem putBank_can (g : Nat) (b : Bool) (a : Nat) (v : W18) : (putBank s g b a v).can = s.can := by unfold putBank; split <;> rfl
@[simp] theorem putBank_adx (g : Nat) (b : Bool) (a : Nat) (v : W18) : (putBank s g b a v).adx = s.adx := by unfold putBank; split <;> rfl
@[simp] theorem putBank_crd (g : Nat) (b : Bool) (a : Nat) (v : W18) : (putBank s g b a v).crd = s.crd := by unfold putBank; split <;> rfl
@[simp] theorem putBank_free (g : Nat) (b : Bool) (a : Nat) (v : W18) : (putBank s g b a v).free = s.free := by unfold putBank; split <;> rfl

/-! `putState` changes `thk`. -/

@[simp] theorem putState_pending (g a : Nat) (v : W18) : (putState s g a v).pending = s.pending := by simp only [putState, putBank_pending]
@[simp] theorem putState_io (g a : Nat) (v : W18) : (putState s g a v).io = s.io := by simp only [putState, putBank_io]
@[simp] theorem putState_trc (g a : Nat) (v : W18) : (putState s g a v).trc = s.trc := by simp only [putState, putBank_trc]
@[simp] theorem putState_drv (g a : Nat) (v : W18) : (putState s g a v).drv = s.drv := by simp only [putState, putBank_drv]
@[simp] theorem putState_clk (g a : Nat) (v : W18) : (putState s g a v).clk = s.clk := by simp only [putState, putBank_clk]
@[simp] theorem putState_aon (g a : Nat) (v : W18) : (putState s g a v).aon = s.aon := by simp only [putState, putBank_aon]
@[simp] theorem putState_nv (g a : Nat) (v : W18) : (putState s g a v).nv = s.nv := by simp only [putState, putBank_nv]
@[simp] theorem putState_boot (g a : Nat) (v : W18) : (putState s g a v).boot = s.boot := by simp only [putState, putBank_boot]
@[simp] theorem putState_sup (g a : Nat) (v : W18) : (putState s g a v).sup = s.sup := by simp only [putState, putBank_sup]
@[simp] theorem putState_icp (g a : Nat) (v : W18) : (putState s g a v).icp = s.icp := by simp only [putState, putBank_icp]
@[simp] theorem putState_chk (g a : Nat) (v : W18) : (putState s g a v).chk = s.chk := by simp only [putState, putBank_chk]
@[simp] theorem putState_saf (g a : Nat) (v : W18) : (putState s g a v).saf = s.saf := by simp only [putState, putBank_saf]
@[simp] theorem putState_thm (g a : Nat) (v : W18) : (putState s g a v).thm = s.thm := by simp only [putState, putBank_thm]
@[simp] theorem putState_prn (g a : Nat) (v : W18) : (putState s g a v).prn = s.prn := by simp only [putState, putBank_prn]
@[simp] theorem putState_pwm (g a : Nat) (v : W18) : (putState s g a v).pwm = s.pwm := by simp only [putState, putBank_pwm]
@[simp] theorem putState_gdv (g a : Nat) (v : W18) : (putState s g a v).gdv = s.gdv := by simp only [putState, putBank_gdv]
@[simp] theorem putState_prt (g a : Nat) (v : W18) : (putState s g a v).prt = s.prt := by simp only [putState, putBank_prt]
@[simp] theorem putState_acq (g a : Nat) (v : W18) : (putState s g a v).acq = s.acq := by simp only [putState, putBank_acq]
@[simp] theorem putState_pos (g a : Nat) (v : W18) : (putState s g a v).pos = s.pos := by simp only [putState, putBank_pos]
@[simp] theorem putState_dmd (g a : Nat) (v : W18) : (putState s g a v).dmd = s.dmd := by simp only [putState, putBank_dmd]
@[simp] theorem putState_can (g a : Nat) (v : W18) : (putState s g a v).can = s.can := by simp only [putState, putBank_can]
@[simp] theorem putState_adx (g a : Nat) (v : W18) : (putState s g a v).adx = s.adx := by simp only [putState, putBank_adx]
@[simp] theorem putState_crd (g a : Nat) (v : W18) : (putState s g a v).crd = s.crd := by simp only [putState, putBank_crd]
@[simp] theorem putState_free (g a : Nat) (v : W18) : (putState s g a v).free = s.free := by simp only [putState, putBank_free]

/-! `putWords` changes `thk`. -/

@[simp] theorem putWords_pending (g : Nat) (b : Bool) (l : List (Nat × W18)) : (putWords s g b l).pending = s.pending := by unfold putWords; split <;> rfl
@[simp] theorem putWords_io (g : Nat) (b : Bool) (l : List (Nat × W18)) : (putWords s g b l).io = s.io := by unfold putWords; split <;> rfl
@[simp] theorem putWords_trc (g : Nat) (b : Bool) (l : List (Nat × W18)) : (putWords s g b l).trc = s.trc := by unfold putWords; split <;> rfl
@[simp] theorem putWords_drv (g : Nat) (b : Bool) (l : List (Nat × W18)) : (putWords s g b l).drv = s.drv := by unfold putWords; split <;> rfl
@[simp] theorem putWords_clk (g : Nat) (b : Bool) (l : List (Nat × W18)) : (putWords s g b l).clk = s.clk := by unfold putWords; split <;> rfl
@[simp] theorem putWords_aon (g : Nat) (b : Bool) (l : List (Nat × W18)) : (putWords s g b l).aon = s.aon := by unfold putWords; split <;> rfl
@[simp] theorem putWords_nv (g : Nat) (b : Bool) (l : List (Nat × W18)) : (putWords s g b l).nv = s.nv := by unfold putWords; split <;> rfl
@[simp] theorem putWords_boot (g : Nat) (b : Bool) (l : List (Nat × W18)) : (putWords s g b l).boot = s.boot := by unfold putWords; split <;> rfl
@[simp] theorem putWords_sup (g : Nat) (b : Bool) (l : List (Nat × W18)) : (putWords s g b l).sup = s.sup := by unfold putWords; split <;> rfl
@[simp] theorem putWords_icp (g : Nat) (b : Bool) (l : List (Nat × W18)) : (putWords s g b l).icp = s.icp := by unfold putWords; split <;> rfl
@[simp] theorem putWords_chk (g : Nat) (b : Bool) (l : List (Nat × W18)) : (putWords s g b l).chk = s.chk := by unfold putWords; split <;> rfl
@[simp] theorem putWords_saf (g : Nat) (b : Bool) (l : List (Nat × W18)) : (putWords s g b l).saf = s.saf := by unfold putWords; split <;> rfl
@[simp] theorem putWords_thm (g : Nat) (b : Bool) (l : List (Nat × W18)) : (putWords s g b l).thm = s.thm := by unfold putWords; split <;> rfl
@[simp] theorem putWords_prn (g : Nat) (b : Bool) (l : List (Nat × W18)) : (putWords s g b l).prn = s.prn := by unfold putWords; split <;> rfl
@[simp] theorem putWords_pwm (g : Nat) (b : Bool) (l : List (Nat × W18)) : (putWords s g b l).pwm = s.pwm := by unfold putWords; split <;> rfl
@[simp] theorem putWords_gdv (g : Nat) (b : Bool) (l : List (Nat × W18)) : (putWords s g b l).gdv = s.gdv := by unfold putWords; split <;> rfl
@[simp] theorem putWords_prt (g : Nat) (b : Bool) (l : List (Nat × W18)) : (putWords s g b l).prt = s.prt := by unfold putWords; split <;> rfl
@[simp] theorem putWords_acq (g : Nat) (b : Bool) (l : List (Nat × W18)) : (putWords s g b l).acq = s.acq := by unfold putWords; split <;> rfl
@[simp] theorem putWords_pos (g : Nat) (b : Bool) (l : List (Nat × W18)) : (putWords s g b l).pos = s.pos := by unfold putWords; split <;> rfl
@[simp] theorem putWords_dmd (g : Nat) (b : Bool) (l : List (Nat × W18)) : (putWords s g b l).dmd = s.dmd := by unfold putWords; split <;> rfl
@[simp] theorem putWords_can (g : Nat) (b : Bool) (l : List (Nat × W18)) : (putWords s g b l).can = s.can := by unfold putWords; split <;> rfl
@[simp] theorem putWords_adx (g : Nat) (b : Bool) (l : List (Nat × W18)) : (putWords s g b l).adx = s.adx := by unfold putWords; split <;> rfl
@[simp] theorem putWords_crd (g : Nat) (b : Bool) (l : List (Nat × W18)) : (putWords s g b l).crd = s.crd := by unfold putWords; split <;> rfl
@[simp] theorem putWords_free (g : Nat) (b : Bool) (l : List (Nat × W18)) : (putWords s g b l).free = s.free := by unfold putWords; split <;> rfl

/-! `updGdv` changes `gdv`. -/

@[simp] theorem updGdv_pending (ch : Nat) (f : GdvChan → GdvChan) : (updGdv s ch f).pending = s.pending := rfl
@[simp] theorem updGdv_io (ch : Nat) (f : GdvChan → GdvChan) : (updGdv s ch f).io = s.io := rfl
@[simp] theorem updGdv_trc (ch : Nat) (f : GdvChan → GdvChan) : (updGdv s ch f).trc = s.trc := rfl
@[simp] theorem updGdv_drv (ch : Nat) (f : GdvChan → GdvChan) : (updGdv s ch f).drv = s.drv := rfl
@[simp] theorem updGdv_clk (ch : Nat) (f : GdvChan → GdvChan) : (updGdv s ch f).clk = s.clk := rfl
@[simp] theorem updGdv_aon (ch : Nat) (f : GdvChan → GdvChan) : (updGdv s ch f).aon = s.aon := rfl
@[simp] theorem updGdv_nv (ch : Nat) (f : GdvChan → GdvChan) : (updGdv s ch f).nv = s.nv := rfl
@[simp] theorem updGdv_boot (ch : Nat) (f : GdvChan → GdvChan) : (updGdv s ch f).boot = s.boot := rfl
@[simp] theorem updGdv_sup (ch : Nat) (f : GdvChan → GdvChan) : (updGdv s ch f).sup = s.sup := rfl
@[simp] theorem updGdv_icp (ch : Nat) (f : GdvChan → GdvChan) : (updGdv s ch f).icp = s.icp := rfl
@[simp] theorem updGdv_thk (ch : Nat) (f : GdvChan → GdvChan) : (updGdv s ch f).thk = s.thk := rfl
@[simp] theorem updGdv_chk (ch : Nat) (f : GdvChan → GdvChan) : (updGdv s ch f).chk = s.chk := rfl
@[simp] theorem updGdv_saf (ch : Nat) (f : GdvChan → GdvChan) : (updGdv s ch f).saf = s.saf := rfl
@[simp] theorem updGdv_thm (ch : Nat) (f : GdvChan → GdvChan) : (updGdv s ch f).thm = s.thm := rfl
@[simp] theorem updGdv_prn (ch : Nat) (f : GdvChan → GdvChan) : (updGdv s ch f).prn = s.prn := rfl
@[simp] theorem updGdv_pwm (ch : Nat) (f : GdvChan → GdvChan) : (updGdv s ch f).pwm = s.pwm := rfl
@[simp] theorem updGdv_gdv (ch : Nat) (f : GdvChan → GdvChan) : (updGdv s ch f).gdv = s.gdv.upd ch f := rfl
@[simp] theorem updGdv_prt (ch : Nat) (f : GdvChan → GdvChan) : (updGdv s ch f).prt = s.prt := rfl
@[simp] theorem updGdv_acq (ch : Nat) (f : GdvChan → GdvChan) : (updGdv s ch f).acq = s.acq := rfl
@[simp] theorem updGdv_pos (ch : Nat) (f : GdvChan → GdvChan) : (updGdv s ch f).pos = s.pos := rfl
@[simp] theorem updGdv_dmd (ch : Nat) (f : GdvChan → GdvChan) : (updGdv s ch f).dmd = s.dmd := rfl
@[simp] theorem updGdv_can (ch : Nat) (f : GdvChan → GdvChan) : (updGdv s ch f).can = s.can := rfl
@[simp] theorem updGdv_adx (ch : Nat) (f : GdvChan → GdvChan) : (updGdv s ch f).adx = s.adx := rfl
@[simp] theorem updGdv_crd (ch : Nat) (f : GdvChan → GdvChan) : (updGdv s ch f).crd = s.crd := rfl
@[simp] theorem updGdv_free (ch : Nat) (f : GdvChan → GdvChan) : (updGdv s ch f).free = s.free := rfl

/-! `updPrt` changes `prt`. -/

@[simp] theorem updPrt_pending (f : Prt → Prt) : (updPrt s f).pending = s.pending := rfl
@[simp] theorem updPrt_io (f : Prt → Prt) : (updPrt s f).io = s.io := rfl
@[simp] theorem updPrt_trc (f : Prt → Prt) : (updPrt s f).trc = s.trc := rfl
@[simp] theorem updPrt_drv (f : Prt → Prt) : (updPrt s f).drv = s.drv := rfl
@[simp] theorem updPrt_clk (f : Prt → Prt) : (updPrt s f).clk = s.clk := rfl
@[simp] theorem updPrt_aon (f : Prt → Prt) : (updPrt s f).aon = s.aon := rfl
@[simp] theorem updPrt_nv (f : Prt → Prt) : (updPrt s f).nv = s.nv := rfl
@[simp] theorem updPrt_boot (f : Prt → Prt) : (updPrt s f).boot = s.boot := rfl
@[simp] theorem updPrt_sup (f : Prt → Prt) : (updPrt s f).sup = s.sup := rfl
@[simp] theorem updPrt_icp (f : Prt → Prt) : (updPrt s f).icp = s.icp := rfl
@[simp] theorem updPrt_thk (f : Prt → Prt) : (updPrt s f).thk = s.thk := rfl
@[simp] theorem updPrt_chk (f : Prt → Prt) : (updPrt s f).chk = s.chk := rfl
@[simp] theorem updPrt_saf (f : Prt → Prt) : (updPrt s f).saf = s.saf := rfl
@[simp] theorem updPrt_thm (f : Prt → Prt) : (updPrt s f).thm = s.thm := rfl
@[simp] theorem updPrt_prn (f : Prt → Prt) : (updPrt s f).prn = s.prn := rfl
@[simp] theorem updPrt_pwm (f : Prt → Prt) : (updPrt s f).pwm = s.pwm := rfl
@[simp] theorem updPrt_gdv (f : Prt → Prt) : (updPrt s f).gdv = s.gdv := rfl
@[simp] theorem updPrt_prt (f : Prt → Prt) : (updPrt s f).prt = f s.prt := rfl
@[simp] theorem updPrt_acq (f : Prt → Prt) : (updPrt s f).acq = s.acq := rfl
@[simp] theorem updPrt_pos (f : Prt → Prt) : (updPrt s f).pos = s.pos := rfl
@[simp] theorem updPrt_dmd (f : Prt → Prt) : (updPrt s f).dmd = s.dmd := rfl
@[simp] theorem updPrt_can (f : Prt → Prt) : (updPrt s f).can = s.can := rfl
@[simp] theorem updPrt_adx (f : Prt → Prt) : (updPrt s f).adx = s.adx := rfl
@[simp] theorem updPrt_crd (f : Prt → Prt) : (updPrt s f).crd = s.crd := rfl
@[simp] theorem updPrt_free (f : Prt → Prt) : (updPrt s f).free = s.free := rfl

/-! `updGroup` changes `acq`. -/

@[simp] theorem updGroup_pending (g : Nat) (f : AcqGroup → AcqGroup) : (updGroup s g f).pending = s.pending := rfl
@[simp] theorem updGroup_io (g : Nat) (f : AcqGroup → AcqGroup) : (updGroup s g f).io = s.io := rfl
@[simp] theorem updGroup_trc (g : Nat) (f : AcqGroup → AcqGroup) : (updGroup s g f).trc = s.trc := rfl
@[simp] theorem updGroup_drv (g : Nat) (f : AcqGroup → AcqGroup) : (updGroup s g f).drv = s.drv := rfl
@[simp] theorem updGroup_clk (g : Nat) (f : AcqGroup → AcqGroup) : (updGroup s g f).clk = s.clk := rfl
@[simp] theorem updGroup_aon (g : Nat) (f : AcqGroup → AcqGroup) : (updGroup s g f).aon = s.aon := rfl
@[simp] theorem updGroup_nv (g : Nat) (f : AcqGroup → AcqGroup) : (updGroup s g f).nv = s.nv := rfl
@[simp] theorem updGroup_boot (g : Nat) (f : AcqGroup → AcqGroup) : (updGroup s g f).boot = s.boot := rfl
@[simp] theorem updGroup_sup (g : Nat) (f : AcqGroup → AcqGroup) : (updGroup s g f).sup = s.sup := rfl
@[simp] theorem updGroup_icp (g : Nat) (f : AcqGroup → AcqGroup) : (updGroup s g f).icp = s.icp := rfl
@[simp] theorem updGroup_thk (g : Nat) (f : AcqGroup → AcqGroup) : (updGroup s g f).thk = s.thk := rfl
@[simp] theorem updGroup_chk (g : Nat) (f : AcqGroup → AcqGroup) : (updGroup s g f).chk = s.chk := rfl
@[simp] theorem updGroup_saf (g : Nat) (f : AcqGroup → AcqGroup) : (updGroup s g f).saf = s.saf := rfl
@[simp] theorem updGroup_thm (g : Nat) (f : AcqGroup → AcqGroup) : (updGroup s g f).thm = s.thm := rfl
@[simp] theorem updGroup_prn (g : Nat) (f : AcqGroup → AcqGroup) : (updGroup s g f).prn = s.prn := rfl
@[simp] theorem updGroup_pwm (g : Nat) (f : AcqGroup → AcqGroup) : (updGroup s g f).pwm = s.pwm := rfl
@[simp] theorem updGroup_gdv (g : Nat) (f : AcqGroup → AcqGroup) : (updGroup s g f).gdv = s.gdv := rfl
@[simp] theorem updGroup_prt (g : Nat) (f : AcqGroup → AcqGroup) : (updGroup s g f).prt = s.prt := rfl
@[simp] theorem updGroup_acq (g : Nat) (f : AcqGroup → AcqGroup) :
    (updGroup s g f).acq = { s.acq with groups := s.acq.groups.upd g f } := rfl
@[simp] theorem updGroup_pos (g : Nat) (f : AcqGroup → AcqGroup) : (updGroup s g f).pos = s.pos := rfl
@[simp] theorem updGroup_dmd (g : Nat) (f : AcqGroup → AcqGroup) : (updGroup s g f).dmd = s.dmd := rfl
@[simp] theorem updGroup_can (g : Nat) (f : AcqGroup → AcqGroup) : (updGroup s g f).can = s.can := rfl
@[simp] theorem updGroup_adx (g : Nat) (f : AcqGroup → AcqGroup) : (updGroup s g f).adx = s.adx := rfl
@[simp] theorem updGroup_crd (g : Nat) (f : AcqGroup → AcqGroup) : (updGroup s g f).crd = s.crd := rfl
@[simp] theorem updGroup_free (g : Nat) (f : AcqGroup → AcqGroup) : (updGroup s g f).free = s.free := rfl

/-! `updDsm` changes `acq`. -/

@[simp] theorem updDsm_pending (i : Nat) (f : Dsm → Dsm) : (updDsm s i f).pending = s.pending := rfl
@[simp] theorem updDsm_io (i : Nat) (f : Dsm → Dsm) : (updDsm s i f).io = s.io := rfl
@[simp] theorem updDsm_trc (i : Nat) (f : Dsm → Dsm) : (updDsm s i f).trc = s.trc := rfl
@[simp] theorem updDsm_drv (i : Nat) (f : Dsm → Dsm) : (updDsm s i f).drv = s.drv := rfl
@[simp] theorem updDsm_clk (i : Nat) (f : Dsm → Dsm) : (updDsm s i f).clk = s.clk := rfl
@[simp] theorem updDsm_aon (i : Nat) (f : Dsm → Dsm) : (updDsm s i f).aon = s.aon := rfl
@[simp] theorem updDsm_nv (i : Nat) (f : Dsm → Dsm) : (updDsm s i f).nv = s.nv := rfl
@[simp] theorem updDsm_boot (i : Nat) (f : Dsm → Dsm) : (updDsm s i f).boot = s.boot := rfl
@[simp] theorem updDsm_sup (i : Nat) (f : Dsm → Dsm) : (updDsm s i f).sup = s.sup := rfl
@[simp] theorem updDsm_icp (i : Nat) (f : Dsm → Dsm) : (updDsm s i f).icp = s.icp := rfl
@[simp] theorem updDsm_thk (i : Nat) (f : Dsm → Dsm) : (updDsm s i f).thk = s.thk := rfl
@[simp] theorem updDsm_chk (i : Nat) (f : Dsm → Dsm) : (updDsm s i f).chk = s.chk := rfl
@[simp] theorem updDsm_saf (i : Nat) (f : Dsm → Dsm) : (updDsm s i f).saf = s.saf := rfl
@[simp] theorem updDsm_thm (i : Nat) (f : Dsm → Dsm) : (updDsm s i f).thm = s.thm := rfl
@[simp] theorem updDsm_prn (i : Nat) (f : Dsm → Dsm) : (updDsm s i f).prn = s.prn := rfl
@[simp] theorem updDsm_pwm (i : Nat) (f : Dsm → Dsm) : (updDsm s i f).pwm = s.pwm := rfl
@[simp] theorem updDsm_gdv (i : Nat) (f : Dsm → Dsm) : (updDsm s i f).gdv = s.gdv := rfl
@[simp] theorem updDsm_prt (i : Nat) (f : Dsm → Dsm) : (updDsm s i f).prt = s.prt := rfl
@[simp] theorem updDsm_acq (i : Nat) (f : Dsm → Dsm) : (updDsm s i f).acq = { s.acq with dsm := s.acq.dsm.upd i f } := rfl
@[simp] theorem updDsm_pos (i : Nat) (f : Dsm → Dsm) : (updDsm s i f).pos = s.pos := rfl
@[simp] theorem updDsm_dmd (i : Nat) (f : Dsm → Dsm) : (updDsm s i f).dmd = s.dmd := rfl
@[simp] theorem updDsm_can (i : Nat) (f : Dsm → Dsm) : (updDsm s i f).can = s.can := rfl
@[simp] theorem updDsm_adx (i : Nat) (f : Dsm → Dsm) : (updDsm s i f).adx = s.adx := rfl
@[simp] theorem updDsm_crd (i : Nat) (f : Dsm → Dsm) : (updDsm s i f).crd = s.crd := rfl
@[simp] theorem updDsm_free (i : Nat) (f : Dsm → Dsm) : (updDsm s i f).free = s.free := rfl

/-! `updEnc` changes `pos`. -/

@[simp] theorem updEnc_pending (e : Nat) (f : Enc → Enc) : (updEnc s e f).pending = s.pending := rfl
@[simp] theorem updEnc_io (e : Nat) (f : Enc → Enc) : (updEnc s e f).io = s.io := rfl
@[simp] theorem updEnc_trc (e : Nat) (f : Enc → Enc) : (updEnc s e f).trc = s.trc := rfl
@[simp] theorem updEnc_drv (e : Nat) (f : Enc → Enc) : (updEnc s e f).drv = s.drv := rfl
@[simp] theorem updEnc_clk (e : Nat) (f : Enc → Enc) : (updEnc s e f).clk = s.clk := rfl
@[simp] theorem updEnc_aon (e : Nat) (f : Enc → Enc) : (updEnc s e f).aon = s.aon := rfl
@[simp] theorem updEnc_nv (e : Nat) (f : Enc → Enc) : (updEnc s e f).nv = s.nv := rfl
@[simp] theorem updEnc_boot (e : Nat) (f : Enc → Enc) : (updEnc s e f).boot = s.boot := rfl
@[simp] theorem updEnc_sup (e : Nat) (f : Enc → Enc) : (updEnc s e f).sup = s.sup := rfl
@[simp] theorem updEnc_icp (e : Nat) (f : Enc → Enc) : (updEnc s e f).icp = s.icp := rfl
@[simp] theorem updEnc_thk (e : Nat) (f : Enc → Enc) : (updEnc s e f).thk = s.thk := rfl
@[simp] theorem updEnc_chk (e : Nat) (f : Enc → Enc) : (updEnc s e f).chk = s.chk := rfl
@[simp] theorem updEnc_saf (e : Nat) (f : Enc → Enc) : (updEnc s e f).saf = s.saf := rfl
@[simp] theorem updEnc_thm (e : Nat) (f : Enc → Enc) : (updEnc s e f).thm = s.thm := rfl
@[simp] theorem updEnc_prn (e : Nat) (f : Enc → Enc) : (updEnc s e f).prn = s.prn := rfl
@[simp] theorem updEnc_pwm (e : Nat) (f : Enc → Enc) : (updEnc s e f).pwm = s.pwm := rfl
@[simp] theorem updEnc_gdv (e : Nat) (f : Enc → Enc) : (updEnc s e f).gdv = s.gdv := rfl
@[simp] theorem updEnc_prt (e : Nat) (f : Enc → Enc) : (updEnc s e f).prt = s.prt := rfl
@[simp] theorem updEnc_acq (e : Nat) (f : Enc → Enc) : (updEnc s e f).acq = s.acq := rfl
@[simp] theorem updEnc_pos (e : Nat) (f : Enc → Enc) : (updEnc s e f).pos = { s.pos with enc := s.pos.enc.upd e f } := rfl
@[simp] theorem updEnc_dmd (e : Nat) (f : Enc → Enc) : (updEnc s e f).dmd = s.dmd := rfl
@[simp] theorem updEnc_can (e : Nat) (f : Enc → Enc) : (updEnc s e f).can = s.can := rfl
@[simp] theorem updEnc_adx (e : Nat) (f : Enc → Enc) : (updEnc s e f).adx = s.adx := rfl
@[simp] theorem updEnc_crd (e : Nat) (f : Enc → Enc) : (updEnc s e f).crd = s.crd := rfl
@[simp] theorem updEnc_free (e : Nat) (f : Enc → Enc) : (updEnc s e f).free = s.free := rfl

/-! `updHal` changes `pos`. -/

@[simp] theorem updHal_pending (h : Nat) (f : Hal → Hal) : (updHal s h f).pending = s.pending := rfl
@[simp] theorem updHal_io (h : Nat) (f : Hal → Hal) : (updHal s h f).io = s.io := rfl
@[simp] theorem updHal_trc (h : Nat) (f : Hal → Hal) : (updHal s h f).trc = s.trc := rfl
@[simp] theorem updHal_drv (h : Nat) (f : Hal → Hal) : (updHal s h f).drv = s.drv := rfl
@[simp] theorem updHal_clk (h : Nat) (f : Hal → Hal) : (updHal s h f).clk = s.clk := rfl
@[simp] theorem updHal_aon (h : Nat) (f : Hal → Hal) : (updHal s h f).aon = s.aon := rfl
@[simp] theorem updHal_nv (h : Nat) (f : Hal → Hal) : (updHal s h f).nv = s.nv := rfl
@[simp] theorem updHal_boot (h : Nat) (f : Hal → Hal) : (updHal s h f).boot = s.boot := rfl
@[simp] theorem updHal_sup (h : Nat) (f : Hal → Hal) : (updHal s h f).sup = s.sup := rfl
@[simp] theorem updHal_icp (h : Nat) (f : Hal → Hal) : (updHal s h f).icp = s.icp := rfl
@[simp] theorem updHal_thk (h : Nat) (f : Hal → Hal) : (updHal s h f).thk = s.thk := rfl
@[simp] theorem updHal_chk (h : Nat) (f : Hal → Hal) : (updHal s h f).chk = s.chk := rfl
@[simp] theorem updHal_saf (h : Nat) (f : Hal → Hal) : (updHal s h f).saf = s.saf := rfl
@[simp] theorem updHal_thm (h : Nat) (f : Hal → Hal) : (updHal s h f).thm = s.thm := rfl
@[simp] theorem updHal_prn (h : Nat) (f : Hal → Hal) : (updHal s h f).prn = s.prn := rfl
@[simp] theorem updHal_pwm (h : Nat) (f : Hal → Hal) : (updHal s h f).pwm = s.pwm := rfl
@[simp] theorem updHal_gdv (h : Nat) (f : Hal → Hal) : (updHal s h f).gdv = s.gdv := rfl
@[simp] theorem updHal_prt (h : Nat) (f : Hal → Hal) : (updHal s h f).prt = s.prt := rfl
@[simp] theorem updHal_acq (h : Nat) (f : Hal → Hal) : (updHal s h f).acq = s.acq := rfl
@[simp] theorem updHal_pos (h : Nat) (f : Hal → Hal) : (updHal s h f).pos = { s.pos with hal := s.pos.hal.upd h f } := rfl
@[simp] theorem updHal_dmd (h : Nat) (f : Hal → Hal) : (updHal s h f).dmd = s.dmd := rfl
@[simp] theorem updHal_can (h : Nat) (f : Hal → Hal) : (updHal s h f).can = s.can := rfl
@[simp] theorem updHal_adx (h : Nat) (f : Hal → Hal) : (updHal s h f).adx = s.adx := rfl
@[simp] theorem updHal_crd (h : Nat) (f : Hal → Hal) : (updHal s h f).crd = s.crd := rfl
@[simp] theorem updHal_free (h : Nat) (f : Hal → Hal) : (updHal s h f).free = s.free := rfl

/-! `updObs` changes `pos`. -/

@[simp] theorem updObs_pending (o : Nat) (f : Obs → Obs) : (updObs s o f).pending = s.pending := rfl
@[simp] theorem updObs_io (o : Nat) (f : Obs → Obs) : (updObs s o f).io = s.io := rfl
@[simp] theorem updObs_trc (o : Nat) (f : Obs → Obs) : (updObs s o f).trc = s.trc := rfl
@[simp] theorem updObs_drv (o : Nat) (f : Obs → Obs) : (updObs s o f).drv = s.drv := rfl
@[simp] theorem updObs_clk (o : Nat) (f : Obs → Obs) : (updObs s o f).clk = s.clk := rfl
@[simp] theorem updObs_aon (o : Nat) (f : Obs → Obs) : (updObs s o f).aon = s.aon := rfl
@[simp] theorem updObs_nv (o : Nat) (f : Obs → Obs) : (updObs s o f).nv = s.nv := rfl
@[simp] theorem updObs_boot (o : Nat) (f : Obs → Obs) : (updObs s o f).boot = s.boot := rfl
@[simp] theorem updObs_sup (o : Nat) (f : Obs → Obs) : (updObs s o f).sup = s.sup := rfl
@[simp] theorem updObs_icp (o : Nat) (f : Obs → Obs) : (updObs s o f).icp = s.icp := rfl
@[simp] theorem updObs_thk (o : Nat) (f : Obs → Obs) : (updObs s o f).thk = s.thk := rfl
@[simp] theorem updObs_chk (o : Nat) (f : Obs → Obs) : (updObs s o f).chk = s.chk := rfl
@[simp] theorem updObs_saf (o : Nat) (f : Obs → Obs) : (updObs s o f).saf = s.saf := rfl
@[simp] theorem updObs_thm (o : Nat) (f : Obs → Obs) : (updObs s o f).thm = s.thm := rfl
@[simp] theorem updObs_prn (o : Nat) (f : Obs → Obs) : (updObs s o f).prn = s.prn := rfl
@[simp] theorem updObs_pwm (o : Nat) (f : Obs → Obs) : (updObs s o f).pwm = s.pwm := rfl
@[simp] theorem updObs_gdv (o : Nat) (f : Obs → Obs) : (updObs s o f).gdv = s.gdv := rfl
@[simp] theorem updObs_prt (o : Nat) (f : Obs → Obs) : (updObs s o f).prt = s.prt := rfl
@[simp] theorem updObs_acq (o : Nat) (f : Obs → Obs) : (updObs s o f).acq = s.acq := rfl
@[simp] theorem updObs_pos (o : Nat) (f : Obs → Obs) : (updObs s o f).pos = { s.pos with obs := s.pos.obs.upd o f } := rfl
@[simp] theorem updObs_dmd (o : Nat) (f : Obs → Obs) : (updObs s o f).dmd = s.dmd := rfl
@[simp] theorem updObs_can (o : Nat) (f : Obs → Obs) : (updObs s o f).can = s.can := rfl
@[simp] theorem updObs_adx (o : Nat) (f : Obs → Obs) : (updObs s o f).adx = s.adx := rfl
@[simp] theorem updObs_crd (o : Nat) (f : Obs → Obs) : (updObs s o f).crd = s.crd := rfl
@[simp] theorem updObs_free (o : Nat) (f : Obs → Obs) : (updObs s o f).free = s.free := rfl

/-! `updRsv` changes `pos`. -/

@[simp] theorem updRsv_pending (u : Nat) (f : Rsv → Rsv) : (updRsv s u f).pending = s.pending := rfl
@[simp] theorem updRsv_io (u : Nat) (f : Rsv → Rsv) : (updRsv s u f).io = s.io := rfl
@[simp] theorem updRsv_trc (u : Nat) (f : Rsv → Rsv) : (updRsv s u f).trc = s.trc := rfl
@[simp] theorem updRsv_drv (u : Nat) (f : Rsv → Rsv) : (updRsv s u f).drv = s.drv := rfl
@[simp] theorem updRsv_clk (u : Nat) (f : Rsv → Rsv) : (updRsv s u f).clk = s.clk := rfl
@[simp] theorem updRsv_aon (u : Nat) (f : Rsv → Rsv) : (updRsv s u f).aon = s.aon := rfl
@[simp] theorem updRsv_nv (u : Nat) (f : Rsv → Rsv) : (updRsv s u f).nv = s.nv := rfl
@[simp] theorem updRsv_boot (u : Nat) (f : Rsv → Rsv) : (updRsv s u f).boot = s.boot := rfl
@[simp] theorem updRsv_sup (u : Nat) (f : Rsv → Rsv) : (updRsv s u f).sup = s.sup := rfl
@[simp] theorem updRsv_icp (u : Nat) (f : Rsv → Rsv) : (updRsv s u f).icp = s.icp := rfl
@[simp] theorem updRsv_thk (u : Nat) (f : Rsv → Rsv) : (updRsv s u f).thk = s.thk := rfl
@[simp] theorem updRsv_chk (u : Nat) (f : Rsv → Rsv) : (updRsv s u f).chk = s.chk := rfl
@[simp] theorem updRsv_saf (u : Nat) (f : Rsv → Rsv) : (updRsv s u f).saf = s.saf := rfl
@[simp] theorem updRsv_thm (u : Nat) (f : Rsv → Rsv) : (updRsv s u f).thm = s.thm := rfl
@[simp] theorem updRsv_prn (u : Nat) (f : Rsv → Rsv) : (updRsv s u f).prn = s.prn := rfl
@[simp] theorem updRsv_pwm (u : Nat) (f : Rsv → Rsv) : (updRsv s u f).pwm = s.pwm := rfl
@[simp] theorem updRsv_gdv (u : Nat) (f : Rsv → Rsv) : (updRsv s u f).gdv = s.gdv := rfl
@[simp] theorem updRsv_prt (u : Nat) (f : Rsv → Rsv) : (updRsv s u f).prt = s.prt := rfl
@[simp] theorem updRsv_acq (u : Nat) (f : Rsv → Rsv) : (updRsv s u f).acq = s.acq := rfl
@[simp] theorem updRsv_pos (u : Nat) (f : Rsv → Rsv) : (updRsv s u f).pos = { s.pos with rsv := s.pos.rsv.upd u f } := rfl
@[simp] theorem updRsv_dmd (u : Nat) (f : Rsv → Rsv) : (updRsv s u f).dmd = s.dmd := rfl
@[simp] theorem updRsv_can (u : Nat) (f : Rsv → Rsv) : (updRsv s u f).can = s.can := rfl
@[simp] theorem updRsv_adx (u : Nat) (f : Rsv → Rsv) : (updRsv s u f).adx = s.adx := rfl
@[simp] theorem updRsv_crd (u : Nat) (f : Rsv → Rsv) : (updRsv s u f).crd = s.crd := rfl
@[simp] theorem updRsv_free (u : Nat) (f : Rsv → Rsv) : (updRsv s u f).free = s.free := rfl

/-! `mapObs` changes `pos`. -/

@[simp] theorem mapObs_pending (f : Obs → Obs) : (mapObs s f).pending = s.pending := rfl
@[simp] theorem mapObs_io (f : Obs → Obs) : (mapObs s f).io = s.io := rfl
@[simp] theorem mapObs_trc (f : Obs → Obs) : (mapObs s f).trc = s.trc := rfl
@[simp] theorem mapObs_drv (f : Obs → Obs) : (mapObs s f).drv = s.drv := rfl
@[simp] theorem mapObs_clk (f : Obs → Obs) : (mapObs s f).clk = s.clk := rfl
@[simp] theorem mapObs_aon (f : Obs → Obs) : (mapObs s f).aon = s.aon := rfl
@[simp] theorem mapObs_nv (f : Obs → Obs) : (mapObs s f).nv = s.nv := rfl
@[simp] theorem mapObs_boot (f : Obs → Obs) : (mapObs s f).boot = s.boot := rfl
@[simp] theorem mapObs_sup (f : Obs → Obs) : (mapObs s f).sup = s.sup := rfl
@[simp] theorem mapObs_icp (f : Obs → Obs) : (mapObs s f).icp = s.icp := rfl
@[simp] theorem mapObs_thk (f : Obs → Obs) : (mapObs s f).thk = s.thk := rfl
@[simp] theorem mapObs_chk (f : Obs → Obs) : (mapObs s f).chk = s.chk := rfl
@[simp] theorem mapObs_saf (f : Obs → Obs) : (mapObs s f).saf = s.saf := rfl
@[simp] theorem mapObs_thm (f : Obs → Obs) : (mapObs s f).thm = s.thm := rfl
@[simp] theorem mapObs_prn (f : Obs → Obs) : (mapObs s f).prn = s.prn := rfl
@[simp] theorem mapObs_pwm (f : Obs → Obs) : (mapObs s f).pwm = s.pwm := rfl
@[simp] theorem mapObs_gdv (f : Obs → Obs) : (mapObs s f).gdv = s.gdv := rfl
@[simp] theorem mapObs_prt (f : Obs → Obs) : (mapObs s f).prt = s.prt := rfl
@[simp] theorem mapObs_acq (f : Obs → Obs) : (mapObs s f).acq = s.acq := rfl
@[simp] theorem mapObs_pos (f : Obs → Obs) : (mapObs s f).pos = { s.pos with obs := s.pos.obs.map f } := rfl
@[simp] theorem mapObs_dmd (f : Obs → Obs) : (mapObs s f).dmd = s.dmd := rfl
@[simp] theorem mapObs_can (f : Obs → Obs) : (mapObs s f).can = s.can := rfl
@[simp] theorem mapObs_adx (f : Obs → Obs) : (mapObs s f).adx = s.adx := rfl
@[simp] theorem mapObs_crd (f : Obs → Obs) : (mapObs s f).crd = s.crd := rfl
@[simp] theorem mapObs_free (f : Obs → Obs) : (mapObs s f).free = s.free := rfl

/-! `updSaf` changes `saf`. -/

@[simp] theorem updSaf_pending (f : Safety → Safety) : (updSaf s f).pending = s.pending := rfl
@[simp] theorem updSaf_io (f : Safety → Safety) : (updSaf s f).io = s.io := rfl
@[simp] theorem updSaf_trc (f : Safety → Safety) : (updSaf s f).trc = s.trc := rfl
@[simp] theorem updSaf_drv (f : Safety → Safety) : (updSaf s f).drv = s.drv := rfl
@[simp] theorem updSaf_clk (f : Safety → Safety) : (updSaf s f).clk = s.clk := rfl
@[simp] theorem updSaf_aon (f : Safety → Safety) : (updSaf s f).aon = s.aon := rfl
@[simp] theorem updSaf_nv (f : Safety → Safety) : (updSaf s f).nv = s.nv := rfl
@[simp] theorem updSaf_boot (f : Safety → Safety) : (updSaf s f).boot = s.boot := rfl
@[simp] theorem updSaf_sup (f : Safety → Safety) : (updSaf s f).sup = s.sup := rfl
@[simp] theorem updSaf_icp (f : Safety → Safety) : (updSaf s f).icp = s.icp := rfl
@[simp] theorem updSaf_thk (f : Safety → Safety) : (updSaf s f).thk = s.thk := rfl
@[simp] theorem updSaf_chk (f : Safety → Safety) : (updSaf s f).chk = s.chk := rfl
@[simp] theorem updSaf_saf (f : Safety → Safety) : (updSaf s f).saf = f s.saf := rfl
@[simp] theorem updSaf_thm (f : Safety → Safety) : (updSaf s f).thm = s.thm := rfl
@[simp] theorem updSaf_prn (f : Safety → Safety) : (updSaf s f).prn = s.prn := rfl
@[simp] theorem updSaf_pwm (f : Safety → Safety) : (updSaf s f).pwm = s.pwm := rfl
@[simp] theorem updSaf_gdv (f : Safety → Safety) : (updSaf s f).gdv = s.gdv := rfl
@[simp] theorem updSaf_prt (f : Safety → Safety) : (updSaf s f).prt = s.prt := rfl
@[simp] theorem updSaf_acq (f : Safety → Safety) : (updSaf s f).acq = s.acq := rfl
@[simp] theorem updSaf_pos (f : Safety → Safety) : (updSaf s f).pos = s.pos := rfl
@[simp] theorem updSaf_dmd (f : Safety → Safety) : (updSaf s f).dmd = s.dmd := rfl
@[simp] theorem updSaf_can (f : Safety → Safety) : (updSaf s f).can = s.can := rfl
@[simp] theorem updSaf_adx (f : Safety → Safety) : (updSaf s f).adx = s.adx := rfl
@[simp] theorem updSaf_crd (f : Safety → Safety) : (updSaf s f).crd = s.crd := rfl
@[simp] theorem updSaf_free (f : Safety → Safety) : (updSaf s f).free = s.free := rfl

/-! `updMach` changes `saf`. -/

@[simp] theorem updMach_pending (m : Nat) (f : BlkMach → BlkMach) : (updMach s m f).pending = s.pending := rfl
@[simp] theorem updMach_io (m : Nat) (f : BlkMach → BlkMach) : (updMach s m f).io = s.io := rfl
@[simp] theorem updMach_trc (m : Nat) (f : BlkMach → BlkMach) : (updMach s m f).trc = s.trc := rfl
@[simp] theorem updMach_drv (m : Nat) (f : BlkMach → BlkMach) : (updMach s m f).drv = s.drv := rfl
@[simp] theorem updMach_clk (m : Nat) (f : BlkMach → BlkMach) : (updMach s m f).clk = s.clk := rfl
@[simp] theorem updMach_aon (m : Nat) (f : BlkMach → BlkMach) : (updMach s m f).aon = s.aon := rfl
@[simp] theorem updMach_nv (m : Nat) (f : BlkMach → BlkMach) : (updMach s m f).nv = s.nv := rfl
@[simp] theorem updMach_boot (m : Nat) (f : BlkMach → BlkMach) : (updMach s m f).boot = s.boot := rfl
@[simp] theorem updMach_sup (m : Nat) (f : BlkMach → BlkMach) : (updMach s m f).sup = s.sup := rfl
@[simp] theorem updMach_icp (m : Nat) (f : BlkMach → BlkMach) : (updMach s m f).icp = s.icp := rfl
@[simp] theorem updMach_thk (m : Nat) (f : BlkMach → BlkMach) : (updMach s m f).thk = s.thk := rfl
@[simp] theorem updMach_chk (m : Nat) (f : BlkMach → BlkMach) : (updMach s m f).chk = s.chk := rfl
@[simp] theorem updMach_saf (m : Nat) (f : BlkMach → BlkMach) : (updMach s m f).saf = { s.saf with mach := s.saf.mach.upd m f } := rfl
@[simp] theorem updMach_thm (m : Nat) (f : BlkMach → BlkMach) : (updMach s m f).thm = s.thm := rfl
@[simp] theorem updMach_prn (m : Nat) (f : BlkMach → BlkMach) : (updMach s m f).prn = s.prn := rfl
@[simp] theorem updMach_pwm (m : Nat) (f : BlkMach → BlkMach) : (updMach s m f).pwm = s.pwm := rfl
@[simp] theorem updMach_gdv (m : Nat) (f : BlkMach → BlkMach) : (updMach s m f).gdv = s.gdv := rfl
@[simp] theorem updMach_prt (m : Nat) (f : BlkMach → BlkMach) : (updMach s m f).prt = s.prt := rfl
@[simp] theorem updMach_acq (m : Nat) (f : BlkMach → BlkMach) : (updMach s m f).acq = s.acq := rfl
@[simp] theorem updMach_pos (m : Nat) (f : BlkMach → BlkMach) : (updMach s m f).pos = s.pos := rfl
@[simp] theorem updMach_dmd (m : Nat) (f : BlkMach → BlkMach) : (updMach s m f).dmd = s.dmd := rfl
@[simp] theorem updMach_can (m : Nat) (f : BlkMach → BlkMach) : (updMach s m f).can = s.can := rfl
@[simp] theorem updMach_adx (m : Nat) (f : BlkMach → BlkMach) : (updMach s m f).adx = s.adx := rfl
@[simp] theorem updMach_crd (m : Nat) (f : BlkMach → BlkMach) : (updMach s m f).crd = s.crd := rfl
@[simp] theorem updMach_free (m : Nat) (f : BlkMach → BlkMach) : (updMach s m f).free = s.free := rfl

/-! `updPair` changes `saf`. -/

@[simp] theorem updPair_pending (p : Nat) (f : PairIn → PairIn) : (updPair s p f).pending = s.pending := rfl
@[simp] theorem updPair_io (p : Nat) (f : PairIn → PairIn) : (updPair s p f).io = s.io := rfl
@[simp] theorem updPair_trc (p : Nat) (f : PairIn → PairIn) : (updPair s p f).trc = s.trc := rfl
@[simp] theorem updPair_drv (p : Nat) (f : PairIn → PairIn) : (updPair s p f).drv = s.drv := rfl
@[simp] theorem updPair_clk (p : Nat) (f : PairIn → PairIn) : (updPair s p f).clk = s.clk := rfl
@[simp] theorem updPair_aon (p : Nat) (f : PairIn → PairIn) : (updPair s p f).aon = s.aon := rfl
@[simp] theorem updPair_nv (p : Nat) (f : PairIn → PairIn) : (updPair s p f).nv = s.nv := rfl
@[simp] theorem updPair_boot (p : Nat) (f : PairIn → PairIn) : (updPair s p f).boot = s.boot := rfl
@[simp] theorem updPair_sup (p : Nat) (f : PairIn → PairIn) : (updPair s p f).sup = s.sup := rfl
@[simp] theorem updPair_icp (p : Nat) (f : PairIn → PairIn) : (updPair s p f).icp = s.icp := rfl
@[simp] theorem updPair_thk (p : Nat) (f : PairIn → PairIn) : (updPair s p f).thk = s.thk := rfl
@[simp] theorem updPair_chk (p : Nat) (f : PairIn → PairIn) : (updPair s p f).chk = s.chk := rfl
@[simp] theorem updPair_saf (p : Nat) (f : PairIn → PairIn) : (updPair s p f).saf = { s.saf with pairs := s.saf.pairs.upd p f } := rfl
@[simp] theorem updPair_thm (p : Nat) (f : PairIn → PairIn) : (updPair s p f).thm = s.thm := rfl
@[simp] theorem updPair_prn (p : Nat) (f : PairIn → PairIn) : (updPair s p f).prn = s.prn := rfl
@[simp] theorem updPair_pwm (p : Nat) (f : PairIn → PairIn) : (updPair s p f).pwm = s.pwm := rfl
@[simp] theorem updPair_gdv (p : Nat) (f : PairIn → PairIn) : (updPair s p f).gdv = s.gdv := rfl
@[simp] theorem updPair_prt (p : Nat) (f : PairIn → PairIn) : (updPair s p f).prt = s.prt := rfl
@[simp] theorem updPair_acq (p : Nat) (f : PairIn → PairIn) : (updPair s p f).acq = s.acq := rfl
@[simp] theorem updPair_pos (p : Nat) (f : PairIn → PairIn) : (updPair s p f).pos = s.pos := rfl
@[simp] theorem updPair_dmd (p : Nat) (f : PairIn → PairIn) : (updPair s p f).dmd = s.dmd := rfl
@[simp] theorem updPair_can (p : Nat) (f : PairIn → PairIn) : (updPair s p f).can = s.can := rfl
@[simp] theorem updPair_adx (p : Nat) (f : PairIn → PairIn) : (updPair s p f).adx = s.adx := rfl
@[simp] theorem updPair_crd (p : Nat) (f : PairIn → PairIn) : (updPair s p f).crd = s.crd := rfl
@[simp] theorem updPair_free (p : Nat) (f : PairIn → PairIn) : (updPair s p f).free = s.free := rfl

/-! `updThm` changes `thm`. -/

@[simp] theorem updThm_pending (f : Thermal → Thermal) : (updThm s f).pending = s.pending := rfl
@[simp] theorem updThm_io (f : Thermal → Thermal) : (updThm s f).io = s.io := rfl
@[simp] theorem updThm_trc (f : Thermal → Thermal) : (updThm s f).trc = s.trc := rfl
@[simp] theorem updThm_drv (f : Thermal → Thermal) : (updThm s f).drv = s.drv := rfl
@[simp] theorem updThm_clk (f : Thermal → Thermal) : (updThm s f).clk = s.clk := rfl
@[simp] theorem updThm_aon (f : Thermal → Thermal) : (updThm s f).aon = s.aon := rfl
@[simp] theorem updThm_nv (f : Thermal → Thermal) : (updThm s f).nv = s.nv := rfl
@[simp] theorem updThm_boot (f : Thermal → Thermal) : (updThm s f).boot = s.boot := rfl
@[simp] theorem updThm_sup (f : Thermal → Thermal) : (updThm s f).sup = s.sup := rfl
@[simp] theorem updThm_icp (f : Thermal → Thermal) : (updThm s f).icp = s.icp := rfl
@[simp] theorem updThm_thk (f : Thermal → Thermal) : (updThm s f).thk = s.thk := rfl
@[simp] theorem updThm_chk (f : Thermal → Thermal) : (updThm s f).chk = s.chk := rfl
@[simp] theorem updThm_saf (f : Thermal → Thermal) : (updThm s f).saf = s.saf := rfl
@[simp] theorem updThm_thm (f : Thermal → Thermal) : (updThm s f).thm = f s.thm := rfl
@[simp] theorem updThm_prn (f : Thermal → Thermal) : (updThm s f).prn = s.prn := rfl
@[simp] theorem updThm_pwm (f : Thermal → Thermal) : (updThm s f).pwm = s.pwm := rfl
@[simp] theorem updThm_gdv (f : Thermal → Thermal) : (updThm s f).gdv = s.gdv := rfl
@[simp] theorem updThm_prt (f : Thermal → Thermal) : (updThm s f).prt = s.prt := rfl
@[simp] theorem updThm_acq (f : Thermal → Thermal) : (updThm s f).acq = s.acq := rfl
@[simp] theorem updThm_pos (f : Thermal → Thermal) : (updThm s f).pos = s.pos := rfl
@[simp] theorem updThm_dmd (f : Thermal → Thermal) : (updThm s f).dmd = s.dmd := rfl
@[simp] theorem updThm_can (f : Thermal → Thermal) : (updThm s f).can = s.can := rfl
@[simp] theorem updThm_adx (f : Thermal → Thermal) : (updThm s f).adx = s.adx := rfl
@[simp] theorem updThm_crd (f : Thermal → Thermal) : (updThm s f).crd = s.crd := rfl
@[simp] theorem updThm_free (f : Thermal → Thermal) : (updThm s f).free = s.free := rfl

/-! `updSite` changes `nv`. -/

@[simp] theorem updSite_pending (k : Nat) (f : AgeSite → AgeSite) : (updSite s k f).pending = s.pending := rfl
@[simp] theorem updSite_io (k : Nat) (f : AgeSite → AgeSite) : (updSite s k f).io = s.io := rfl
@[simp] theorem updSite_trc (k : Nat) (f : AgeSite → AgeSite) : (updSite s k f).trc = s.trc := rfl
@[simp] theorem updSite_drv (k : Nat) (f : AgeSite → AgeSite) : (updSite s k f).drv = s.drv := rfl
@[simp] theorem updSite_clk (k : Nat) (f : AgeSite → AgeSite) : (updSite s k f).clk = s.clk := rfl
@[simp] theorem updSite_aon (k : Nat) (f : AgeSite → AgeSite) : (updSite s k f).aon = s.aon := rfl
@[simp] theorem updSite_nv (k : Nat) (f : AgeSite → AgeSite) : (updSite s k f).nv = { s.nv with age := s.nv.age.upd k f } := rfl
@[simp] theorem updSite_boot (k : Nat) (f : AgeSite → AgeSite) : (updSite s k f).boot = s.boot := rfl
@[simp] theorem updSite_sup (k : Nat) (f : AgeSite → AgeSite) : (updSite s k f).sup = s.sup := rfl
@[simp] theorem updSite_icp (k : Nat) (f : AgeSite → AgeSite) : (updSite s k f).icp = s.icp := rfl
@[simp] theorem updSite_thk (k : Nat) (f : AgeSite → AgeSite) : (updSite s k f).thk = s.thk := rfl
@[simp] theorem updSite_chk (k : Nat) (f : AgeSite → AgeSite) : (updSite s k f).chk = s.chk := rfl
@[simp] theorem updSite_saf (k : Nat) (f : AgeSite → AgeSite) : (updSite s k f).saf = s.saf := rfl
@[simp] theorem updSite_thm (k : Nat) (f : AgeSite → AgeSite) : (updSite s k f).thm = s.thm := rfl
@[simp] theorem updSite_prn (k : Nat) (f : AgeSite → AgeSite) : (updSite s k f).prn = s.prn := rfl
@[simp] theorem updSite_pwm (k : Nat) (f : AgeSite → AgeSite) : (updSite s k f).pwm = s.pwm := rfl
@[simp] theorem updSite_gdv (k : Nat) (f : AgeSite → AgeSite) : (updSite s k f).gdv = s.gdv := rfl
@[simp] theorem updSite_prt (k : Nat) (f : AgeSite → AgeSite) : (updSite s k f).prt = s.prt := rfl
@[simp] theorem updSite_acq (k : Nat) (f : AgeSite → AgeSite) : (updSite s k f).acq = s.acq := rfl
@[simp] theorem updSite_pos (k : Nat) (f : AgeSite → AgeSite) : (updSite s k f).pos = s.pos := rfl
@[simp] theorem updSite_dmd (k : Nat) (f : AgeSite → AgeSite) : (updSite s k f).dmd = s.dmd := rfl
@[simp] theorem updSite_can (k : Nat) (f : AgeSite → AgeSite) : (updSite s k f).can = s.can := rfl
@[simp] theorem updSite_adx (k : Nat) (f : AgeSite → AgeSite) : (updSite s k f).adx = s.adx := rfl
@[simp] theorem updSite_crd (k : Nat) (f : AgeSite → AgeSite) : (updSite s k f).crd = s.crd := rfl
@[simp] theorem updSite_free (k : Nat) (f : AgeSite → AgeSite) : (updSite s k f).free = s.free := rfl

/-! `updNv` changes `nv`. -/

@[simp] theorem updNv_pending (f : Nv → Nv) : (updNv s f).pending = s.pending := rfl
@[simp] theorem updNv_io (f : Nv → Nv) : (updNv s f).io = s.io := rfl
@[simp] theorem updNv_trc (f : Nv → Nv) : (updNv s f).trc = s.trc := rfl
@[simp] theorem updNv_drv (f : Nv → Nv) : (updNv s f).drv = s.drv := rfl
@[simp] theorem updNv_clk (f : Nv → Nv) : (updNv s f).clk = s.clk := rfl
@[simp] theorem updNv_aon (f : Nv → Nv) : (updNv s f).aon = s.aon := rfl
@[simp] theorem updNv_nv (f : Nv → Nv) : (updNv s f).nv = f s.nv := rfl
@[simp] theorem updNv_boot (f : Nv → Nv) : (updNv s f).boot = s.boot := rfl
@[simp] theorem updNv_sup (f : Nv → Nv) : (updNv s f).sup = s.sup := rfl
@[simp] theorem updNv_icp (f : Nv → Nv) : (updNv s f).icp = s.icp := rfl
@[simp] theorem updNv_thk (f : Nv → Nv) : (updNv s f).thk = s.thk := rfl
@[simp] theorem updNv_chk (f : Nv → Nv) : (updNv s f).chk = s.chk := rfl
@[simp] theorem updNv_saf (f : Nv → Nv) : (updNv s f).saf = s.saf := rfl
@[simp] theorem updNv_thm (f : Nv → Nv) : (updNv s f).thm = s.thm := rfl
@[simp] theorem updNv_prn (f : Nv → Nv) : (updNv s f).prn = s.prn := rfl
@[simp] theorem updNv_pwm (f : Nv → Nv) : (updNv s f).pwm = s.pwm := rfl
@[simp] theorem updNv_gdv (f : Nv → Nv) : (updNv s f).gdv = s.gdv := rfl
@[simp] theorem updNv_prt (f : Nv → Nv) : (updNv s f).prt = s.prt := rfl
@[simp] theorem updNv_acq (f : Nv → Nv) : (updNv s f).acq = s.acq := rfl
@[simp] theorem updNv_pos (f : Nv → Nv) : (updNv s f).pos = s.pos := rfl
@[simp] theorem updNv_dmd (f : Nv → Nv) : (updNv s f).dmd = s.dmd := rfl
@[simp] theorem updNv_can (f : Nv → Nv) : (updNv s f).can = s.can := rfl
@[simp] theorem updNv_adx (f : Nv → Nv) : (updNv s f).adx = s.adx := rfl
@[simp] theorem updNv_crd (f : Nv → Nv) : (updNv s f).crd = s.crd := rfl
@[simp] theorem updNv_free (f : Nv → Nv) : (updNv s f).free = s.free := rfl

/-! `updBank` changes `nv`. -/

@[simp] theorem updBank_pending (b : Nat) (f : FwBank → FwBank) : (updBank s b f).pending = s.pending := rfl
@[simp] theorem updBank_io (b : Nat) (f : FwBank → FwBank) : (updBank s b f).io = s.io := rfl
@[simp] theorem updBank_trc (b : Nat) (f : FwBank → FwBank) : (updBank s b f).trc = s.trc := rfl
@[simp] theorem updBank_drv (b : Nat) (f : FwBank → FwBank) : (updBank s b f).drv = s.drv := rfl
@[simp] theorem updBank_clk (b : Nat) (f : FwBank → FwBank) : (updBank s b f).clk = s.clk := rfl
@[simp] theorem updBank_aon (b : Nat) (f : FwBank → FwBank) : (updBank s b f).aon = s.aon := rfl
@[simp] theorem updBank_nv (b : Nat) (f : FwBank → FwBank) : (updBank s b f).nv = { s.nv with banks := s.nv.banks.upd b f } := rfl
@[simp] theorem updBank_boot (b : Nat) (f : FwBank → FwBank) : (updBank s b f).boot = s.boot := rfl
@[simp] theorem updBank_sup (b : Nat) (f : FwBank → FwBank) : (updBank s b f).sup = s.sup := rfl
@[simp] theorem updBank_icp (b : Nat) (f : FwBank → FwBank) : (updBank s b f).icp = s.icp := rfl
@[simp] theorem updBank_thk (b : Nat) (f : FwBank → FwBank) : (updBank s b f).thk = s.thk := rfl
@[simp] theorem updBank_chk (b : Nat) (f : FwBank → FwBank) : (updBank s b f).chk = s.chk := rfl
@[simp] theorem updBank_saf (b : Nat) (f : FwBank → FwBank) : (updBank s b f).saf = s.saf := rfl
@[simp] theorem updBank_thm (b : Nat) (f : FwBank → FwBank) : (updBank s b f).thm = s.thm := rfl
@[simp] theorem updBank_prn (b : Nat) (f : FwBank → FwBank) : (updBank s b f).prn = s.prn := rfl
@[simp] theorem updBank_pwm (b : Nat) (f : FwBank → FwBank) : (updBank s b f).pwm = s.pwm := rfl
@[simp] theorem updBank_gdv (b : Nat) (f : FwBank → FwBank) : (updBank s b f).gdv = s.gdv := rfl
@[simp] theorem updBank_prt (b : Nat) (f : FwBank → FwBank) : (updBank s b f).prt = s.prt := rfl
@[simp] theorem updBank_acq (b : Nat) (f : FwBank → FwBank) : (updBank s b f).acq = s.acq := rfl
@[simp] theorem updBank_pos (b : Nat) (f : FwBank → FwBank) : (updBank s b f).pos = s.pos := rfl
@[simp] theorem updBank_dmd (b : Nat) (f : FwBank → FwBank) : (updBank s b f).dmd = s.dmd := rfl
@[simp] theorem updBank_can (b : Nat) (f : FwBank → FwBank) : (updBank s b f).can = s.can := rfl
@[simp] theorem updBank_adx (b : Nat) (f : FwBank → FwBank) : (updBank s b f).adx = s.adx := rfl
@[simp] theorem updBank_crd (b : Nat) (f : FwBank → FwBank) : (updBank s b f).crd = s.crd := rfl
@[simp] theorem updBank_free (b : Nat) (f : FwBank → FwBank) : (updBank s b f).free = s.free := rfl

/-! `updFuses` changes `nv`. -/

@[simp] theorem updFuses_pending (f : Fuses → Fuses) : (updFuses s f).pending = s.pending := rfl
@[simp] theorem updFuses_io (f : Fuses → Fuses) : (updFuses s f).io = s.io := rfl
@[simp] theorem updFuses_trc (f : Fuses → Fuses) : (updFuses s f).trc = s.trc := rfl
@[simp] theorem updFuses_drv (f : Fuses → Fuses) : (updFuses s f).drv = s.drv := rfl
@[simp] theorem updFuses_clk (f : Fuses → Fuses) : (updFuses s f).clk = s.clk := rfl
@[simp] theorem updFuses_aon (f : Fuses → Fuses) : (updFuses s f).aon = s.aon := rfl
@[simp] theorem updFuses_nv (f : Fuses → Fuses) : (updFuses s f).nv = { s.nv with fuses := f s.nv.fuses } := rfl
@[simp] theorem updFuses_boot (f : Fuses → Fuses) : (updFuses s f).boot = s.boot := rfl
@[simp] theorem updFuses_sup (f : Fuses → Fuses) : (updFuses s f).sup = s.sup := rfl
@[simp] theorem updFuses_icp (f : Fuses → Fuses) : (updFuses s f).icp = s.icp := rfl
@[simp] theorem updFuses_thk (f : Fuses → Fuses) : (updFuses s f).thk = s.thk := rfl
@[simp] theorem updFuses_chk (f : Fuses → Fuses) : (updFuses s f).chk = s.chk := rfl
@[simp] theorem updFuses_saf (f : Fuses → Fuses) : (updFuses s f).saf = s.saf := rfl
@[simp] theorem updFuses_thm (f : Fuses → Fuses) : (updFuses s f).thm = s.thm := rfl
@[simp] theorem updFuses_prn (f : Fuses → Fuses) : (updFuses s f).prn = s.prn := rfl
@[simp] theorem updFuses_pwm (f : Fuses → Fuses) : (updFuses s f).pwm = s.pwm := rfl
@[simp] theorem updFuses_gdv (f : Fuses → Fuses) : (updFuses s f).gdv = s.gdv := rfl
@[simp] theorem updFuses_prt (f : Fuses → Fuses) : (updFuses s f).prt = s.prt := rfl
@[simp] theorem updFuses_acq (f : Fuses → Fuses) : (updFuses s f).acq = s.acq := rfl
@[simp] theorem updFuses_pos (f : Fuses → Fuses) : (updFuses s f).pos = s.pos := rfl
@[simp] theorem updFuses_dmd (f : Fuses → Fuses) : (updFuses s f).dmd = s.dmd := rfl
@[simp] theorem updFuses_can (f : Fuses → Fuses) : (updFuses s f).can = s.can := rfl
@[simp] theorem updFuses_adx (f : Fuses → Fuses) : (updFuses s f).adx = s.adx := rfl
@[simp] theorem updFuses_crd (f : Fuses → Fuses) : (updFuses s f).crd = s.crd := rfl
@[simp] theorem updFuses_free (f : Fuses → Fuses) : (updFuses s f).free = s.free := rfl

/-! `updSup` changes `sup`. -/

@[simp] theorem updSup_pending (f : Supply → Supply) : (updSup s f).pending = s.pending := rfl
@[simp] theorem updSup_io (f : Supply → Supply) : (updSup s f).io = s.io := rfl
@[simp] theorem updSup_trc (f : Supply → Supply) : (updSup s f).trc = s.trc := rfl
@[simp] theorem updSup_drv (f : Supply → Supply) : (updSup s f).drv = s.drv := rfl
@[simp] theorem updSup_clk (f : Supply → Supply) : (updSup s f).clk = s.clk := rfl
@[simp] theorem updSup_aon (f : Supply → Supply) : (updSup s f).aon = s.aon := rfl
@[simp] theorem updSup_nv (f : Supply → Supply) : (updSup s f).nv = s.nv := rfl
@[simp] theorem updSup_boot (f : Supply → Supply) : (updSup s f).boot = s.boot := rfl
@[simp] theorem updSup_sup (f : Supply → Supply) : (updSup s f).sup = f s.sup := rfl
@[simp] theorem updSup_icp (f : Supply → Supply) : (updSup s f).icp = s.icp := rfl
@[simp] theorem updSup_thk (f : Supply → Supply) : (updSup s f).thk = s.thk := rfl
@[simp] theorem updSup_chk (f : Supply → Supply) : (updSup s f).chk = s.chk := rfl
@[simp] theorem updSup_saf (f : Supply → Supply) : (updSup s f).saf = s.saf := rfl
@[simp] theorem updSup_thm (f : Supply → Supply) : (updSup s f).thm = s.thm := rfl
@[simp] theorem updSup_prn (f : Supply → Supply) : (updSup s f).prn = s.prn := rfl
@[simp] theorem updSup_pwm (f : Supply → Supply) : (updSup s f).pwm = s.pwm := rfl
@[simp] theorem updSup_gdv (f : Supply → Supply) : (updSup s f).gdv = s.gdv := rfl
@[simp] theorem updSup_prt (f : Supply → Supply) : (updSup s f).prt = s.prt := rfl
@[simp] theorem updSup_acq (f : Supply → Supply) : (updSup s f).acq = s.acq := rfl
@[simp] theorem updSup_pos (f : Supply → Supply) : (updSup s f).pos = s.pos := rfl
@[simp] theorem updSup_dmd (f : Supply → Supply) : (updSup s f).dmd = s.dmd := rfl
@[simp] theorem updSup_can (f : Supply → Supply) : (updSup s f).can = s.can := rfl
@[simp] theorem updSup_adx (f : Supply → Supply) : (updSup s f).adx = s.adx := rfl
@[simp] theorem updSup_crd (f : Supply → Supply) : (updSup s f).crd = s.crd := rfl
@[simp] theorem updSup_free (f : Supply → Supply) : (updSup s f).free = s.free := rfl

/-! `updIcp` changes `icp`. -/

@[simp] theorem updIcp_pending (f : Pair → Pair) : (updIcp s f).pending = s.pending := rfl
@[simp] theorem updIcp_io (f : Pair → Pair) : (updIcp s f).io = s.io := rfl
@[simp] theorem updIcp_trc (f : Pair → Pair) : (updIcp s f).trc = s.trc := rfl
@[simp] theorem updIcp_drv (f : Pair → Pair) : (updIcp s f).drv = s.drv := rfl
@[simp] theorem updIcp_clk (f : Pair → Pair) : (updIcp s f).clk = s.clk := rfl
@[simp] theorem updIcp_aon (f : Pair → Pair) : (updIcp s f).aon = s.aon := rfl
@[simp] theorem updIcp_nv (f : Pair → Pair) : (updIcp s f).nv = s.nv := rfl
@[simp] theorem updIcp_boot (f : Pair → Pair) : (updIcp s f).boot = s.boot := rfl
@[simp] theorem updIcp_sup (f : Pair → Pair) : (updIcp s f).sup = s.sup := rfl
@[simp] theorem updIcp_icp (f : Pair → Pair) : (updIcp s f).icp = f s.icp := rfl
@[simp] theorem updIcp_thk (f : Pair → Pair) : (updIcp s f).thk = s.thk := rfl
@[simp] theorem updIcp_chk (f : Pair → Pair) : (updIcp s f).chk = s.chk := rfl
@[simp] theorem updIcp_saf (f : Pair → Pair) : (updIcp s f).saf = s.saf := rfl
@[simp] theorem updIcp_thm (f : Pair → Pair) : (updIcp s f).thm = s.thm := rfl
@[simp] theorem updIcp_prn (f : Pair → Pair) : (updIcp s f).prn = s.prn := rfl
@[simp] theorem updIcp_pwm (f : Pair → Pair) : (updIcp s f).pwm = s.pwm := rfl
@[simp] theorem updIcp_gdv (f : Pair → Pair) : (updIcp s f).gdv = s.gdv := rfl
@[simp] theorem updIcp_prt (f : Pair → Pair) : (updIcp s f).prt = s.prt := rfl
@[simp] theorem updIcp_acq (f : Pair → Pair) : (updIcp s f).acq = s.acq := rfl
@[simp] theorem updIcp_pos (f : Pair → Pair) : (updIcp s f).pos = s.pos := rfl
@[simp] theorem updIcp_dmd (f : Pair → Pair) : (updIcp s f).dmd = s.dmd := rfl
@[simp] theorem updIcp_can (f : Pair → Pair) : (updIcp s f).can = s.can := rfl
@[simp] theorem updIcp_adx (f : Pair → Pair) : (updIcp s f).adx = s.adx := rfl
@[simp] theorem updIcp_crd (f : Pair → Pair) : (updIcp s f).crd = s.crd := rfl
@[simp] theorem updIcp_free (f : Pair → Pair) : (updIcp s f).free = s.free := rfl

/-! `updPrn` changes `prn`. -/

@[simp] theorem updPrn_pending (f : Pruner → Pruner) : (updPrn s f).pending = s.pending := rfl
@[simp] theorem updPrn_io (f : Pruner → Pruner) : (updPrn s f).io = s.io := rfl
@[simp] theorem updPrn_trc (f : Pruner → Pruner) : (updPrn s f).trc = s.trc := rfl
@[simp] theorem updPrn_drv (f : Pruner → Pruner) : (updPrn s f).drv = s.drv := rfl
@[simp] theorem updPrn_clk (f : Pruner → Pruner) : (updPrn s f).clk = s.clk := rfl
@[simp] theorem updPrn_aon (f : Pruner → Pruner) : (updPrn s f).aon = s.aon := rfl
@[simp] theorem updPrn_nv (f : Pruner → Pruner) : (updPrn s f).nv = s.nv := rfl
@[simp] theorem updPrn_boot (f : Pruner → Pruner) : (updPrn s f).boot = s.boot := rfl
@[simp] theorem updPrn_sup (f : Pruner → Pruner) : (updPrn s f).sup = s.sup := rfl
@[simp] theorem updPrn_icp (f : Pruner → Pruner) : (updPrn s f).icp = s.icp := rfl
@[simp] theorem updPrn_thk (f : Pruner → Pruner) : (updPrn s f).thk = s.thk := rfl
@[simp] theorem updPrn_chk (f : Pruner → Pruner) : (updPrn s f).chk = s.chk := rfl
@[simp] theorem updPrn_saf (f : Pruner → Pruner) : (updPrn s f).saf = s.saf := rfl
@[simp] theorem updPrn_thm (f : Pruner → Pruner) : (updPrn s f).thm = s.thm := rfl
@[simp] theorem updPrn_prn (f : Pruner → Pruner) : (updPrn s f).prn = f s.prn := rfl
@[simp] theorem updPrn_pwm (f : Pruner → Pruner) : (updPrn s f).pwm = s.pwm := rfl
@[simp] theorem updPrn_gdv (f : Pruner → Pruner) : (updPrn s f).gdv = s.gdv := rfl
@[simp] theorem updPrn_prt (f : Pruner → Pruner) : (updPrn s f).prt = s.prt := rfl
@[simp] theorem updPrn_acq (f : Pruner → Pruner) : (updPrn s f).acq = s.acq := rfl
@[simp] theorem updPrn_pos (f : Pruner → Pruner) : (updPrn s f).pos = s.pos := rfl
@[simp] theorem updPrn_dmd (f : Pruner → Pruner) : (updPrn s f).dmd = s.dmd := rfl
@[simp] theorem updPrn_can (f : Pruner → Pruner) : (updPrn s f).can = s.can := rfl
@[simp] theorem updPrn_adx (f : Pruner → Pruner) : (updPrn s f).adx = s.adx := rfl
@[simp] theorem updPrn_crd (f : Pruner → Pruner) : (updPrn s f).crd = s.crd := rfl
@[simp] theorem updPrn_free (f : Pruner → Pruner) : (updPrn s f).free = s.free := rfl

/-! `updCatch` changes `dmd`. -/

@[simp] theorem updCatch_pending (m : Nat) (f : Catch → Catch) : (updCatch s m f).pending = s.pending := rfl
@[simp] theorem updCatch_io (m : Nat) (f : Catch → Catch) : (updCatch s m f).io = s.io := rfl
@[simp] theorem updCatch_trc (m : Nat) (f : Catch → Catch) : (updCatch s m f).trc = s.trc := rfl
@[simp] theorem updCatch_drv (m : Nat) (f : Catch → Catch) : (updCatch s m f).drv = s.drv := rfl
@[simp] theorem updCatch_clk (m : Nat) (f : Catch → Catch) : (updCatch s m f).clk = s.clk := rfl
@[simp] theorem updCatch_aon (m : Nat) (f : Catch → Catch) : (updCatch s m f).aon = s.aon := rfl
@[simp] theorem updCatch_nv (m : Nat) (f : Catch → Catch) : (updCatch s m f).nv = s.nv := rfl
@[simp] theorem updCatch_boot (m : Nat) (f : Catch → Catch) : (updCatch s m f).boot = s.boot := rfl
@[simp] theorem updCatch_sup (m : Nat) (f : Catch → Catch) : (updCatch s m f).sup = s.sup := rfl
@[simp] theorem updCatch_icp (m : Nat) (f : Catch → Catch) : (updCatch s m f).icp = s.icp := rfl
@[simp] theorem updCatch_thk (m : Nat) (f : Catch → Catch) : (updCatch s m f).thk = s.thk := rfl
@[simp] theorem updCatch_chk (m : Nat) (f : Catch → Catch) : (updCatch s m f).chk = s.chk := rfl
@[simp] theorem updCatch_saf (m : Nat) (f : Catch → Catch) : (updCatch s m f).saf = s.saf := rfl
@[simp] theorem updCatch_thm (m : Nat) (f : Catch → Catch) : (updCatch s m f).thm = s.thm := rfl
@[simp] theorem updCatch_prn (m : Nat) (f : Catch → Catch) : (updCatch s m f).prn = s.prn := rfl
@[simp] theorem updCatch_pwm (m : Nat) (f : Catch → Catch) : (updCatch s m f).pwm = s.pwm := rfl
@[simp] theorem updCatch_gdv (m : Nat) (f : Catch → Catch) : (updCatch s m f).gdv = s.gdv := rfl
@[simp] theorem updCatch_prt (m : Nat) (f : Catch → Catch) : (updCatch s m f).prt = s.prt := rfl
@[simp] theorem updCatch_acq (m : Nat) (f : Catch → Catch) : (updCatch s m f).acq = s.acq := rfl
@[simp] theorem updCatch_pos (m : Nat) (f : Catch → Catch) : (updCatch s m f).pos = s.pos := rfl
@[simp] theorem updCatch_dmd (m : Nat) (f : Catch → Catch) :
    (updCatch s m f).dmd = { s.dmd with catch_ := s.dmd.catch_.put m (f (s.dmd.catch_.at m)) } := rfl
@[simp] theorem updCatch_can (m : Nat) (f : Catch → Catch) : (updCatch s m f).can = s.can := rfl
@[simp] theorem updCatch_adx (m : Nat) (f : Catch → Catch) : (updCatch s m f).adx = s.adx := rfl
@[simp] theorem updCatch_crd (m : Nat) (f : Catch → Catch) : (updCatch s m f).crd = s.crd := rfl
@[simp] theorem updCatch_free (m : Nat) (f : Catch → Catch) : (updCatch s m f).free = s.free := rfl

/-! `updCan` changes `can`. -/

@[simp] theorem updCan_pending (c : Nat) (f : Can → Can) : (updCan s c f).pending = s.pending := rfl
@[simp] theorem updCan_io (c : Nat) (f : Can → Can) : (updCan s c f).io = s.io := rfl
@[simp] theorem updCan_trc (c : Nat) (f : Can → Can) : (updCan s c f).trc = s.trc := rfl
@[simp] theorem updCan_drv (c : Nat) (f : Can → Can) : (updCan s c f).drv = s.drv := rfl
@[simp] theorem updCan_clk (c : Nat) (f : Can → Can) : (updCan s c f).clk = s.clk := rfl
@[simp] theorem updCan_aon (c : Nat) (f : Can → Can) : (updCan s c f).aon = s.aon := rfl
@[simp] theorem updCan_nv (c : Nat) (f : Can → Can) : (updCan s c f).nv = s.nv := rfl
@[simp] theorem updCan_boot (c : Nat) (f : Can → Can) : (updCan s c f).boot = s.boot := rfl
@[simp] theorem updCan_sup (c : Nat) (f : Can → Can) : (updCan s c f).sup = s.sup := rfl
@[simp] theorem updCan_icp (c : Nat) (f : Can → Can) : (updCan s c f).icp = s.icp := rfl
@[simp] theorem updCan_thk (c : Nat) (f : Can → Can) : (updCan s c f).thk = s.thk := rfl
@[simp] theorem updCan_chk (c : Nat) (f : Can → Can) : (updCan s c f).chk = s.chk := rfl
@[simp] theorem updCan_saf (c : Nat) (f : Can → Can) : (updCan s c f).saf = s.saf := rfl
@[simp] theorem updCan_thm (c : Nat) (f : Can → Can) : (updCan s c f).thm = s.thm := rfl
@[simp] theorem updCan_prn (c : Nat) (f : Can → Can) : (updCan s c f).prn = s.prn := rfl
@[simp] theorem updCan_pwm (c : Nat) (f : Can → Can) : (updCan s c f).pwm = s.pwm := rfl
@[simp] theorem updCan_gdv (c : Nat) (f : Can → Can) : (updCan s c f).gdv = s.gdv := rfl
@[simp] theorem updCan_prt (c : Nat) (f : Can → Can) : (updCan s c f).prt = s.prt := rfl
@[simp] theorem updCan_acq (c : Nat) (f : Can → Can) : (updCan s c f).acq = s.acq := rfl
@[simp] theorem updCan_pos (c : Nat) (f : Can → Can) : (updCan s c f).pos = s.pos := rfl
@[simp] theorem updCan_dmd (c : Nat) (f : Can → Can) : (updCan s c f).dmd = s.dmd := rfl
@[simp] theorem updCan_can (c : Nat) (f : Can → Can) : (updCan s c f).can = s.can.upd c f := rfl
@[simp] theorem updCan_adx (c : Nat) (f : Can → Can) : (updCan s c f).adx = s.adx := rfl
@[simp] theorem updCan_crd (c : Nat) (f : Can → Can) : (updCan s c f).crd = s.crd := rfl
@[simp] theorem updCan_free (c : Nat) (f : Can → Can) : (updCan s c f).free = s.free := rfl

/-! `updObj` changes `can`. -/

@[simp] theorem updObj_pending (c o : Nat) (f : CanObj → CanObj) : (updObj s c o f).pending = s.pending := rfl
@[simp] theorem updObj_io (c o : Nat) (f : CanObj → CanObj) : (updObj s c o f).io = s.io := rfl
@[simp] theorem updObj_trc (c o : Nat) (f : CanObj → CanObj) : (updObj s c o f).trc = s.trc := rfl
@[simp] theorem updObj_drv (c o : Nat) (f : CanObj → CanObj) : (updObj s c o f).drv = s.drv := rfl
@[simp] theorem updObj_clk (c o : Nat) (f : CanObj → CanObj) : (updObj s c o f).clk = s.clk := rfl
@[simp] theorem updObj_aon (c o : Nat) (f : CanObj → CanObj) : (updObj s c o f).aon = s.aon := rfl
@[simp] theorem updObj_nv (c o : Nat) (f : CanObj → CanObj) : (updObj s c o f).nv = s.nv := rfl
@[simp] theorem updObj_boot (c o : Nat) (f : CanObj → CanObj) : (updObj s c o f).boot = s.boot := rfl
@[simp] theorem updObj_sup (c o : Nat) (f : CanObj → CanObj) : (updObj s c o f).sup = s.sup := rfl
@[simp] theorem updObj_icp (c o : Nat) (f : CanObj → CanObj) : (updObj s c o f).icp = s.icp := rfl
@[simp] theorem updObj_thk (c o : Nat) (f : CanObj → CanObj) : (updObj s c o f).thk = s.thk := rfl
@[simp] theorem updObj_chk (c o : Nat) (f : CanObj → CanObj) : (updObj s c o f).chk = s.chk := rfl
@[simp] theorem updObj_saf (c o : Nat) (f : CanObj → CanObj) : (updObj s c o f).saf = s.saf := rfl
@[simp] theorem updObj_thm (c o : Nat) (f : CanObj → CanObj) : (updObj s c o f).thm = s.thm := rfl
@[simp] theorem updObj_prn (c o : Nat) (f : CanObj → CanObj) : (updObj s c o f).prn = s.prn := rfl
@[simp] theorem updObj_pwm (c o : Nat) (f : CanObj → CanObj) : (updObj s c o f).pwm = s.pwm := rfl
@[simp] theorem updObj_gdv (c o : Nat) (f : CanObj → CanObj) : (updObj s c o f).gdv = s.gdv := rfl
@[simp] theorem updObj_prt (c o : Nat) (f : CanObj → CanObj) : (updObj s c o f).prt = s.prt := rfl
@[simp] theorem updObj_acq (c o : Nat) (f : CanObj → CanObj) : (updObj s c o f).acq = s.acq := rfl
@[simp] theorem updObj_pos (c o : Nat) (f : CanObj → CanObj) : (updObj s c o f).pos = s.pos := rfl
@[simp] theorem updObj_dmd (c o : Nat) (f : CanObj → CanObj) : (updObj s c o f).dmd = s.dmd := rfl
@[simp] theorem updObj_can (c o : Nat) (f : CanObj → CanObj) :
    (updObj s c o f).can = s.can.upd c fun x => { x with objs := x.objs.upd o f } := rfl
@[simp] theorem updObj_adx (c o : Nat) (f : CanObj → CanObj) : (updObj s c o f).adx = s.adx := rfl
@[simp] theorem updObj_crd (c o : Nat) (f : CanObj → CanObj) : (updObj s c o f).crd = s.crd := rfl
@[simp] theorem updObj_free (c o : Nat) (f : CanObj → CanObj) : (updObj s c o f).free = s.free := rfl

/-! `updAdx` changes `adx`. -/

@[simp] theorem updAdx_pending (f : Adx → Adx) : (updAdx s f).pending = s.pending := rfl
@[simp] theorem updAdx_io (f : Adx → Adx) : (updAdx s f).io = s.io := rfl
@[simp] theorem updAdx_trc (f : Adx → Adx) : (updAdx s f).trc = s.trc := rfl
@[simp] theorem updAdx_drv (f : Adx → Adx) : (updAdx s f).drv = s.drv := rfl
@[simp] theorem updAdx_clk (f : Adx → Adx) : (updAdx s f).clk = s.clk := rfl
@[simp] theorem updAdx_aon (f : Adx → Adx) : (updAdx s f).aon = s.aon := rfl
@[simp] theorem updAdx_nv (f : Adx → Adx) : (updAdx s f).nv = s.nv := rfl
@[simp] theorem updAdx_boot (f : Adx → Adx) : (updAdx s f).boot = s.boot := rfl
@[simp] theorem updAdx_sup (f : Adx → Adx) : (updAdx s f).sup = s.sup := rfl
@[simp] theorem updAdx_icp (f : Adx → Adx) : (updAdx s f).icp = s.icp := rfl
@[simp] theorem updAdx_thk (f : Adx → Adx) : (updAdx s f).thk = s.thk := rfl
@[simp] theorem updAdx_chk (f : Adx → Adx) : (updAdx s f).chk = s.chk := rfl
@[simp] theorem updAdx_saf (f : Adx → Adx) : (updAdx s f).saf = s.saf := rfl
@[simp] theorem updAdx_thm (f : Adx → Adx) : (updAdx s f).thm = s.thm := rfl
@[simp] theorem updAdx_prn (f : Adx → Adx) : (updAdx s f).prn = s.prn := rfl
@[simp] theorem updAdx_pwm (f : Adx → Adx) : (updAdx s f).pwm = s.pwm := rfl
@[simp] theorem updAdx_gdv (f : Adx → Adx) : (updAdx s f).gdv = s.gdv := rfl
@[simp] theorem updAdx_prt (f : Adx → Adx) : (updAdx s f).prt = s.prt := rfl
@[simp] theorem updAdx_acq (f : Adx → Adx) : (updAdx s f).acq = s.acq := rfl
@[simp] theorem updAdx_pos (f : Adx → Adx) : (updAdx s f).pos = s.pos := rfl
@[simp] theorem updAdx_dmd (f : Adx → Adx) : (updAdx s f).dmd = s.dmd := rfl
@[simp] theorem updAdx_can (f : Adx → Adx) : (updAdx s f).can = s.can := rfl
@[simp] theorem updAdx_adx (f : Adx → Adx) : (updAdx s f).adx = f s.adx := rfl
@[simp] theorem updAdx_crd (f : Adx → Adx) : (updAdx s f).crd = s.crd := rfl
@[simp] theorem updAdx_free (f : Adx → Adx) : (updAdx s f).free = s.free := rfl

/-! `updPort` changes `adx`. -/

@[simp] theorem updPort_pending (p : Nat) (f : AdxPort → AdxPort) : (updPort s p f).pending = s.pending := rfl
@[simp] theorem updPort_io (p : Nat) (f : AdxPort → AdxPort) : (updPort s p f).io = s.io := rfl
@[simp] theorem updPort_trc (p : Nat) (f : AdxPort → AdxPort) : (updPort s p f).trc = s.trc := rfl
@[simp] theorem updPort_drv (p : Nat) (f : AdxPort → AdxPort) : (updPort s p f).drv = s.drv := rfl
@[simp] theorem updPort_clk (p : Nat) (f : AdxPort → AdxPort) : (updPort s p f).clk = s.clk := rfl
@[simp] theorem updPort_aon (p : Nat) (f : AdxPort → AdxPort) : (updPort s p f).aon = s.aon := rfl
@[simp] theorem updPort_nv (p : Nat) (f : AdxPort → AdxPort) : (updPort s p f).nv = s.nv := rfl
@[simp] theorem updPort_boot (p : Nat) (f : AdxPort → AdxPort) : (updPort s p f).boot = s.boot := rfl
@[simp] theorem updPort_sup (p : Nat) (f : AdxPort → AdxPort) : (updPort s p f).sup = s.sup := rfl
@[simp] theorem updPort_icp (p : Nat) (f : AdxPort → AdxPort) : (updPort s p f).icp = s.icp := rfl
@[simp] theorem updPort_thk (p : Nat) (f : AdxPort → AdxPort) : (updPort s p f).thk = s.thk := rfl
@[simp] theorem updPort_chk (p : Nat) (f : AdxPort → AdxPort) : (updPort s p f).chk = s.chk := rfl
@[simp] theorem updPort_saf (p : Nat) (f : AdxPort → AdxPort) : (updPort s p f).saf = s.saf := rfl
@[simp] theorem updPort_thm (p : Nat) (f : AdxPort → AdxPort) : (updPort s p f).thm = s.thm := rfl
@[simp] theorem updPort_prn (p : Nat) (f : AdxPort → AdxPort) : (updPort s p f).prn = s.prn := rfl
@[simp] theorem updPort_pwm (p : Nat) (f : AdxPort → AdxPort) : (updPort s p f).pwm = s.pwm := rfl
@[simp] theorem updPort_gdv (p : Nat) (f : AdxPort → AdxPort) : (updPort s p f).gdv = s.gdv := rfl
@[simp] theorem updPort_prt (p : Nat) (f : AdxPort → AdxPort) : (updPort s p f).prt = s.prt := rfl
@[simp] theorem updPort_acq (p : Nat) (f : AdxPort → AdxPort) : (updPort s p f).acq = s.acq := rfl
@[simp] theorem updPort_pos (p : Nat) (f : AdxPort → AdxPort) : (updPort s p f).pos = s.pos := rfl
@[simp] theorem updPort_dmd (p : Nat) (f : AdxPort → AdxPort) : (updPort s p f).dmd = s.dmd := rfl
@[simp] theorem updPort_can (p : Nat) (f : AdxPort → AdxPort) : (updPort s p f).can = s.can := rfl
@[simp] theorem updPort_adx (p : Nat) (f : AdxPort → AdxPort) : (updPort s p f).adx = { s.adx with ports := s.adx.ports.upd p f } := rfl
@[simp] theorem updPort_crd (p : Nat) (f : AdxPort → AdxPort) : (updPort s p f).crd = s.crd := rfl
@[simp] theorem updPort_free (p : Nat) (f : AdxPort → AdxPort) : (updPort s p f).free = s.free := rfl

/-! `updCrd` changes `crd`. -/

@[simp] theorem updCrd_pending (f : Crd → Crd) : (updCrd s f).pending = s.pending := rfl
@[simp] theorem updCrd_io (f : Crd → Crd) : (updCrd s f).io = s.io := rfl
@[simp] theorem updCrd_trc (f : Crd → Crd) : (updCrd s f).trc = s.trc := rfl
@[simp] theorem updCrd_drv (f : Crd → Crd) : (updCrd s f).drv = s.drv := rfl
@[simp] theorem updCrd_clk (f : Crd → Crd) : (updCrd s f).clk = s.clk := rfl
@[simp] theorem updCrd_aon (f : Crd → Crd) : (updCrd s f).aon = s.aon := rfl
@[simp] theorem updCrd_nv (f : Crd → Crd) : (updCrd s f).nv = s.nv := rfl
@[simp] theorem updCrd_boot (f : Crd → Crd) : (updCrd s f).boot = s.boot := rfl
@[simp] theorem updCrd_sup (f : Crd → Crd) : (updCrd s f).sup = s.sup := rfl
@[simp] theorem updCrd_icp (f : Crd → Crd) : (updCrd s f).icp = s.icp := rfl
@[simp] theorem updCrd_thk (f : Crd → Crd) : (updCrd s f).thk = s.thk := rfl
@[simp] theorem updCrd_chk (f : Crd → Crd) : (updCrd s f).chk = s.chk := rfl
@[simp] theorem updCrd_saf (f : Crd → Crd) : (updCrd s f).saf = s.saf := rfl
@[simp] theorem updCrd_thm (f : Crd → Crd) : (updCrd s f).thm = s.thm := rfl
@[simp] theorem updCrd_prn (f : Crd → Crd) : (updCrd s f).prn = s.prn := rfl
@[simp] theorem updCrd_pwm (f : Crd → Crd) : (updCrd s f).pwm = s.pwm := rfl
@[simp] theorem updCrd_gdv (f : Crd → Crd) : (updCrd s f).gdv = s.gdv := rfl
@[simp] theorem updCrd_prt (f : Crd → Crd) : (updCrd s f).prt = s.prt := rfl
@[simp] theorem updCrd_acq (f : Crd → Crd) : (updCrd s f).acq = s.acq := rfl
@[simp] theorem updCrd_pos (f : Crd → Crd) : (updCrd s f).pos = s.pos := rfl
@[simp] theorem updCrd_dmd (f : Crd → Crd) : (updCrd s f).dmd = s.dmd := rfl
@[simp] theorem updCrd_can (f : Crd → Crd) : (updCrd s f).can = s.can := rfl
@[simp] theorem updCrd_adx (f : Crd → Crd) : (updCrd s f).adx = s.adx := rfl
@[simp] theorem updCrd_crd (f : Crd → Crd) : (updCrd s f).crd = f s.crd := rfl
@[simp] theorem updCrd_free (f : Crd → Crd) : (updCrd s f).free = s.free := rfl

/-! A fault record changes `io` and `trc`, and the waiting events where its code latches. -/

@[simp] theorem recordAt_pending (code : W16) (unit : Nat) (data0 : W32) (time : W64) : (recordAt s code unit data0 time).pending = s.pending := by
  unfold recordAt; dsimp only; split <;> rfl
@[simp] theorem recordAt_clk (code : W16) (unit : Nat) (data0 : W32) (time : W64) : (recordAt s code unit data0 time).clk = s.clk := by
  unfold recordAt; dsimp only; split <;> rfl
@[simp] theorem recordAt_aon (code : W16) (unit : Nat) (data0 : W32) (time : W64) : (recordAt s code unit data0 time).aon = s.aon := by
  unfold recordAt; dsimp only; split <;> rfl
@[simp] theorem recordAt_nv (code : W16) (unit : Nat) (data0 : W32) (time : W64) : (recordAt s code unit data0 time).nv = s.nv := by
  unfold recordAt; dsimp only; split <;> rfl
@[simp] theorem recordAt_boot (code : W16) (unit : Nat) (data0 : W32) (time : W64) : (recordAt s code unit data0 time).boot = s.boot := by
  unfold recordAt; dsimp only; split <;> rfl
@[simp] theorem recordAt_sup (code : W16) (unit : Nat) (data0 : W32) (time : W64) : (recordAt s code unit data0 time).sup = s.sup := by
  unfold recordAt; dsimp only; split <;> rfl
@[simp] theorem recordAt_icp (code : W16) (unit : Nat) (data0 : W32) (time : W64) : (recordAt s code unit data0 time).icp = s.icp := by
  unfold recordAt; dsimp only; split <;> rfl
@[simp] theorem recordAt_thk (code : W16) (unit : Nat) (data0 : W32) (time : W64) : (recordAt s code unit data0 time).thk = s.thk := by
  unfold recordAt; dsimp only; split <;> rfl
@[simp] theorem recordAt_chk (code : W16) (unit : Nat) (data0 : W32) (time : W64) : (recordAt s code unit data0 time).chk = s.chk := by
  unfold recordAt; dsimp only; split <;> rfl
@[simp] theorem recordAt_saf (code : W16) (unit : Nat) (data0 : W32) (time : W64) : (recordAt s code unit data0 time).saf = s.saf := by
  unfold recordAt; dsimp only; split <;> rfl
@[simp] theorem recordAt_thm (code : W16) (unit : Nat) (data0 : W32) (time : W64) : (recordAt s code unit data0 time).thm = s.thm := by
  unfold recordAt; dsimp only; split <;> rfl
@[simp] theorem recordAt_prn (code : W16) (unit : Nat) (data0 : W32) (time : W64) : (recordAt s code unit data0 time).prn = s.prn := by
  unfold recordAt; dsimp only; split <;> rfl
@[simp] theorem recordAt_pwm (code : W16) (unit : Nat) (data0 : W32) (time : W64) : (recordAt s code unit data0 time).pwm = s.pwm := by
  unfold recordAt; dsimp only; split <;> rfl
@[simp] theorem recordAt_gdv (code : W16) (unit : Nat) (data0 : W32) (time : W64) : (recordAt s code unit data0 time).gdv = s.gdv := by
  unfold recordAt; dsimp only; split <;> rfl
@[simp] theorem recordAt_prt (code : W16) (unit : Nat) (data0 : W32) (time : W64) : (recordAt s code unit data0 time).prt = s.prt := by
  unfold recordAt; dsimp only; split <;> rfl
@[simp] theorem recordAt_acq (code : W16) (unit : Nat) (data0 : W32) (time : W64) : (recordAt s code unit data0 time).acq = s.acq := by
  unfold recordAt; dsimp only; split <;> rfl
@[simp] theorem recordAt_pos (code : W16) (unit : Nat) (data0 : W32) (time : W64) : (recordAt s code unit data0 time).pos = s.pos := by
  unfold recordAt; dsimp only; split <;> rfl
@[simp] theorem recordAt_dmd (code : W16) (unit : Nat) (data0 : W32) (time : W64) : (recordAt s code unit data0 time).dmd = s.dmd := by
  unfold recordAt; dsimp only; split <;> rfl
@[simp] theorem recordAt_can (code : W16) (unit : Nat) (data0 : W32) (time : W64) : (recordAt s code unit data0 time).can = s.can := by
  unfold recordAt; dsimp only; split <;> rfl
@[simp] theorem recordAt_adx (code : W16) (unit : Nat) (data0 : W32) (time : W64) : (recordAt s code unit data0 time).adx = s.adx := by
  unfold recordAt; dsimp only; split <;> rfl
@[simp] theorem recordAt_crd (code : W16) (unit : Nat) (data0 : W32) (time : W64) : (recordAt s code unit data0 time).crd = s.crd := by
  unfold recordAt; dsimp only; split <;> rfl
@[simp] theorem recordAt_free (code : W16) (unit : Nat) (data0 : W32) (time : W64) : (recordAt s code unit data0 time).free = s.free := by
  unfold recordAt; dsimp only; split <;> rfl

@[simp] theorem recordAt_io (code : W16) (unit : Nat) (data0 : W32) (time : W64) :
    (recordAt s code unit data0 time).io = s.io.record s.drv.st.code code time unit data0 s.clk.tb32 := by
  unfold recordAt; dsimp only; split <;> rfl

/-- The state events after a record: one more where the code is marked (L) and the record is no injected one (R82, R95). -/
theorem recordAt_drv (code : W16) (unit : Nat) (data0 : W32) (time : W64) : (recordAt s code unit data0 time).drv =
    if latchCodes.contains code && !s.io.inj then { s.drv with events := s.drv.events ++ [⟨.latch, code⟩] } else s.drv := by
  have e : (s.io.record s.drv.st.code code time unit data0 s.clk.tb32).inj = s.io.inj := by
    unfold Io.record
    have ev : ∀ (io : Io) (k : Nat) (c : W16) (a b : W64), (io.event k c a b).inj = io.inj := by
      intro io k c a b; unfold Io.event; dsimp only
      split
      · rfl
      · split
        · unfold Io.notify; dsimp only; split <;> rfl
        · rfl
    simp only [ev]
  unfold recordAt; dsimp only
  rw [e]
  split <;> rfl

@[simp] theorem recordAt_st (code : W16) (unit : Nat) (data0 : W32) (time : W64) : (recordAt s code unit data0 time).drv.st = s.drv.st := by
  rw [recordAt_drv]; split <;> rfl

@[simp] theorem record_pending (code : W16) (unit : Nat) (data0 : W32) : (record s code unit data0).pending = s.pending := recordAt_pending ..
@[simp] theorem record_clk (code : W16) (unit : Nat) (data0 : W32) : (record s code unit data0).clk = s.clk := recordAt_clk ..
@[simp] theorem record_aon (code : W16) (unit : Nat) (data0 : W32) : (record s code unit data0).aon = s.aon := recordAt_aon ..
@[simp] theorem record_nv (code : W16) (unit : Nat) (data0 : W32) : (record s code unit data0).nv = s.nv := recordAt_nv ..
@[simp] theorem record_boot (code : W16) (unit : Nat) (data0 : W32) : (record s code unit data0).boot = s.boot := recordAt_boot ..
@[simp] theorem record_sup (code : W16) (unit : Nat) (data0 : W32) : (record s code unit data0).sup = s.sup := recordAt_sup ..
@[simp] theorem record_icp (code : W16) (unit : Nat) (data0 : W32) : (record s code unit data0).icp = s.icp := recordAt_icp ..
@[simp] theorem record_thk (code : W16) (unit : Nat) (data0 : W32) : (record s code unit data0).thk = s.thk := recordAt_thk ..
@[simp] theorem record_chk (code : W16) (unit : Nat) (data0 : W32) : (record s code unit data0).chk = s.chk := recordAt_chk ..
@[simp] theorem record_saf (code : W16) (unit : Nat) (data0 : W32) : (record s code unit data0).saf = s.saf := recordAt_saf ..
@[simp] theorem record_thm (code : W16) (unit : Nat) (data0 : W32) : (record s code unit data0).thm = s.thm := recordAt_thm ..
@[simp] theorem record_prn (code : W16) (unit : Nat) (data0 : W32) : (record s code unit data0).prn = s.prn := recordAt_prn ..
@[simp] theorem record_pwm (code : W16) (unit : Nat) (data0 : W32) : (record s code unit data0).pwm = s.pwm := recordAt_pwm ..
@[simp] theorem record_gdv (code : W16) (unit : Nat) (data0 : W32) : (record s code unit data0).gdv = s.gdv := recordAt_gdv ..
@[simp] theorem record_prt (code : W16) (unit : Nat) (data0 : W32) : (record s code unit data0).prt = s.prt := recordAt_prt ..
@[simp] theorem record_acq (code : W16) (unit : Nat) (data0 : W32) : (record s code unit data0).acq = s.acq := recordAt_acq ..
@[simp] theorem record_pos (code : W16) (unit : Nat) (data0 : W32) : (record s code unit data0).pos = s.pos := recordAt_pos ..
@[simp] theorem record_dmd (code : W16) (unit : Nat) (data0 : W32) : (record s code unit data0).dmd = s.dmd := recordAt_dmd ..
@[simp] theorem record_can (code : W16) (unit : Nat) (data0 : W32) : (record s code unit data0).can = s.can := recordAt_can ..
@[simp] theorem record_adx (code : W16) (unit : Nat) (data0 : W32) : (record s code unit data0).adx = s.adx := recordAt_adx ..
@[simp] theorem record_crd (code : W16) (unit : Nat) (data0 : W32) : (record s code unit data0).crd = s.crd := recordAt_crd ..
@[simp] theorem record_free (code : W16) (unit : Nat) (data0 : W32) : (record s code unit data0).free = s.free := recordAt_free ..
@[simp] theorem record_st (code : W16) (unit : Nat) (data0 : W32) : (record s code unit data0).drv.st = s.drv.st := recordAt_st ..
@[simp] theorem record_io (code : W16) (unit : Nat) (data0 : W32) :
    (record s code unit data0).io = s.io.record s.drv.st.code code (now s) unit data0 s.clk.tb32 := recordAt_io ..

/-! A checkpoint changes `icp`, a completion `icp` and `io`. -/

@[simp] theorem sealCp_pending : (sealCp s).pending = s.pending := by unfold sealCp; split <;> rfl
@[simp] theorem sealCp_io : (sealCp s).io = s.io := by unfold sealCp; split <;> rfl
@[simp] theorem sealCp_trc : (sealCp s).trc = s.trc := by unfold sealCp; split <;> rfl
@[simp] theorem sealCp_drv : (sealCp s).drv = s.drv := by unfold sealCp; split <;> rfl
@[simp] theorem sealCp_clk : (sealCp s).clk = s.clk := by unfold sealCp; split <;> rfl
@[simp] theorem sealCp_aon : (sealCp s).aon = s.aon := by unfold sealCp; split <;> rfl
@[simp] theorem sealCp_nv : (sealCp s).nv = s.nv := by unfold sealCp; split <;> rfl
@[simp] theorem sealCp_boot : (sealCp s).boot = s.boot := by unfold sealCp; split <;> rfl
@[simp] theorem sealCp_sup : (sealCp s).sup = s.sup := by unfold sealCp; split <;> rfl
@[simp] theorem sealCp_thk : (sealCp s).thk = s.thk := by unfold sealCp; split <;> rfl
@[simp] theorem sealCp_chk : (sealCp s).chk = s.chk := by unfold sealCp; split <;> rfl
@[simp] theorem sealCp_saf : (sealCp s).saf = s.saf := by unfold sealCp; split <;> rfl
@[simp] theorem sealCp_thm : (sealCp s).thm = s.thm := by unfold sealCp; split <;> rfl
@[simp] theorem sealCp_prn : (sealCp s).prn = s.prn := by unfold sealCp; split <;> rfl
@[simp] theorem sealCp_pwm : (sealCp s).pwm = s.pwm := by unfold sealCp; split <;> rfl
@[simp] theorem sealCp_gdv : (sealCp s).gdv = s.gdv := by unfold sealCp; split <;> rfl
@[simp] theorem sealCp_prt : (sealCp s).prt = s.prt := by unfold sealCp; split <;> rfl
@[simp] theorem sealCp_acq : (sealCp s).acq = s.acq := by unfold sealCp; split <;> rfl
@[simp] theorem sealCp_pos : (sealCp s).pos = s.pos := by unfold sealCp; split <;> rfl
@[simp] theorem sealCp_dmd : (sealCp s).dmd = s.dmd := by unfold sealCp; split <;> rfl
@[simp] theorem sealCp_can : (sealCp s).can = s.can := by unfold sealCp; split <;> rfl
@[simp] theorem sealCp_adx : (sealCp s).adx = s.adx := by unfold sealCp; split <;> rfl
@[simp] theorem sealCp_crd : (sealCp s).crd = s.crd := by unfold sealCp; split <;> rfl
@[simp] theorem sealCp_free : (sealCp s).free = s.free := by unfold sealCp; split <;> rfl

@[simp] theorem jobGone_pending (op : Nat) (r : Req) : (jobGone s op r).pending = s.pending := by unfold jobGone; split <;> rfl
@[simp] theorem jobGone_trc (op : Nat) (r : Req) : (jobGone s op r).trc = s.trc := by unfold jobGone; split <;> rfl
@[simp] theorem jobGone_drv (op : Nat) (r : Req) : (jobGone s op r).drv = s.drv := by unfold jobGone; split <;> rfl
@[simp] theorem jobGone_clk (op : Nat) (r : Req) : (jobGone s op r).clk = s.clk := by unfold jobGone; split <;> rfl
@[simp] theorem jobGone_aon (op : Nat) (r : Req) : (jobGone s op r).aon = s.aon := by unfold jobGone; split <;> rfl
@[simp] theorem jobGone_nv (op : Nat) (r : Req) : (jobGone s op r).nv = s.nv := by unfold jobGone; split <;> rfl
@[simp] theorem jobGone_boot (op : Nat) (r : Req) : (jobGone s op r).boot = s.boot := by unfold jobGone; split <;> rfl
@[simp] theorem jobGone_sup (op : Nat) (r : Req) : (jobGone s op r).sup = s.sup := by unfold jobGone; split <;> rfl
@[simp] theorem jobGone_icp (op : Nat) (r : Req) : (jobGone s op r).icp = s.icp := by unfold jobGone; split <;> rfl
@[simp] theorem jobGone_thk (op : Nat) (r : Req) : (jobGone s op r).thk = s.thk := by unfold jobGone; split <;> rfl
@[simp] theorem jobGone_chk (op : Nat) (r : Req) : (jobGone s op r).chk = s.chk := by unfold jobGone; split <;> rfl
@[simp] theorem jobGone_saf (op : Nat) (r : Req) : (jobGone s op r).saf = s.saf := by unfold jobGone; split <;> rfl
@[simp] theorem jobGone_thm (op : Nat) (r : Req) : (jobGone s op r).thm = s.thm := by unfold jobGone; split <;> rfl
@[simp] theorem jobGone_prn (op : Nat) (r : Req) : (jobGone s op r).prn = s.prn := by unfold jobGone; split <;> rfl
@[simp] theorem jobGone_pwm (op : Nat) (r : Req) : (jobGone s op r).pwm = s.pwm := by unfold jobGone; split <;> rfl
@[simp] theorem jobGone_gdv (op : Nat) (r : Req) : (jobGone s op r).gdv = s.gdv := by unfold jobGone; split <;> rfl
@[simp] theorem jobGone_prt (op : Nat) (r : Req) : (jobGone s op r).prt = s.prt := by unfold jobGone; split <;> rfl
@[simp] theorem jobGone_acq (op : Nat) (r : Req) : (jobGone s op r).acq = s.acq := by unfold jobGone; split <;> rfl
@[simp] theorem jobGone_pos (op : Nat) (r : Req) : (jobGone s op r).pos = s.pos := by unfold jobGone; split <;> rfl
@[simp] theorem jobGone_dmd (op : Nat) (r : Req) : (jobGone s op r).dmd = s.dmd := by unfold jobGone; split <;> rfl
@[simp] theorem jobGone_can (op : Nat) (r : Req) : (jobGone s op r).can = s.can := by unfold jobGone; split <;> rfl
@[simp] theorem jobGone_adx (op : Nat) (r : Req) : (jobGone s op r).adx = s.adx := by unfold jobGone; split <;> rfl
@[simp] theorem jobGone_crd (op : Nat) (r : Req) : (jobGone s op r).crd = s.crd := by unfold jobGone; split <;> rfl
@[simp] theorem jobGone_free (op : Nat) (r : Req) : (jobGone s op r).free = s.free := by unfold jobGone; split <;> rfl

/-! The entry of R58 changes `io`. -/

@[simp] theorem writeDone_pending (op : Nat) (r : Req) (acc : W64) (st : W16) (result : List Byte) :
    (writeDone s op r acc st result).pending = s.pending := rfl
@[simp] theorem writeDone_trc (op : Nat) (r : Req) (acc : W64) (st : W16) (result : List Byte) :
    (writeDone s op r acc st result).trc = s.trc := rfl
@[simp] theorem writeDone_drv (op : Nat) (r : Req) (acc : W64) (st : W16) (result : List Byte) :
    (writeDone s op r acc st result).drv = s.drv := rfl
@[simp] theorem writeDone_clk (op : Nat) (r : Req) (acc : W64) (st : W16) (result : List Byte) :
    (writeDone s op r acc st result).clk = s.clk := rfl
@[simp] theorem writeDone_aon (op : Nat) (r : Req) (acc : W64) (st : W16) (result : List Byte) :
    (writeDone s op r acc st result).aon = s.aon := rfl
@[simp] theorem writeDone_nv (op : Nat) (r : Req) (acc : W64) (st : W16) (result : List Byte) :
    (writeDone s op r acc st result).nv = s.nv := rfl
@[simp] theorem writeDone_boot (op : Nat) (r : Req) (acc : W64) (st : W16) (result : List Byte) :
    (writeDone s op r acc st result).boot = s.boot := rfl
@[simp] theorem writeDone_sup (op : Nat) (r : Req) (acc : W64) (st : W16) (result : List Byte) :
    (writeDone s op r acc st result).sup = s.sup := rfl
@[simp] theorem writeDone_icp (op : Nat) (r : Req) (acc : W64) (st : W16) (result : List Byte) :
    (writeDone s op r acc st result).icp = s.icp := rfl
@[simp] theorem writeDone_thk (op : Nat) (r : Req) (acc : W64) (st : W16) (result : List Byte) :
    (writeDone s op r acc st result).thk = s.thk := rfl
@[simp] theorem writeDone_chk (op : Nat) (r : Req) (acc : W64) (st : W16) (result : List Byte) :
    (writeDone s op r acc st result).chk = s.chk := rfl
@[simp] theorem writeDone_saf (op : Nat) (r : Req) (acc : W64) (st : W16) (result : List Byte) :
    (writeDone s op r acc st result).saf = s.saf := rfl
@[simp] theorem writeDone_thm (op : Nat) (r : Req) (acc : W64) (st : W16) (result : List Byte) :
    (writeDone s op r acc st result).thm = s.thm := rfl
@[simp] theorem writeDone_prn (op : Nat) (r : Req) (acc : W64) (st : W16) (result : List Byte) :
    (writeDone s op r acc st result).prn = s.prn := rfl
@[simp] theorem writeDone_pwm (op : Nat) (r : Req) (acc : W64) (st : W16) (result : List Byte) :
    (writeDone s op r acc st result).pwm = s.pwm := rfl
@[simp] theorem writeDone_gdv (op : Nat) (r : Req) (acc : W64) (st : W16) (result : List Byte) :
    (writeDone s op r acc st result).gdv = s.gdv := rfl
@[simp] theorem writeDone_prt (op : Nat) (r : Req) (acc : W64) (st : W16) (result : List Byte) :
    (writeDone s op r acc st result).prt = s.prt := rfl
@[simp] theorem writeDone_acq (op : Nat) (r : Req) (acc : W64) (st : W16) (result : List Byte) :
    (writeDone s op r acc st result).acq = s.acq := rfl
@[simp] theorem writeDone_pos (op : Nat) (r : Req) (acc : W64) (st : W16) (result : List Byte) :
    (writeDone s op r acc st result).pos = s.pos := rfl
@[simp] theorem writeDone_dmd (op : Nat) (r : Req) (acc : W64) (st : W16) (result : List Byte) :
    (writeDone s op r acc st result).dmd = s.dmd := rfl
@[simp] theorem writeDone_can (op : Nat) (r : Req) (acc : W64) (st : W16) (result : List Byte) :
    (writeDone s op r acc st result).can = s.can := rfl
@[simp] theorem writeDone_adx (op : Nat) (r : Req) (acc : W64) (st : W16) (result : List Byte) :
    (writeDone s op r acc st result).adx = s.adx := rfl
@[simp] theorem writeDone_crd (op : Nat) (r : Req) (acc : W64) (st : W16) (result : List Byte) :
    (writeDone s op r acc st result).crd = s.crd := rfl
@[simp] theorem writeDone_free (op : Nat) (r : Req) (acc : W64) (st : W16) (result : List Byte) :
    (writeDone s op r acc st result).free = s.free := rfl

@[simp] theorem complete_pending (op : Nat) (r : Req) (st : W16) (result : List Byte) : (complete s op r st result).pending = s.pending := by
  simp only [complete, completeRaw, writeDone_pending, jobGone_pending, sealCp_pending]
@[simp] theorem complete_trc (op : Nat) (r : Req) (st : W16) (result : List Byte) : (complete s op r st result).trc = s.trc := by
  simp only [complete, completeRaw, writeDone_trc, jobGone_trc, sealCp_trc]
@[simp] theorem complete_drv (op : Nat) (r : Req) (st : W16) (result : List Byte) : (complete s op r st result).drv = s.drv := by
  simp only [complete, completeRaw, writeDone_drv, jobGone_drv, sealCp_drv]
@[simp] theorem complete_clk (op : Nat) (r : Req) (st : W16) (result : List Byte) : (complete s op r st result).clk = s.clk := by
  simp only [complete, completeRaw, writeDone_clk, jobGone_clk, sealCp_clk]
@[simp] theorem complete_aon (op : Nat) (r : Req) (st : W16) (result : List Byte) : (complete s op r st result).aon = s.aon := by
  simp only [complete, completeRaw, writeDone_aon, jobGone_aon, sealCp_aon]
@[simp] theorem complete_nv (op : Nat) (r : Req) (st : W16) (result : List Byte) : (complete s op r st result).nv = s.nv := by
  simp only [complete, completeRaw, writeDone_nv, jobGone_nv, sealCp_nv]
@[simp] theorem complete_boot (op : Nat) (r : Req) (st : W16) (result : List Byte) : (complete s op r st result).boot = s.boot := by
  simp only [complete, completeRaw, writeDone_boot, jobGone_boot, sealCp_boot]
@[simp] theorem complete_sup (op : Nat) (r : Req) (st : W16) (result : List Byte) : (complete s op r st result).sup = s.sup := by
  simp only [complete, completeRaw, writeDone_sup, jobGone_sup, sealCp_sup]
@[simp] theorem complete_thk (op : Nat) (r : Req) (st : W16) (result : List Byte) : (complete s op r st result).thk = s.thk := by
  simp only [complete, completeRaw, writeDone_thk, jobGone_thk, sealCp_thk]
@[simp] theorem complete_chk (op : Nat) (r : Req) (st : W16) (result : List Byte) : (complete s op r st result).chk = s.chk := by
  simp only [complete, completeRaw, writeDone_chk, jobGone_chk, sealCp_chk]
@[simp] theorem complete_saf (op : Nat) (r : Req) (st : W16) (result : List Byte) : (complete s op r st result).saf = s.saf := by
  simp only [complete, completeRaw, writeDone_saf, jobGone_saf, sealCp_saf]
@[simp] theorem complete_thm (op : Nat) (r : Req) (st : W16) (result : List Byte) : (complete s op r st result).thm = s.thm := by
  simp only [complete, completeRaw, writeDone_thm, jobGone_thm, sealCp_thm]
@[simp] theorem complete_prn (op : Nat) (r : Req) (st : W16) (result : List Byte) : (complete s op r st result).prn = s.prn := by
  simp only [complete, completeRaw, writeDone_prn, jobGone_prn, sealCp_prn]
@[simp] theorem complete_pwm (op : Nat) (r : Req) (st : W16) (result : List Byte) : (complete s op r st result).pwm = s.pwm := by
  simp only [complete, completeRaw, writeDone_pwm, jobGone_pwm, sealCp_pwm]
@[simp] theorem complete_gdv (op : Nat) (r : Req) (st : W16) (result : List Byte) : (complete s op r st result).gdv = s.gdv := by
  simp only [complete, completeRaw, writeDone_gdv, jobGone_gdv, sealCp_gdv]
@[simp] theorem complete_prt (op : Nat) (r : Req) (st : W16) (result : List Byte) : (complete s op r st result).prt = s.prt := by
  simp only [complete, completeRaw, writeDone_prt, jobGone_prt, sealCp_prt]
@[simp] theorem complete_acq (op : Nat) (r : Req) (st : W16) (result : List Byte) : (complete s op r st result).acq = s.acq := by
  simp only [complete, completeRaw, writeDone_acq, jobGone_acq, sealCp_acq]
@[simp] theorem complete_pos (op : Nat) (r : Req) (st : W16) (result : List Byte) : (complete s op r st result).pos = s.pos := by
  simp only [complete, completeRaw, writeDone_pos, jobGone_pos, sealCp_pos]
@[simp] theorem complete_dmd (op : Nat) (r : Req) (st : W16) (result : List Byte) : (complete s op r st result).dmd = s.dmd := by
  simp only [complete, completeRaw, writeDone_dmd, jobGone_dmd, sealCp_dmd]
@[simp] theorem complete_can (op : Nat) (r : Req) (st : W16) (result : List Byte) : (complete s op r st result).can = s.can := by
  simp only [complete, completeRaw, writeDone_can, jobGone_can, sealCp_can]
@[simp] theorem complete_adx (op : Nat) (r : Req) (st : W16) (result : List Byte) : (complete s op r st result).adx = s.adx := by
  simp only [complete, completeRaw, writeDone_adx, jobGone_adx, sealCp_adx]
@[simp] theorem complete_crd (op : Nat) (r : Req) (st : W16) (result : List Byte) : (complete s op r st result).crd = s.crd := by
  simp only [complete, completeRaw, writeDone_crd, jobGone_crd, sealCp_crd]
@[simp] theorem complete_free (op : Nat) (r : Req) (st : W16) (result : List Byte) : (complete s op r st result).free = s.free := by
  simp only [complete, completeRaw, writeDone_free, jobGone_free, sealCp_free]

/-- The port after a completion: the entries of R58 in the paired ring where there is one, and the job no longer outstanding. -/
theorem complete_io (op : Nat) (r : Req) (st : W16) (result : List Byte) : (complete s op r st result).io =
    (let j := jobOf s op r
     let io := { s.io with jobs := match j with | some j => s.io.jobs.erase j | none => s.io.jobs }
     if (io.q r.ring).isSub then
       io.complete (io.q r.ring).pairRing op r.seq.toNat st.toNat r.ring (match j with | some j => j.tAcc | none => now s) (now s) result
         (bit r.flags 1)
     else io) := by
  have e : jobOf (sealCp s) op r = jobOf s op r := by unfold jobOf; rw [sealCp_io]
  have n : now (sealCp s) = now s := by unfold now; rw [sealCp_clk]
  unfold complete completeRaw writeDone jobGone; dsimp only
  rw [e, n]
  cases jobOf s op r with
  | none => simp only [sealCp_io, n]
  | some j => simp only [now, sealCp_io, sealCp_clk]

end Sys2Proof.Machine
end

