-- ==== Sys2Proof/Laws/Moves.lean ====
section
/-! SUPPORT. How the module state changes: what the evaluation of state events, a command that changes the state and a reset can do
to it (R95, R96). -/

namespace Sys2Proof.Machine

/-- The module state stays, or changes along a row of R95. -/
def Moves (m n : Mode) : Prop := n = m ∨ mayMove m n = true

@[simp] theorem Drive.noteRun_st (d : Drive) (dst : Mode) (tb : Nat) : (d.noteRun dst tb).st = d.st := by
  unfold Drive.noteRun; split
  · rfl
  · split <;> rfl

@[simp] theorem copyStartLog_drv (s : State) : (copyStartLog s).drv = s.drv := by unfold copyStartLog; split <;> rfl

/-- The state after a transition, with where it came from and why (R107). -/
theorem enter_drv (s : State) (dst : Mode) (cause : W16) :
    (enter s dst cause).drv = { s.drv.noteRun dst s.clk.tb with
      st := dst, prev := s.drv.st, cause := cause, tState := now s, ramp := if dst != .running then none else s.drv.ramp
      committed := s.drv.committed && dst != .standby } := by
  unfold enter; split
  · rw [copyStartLog_drv]; exact sealCp_drv _
  · exact sealCp_drv _

@[simp] theorem enter_st (s : State) (dst : Mode) (cause : W16) : (enter s dst cause).drv.st = dst := by rw [enter_drv]

@[simp] theorem preempt_st (s : State) : (preempt s).drv.st = s.drv.st := (preempt_kept (kb := true) (Kept.refl s)).st rfl

@[simp] theorem coldReset_st (s : State) : (coldReset s).drv.st = .off := rfl

/-- A state event that wins has a row in R95. -/
theorem winner_judged {m n : Mode} {e : StateEvent} {evs : List StateEvent} (h : winner m evs = some (n, e)) : judge m e.kind = some n := by
  have step : ∀ (l : List StateEvent) (best : Option (Mode × StateEvent)), (∀ n e, best = some (n, e) → judge m e.kind = some n) →
      ∀ n e, (l.foldl (fun best e =>
        match judge m e.kind, best with
        | some t, none => some (t, e)
        | some t, some (_, b) => if rank b.kind < rank e.kind then some (t, e) else best
        | none, _ => best) best) = some (n, e) → judge m e.kind = some n := by
    intro l
    induction l with
    | nil => intro best hb n e h; exact hb n e h
    | cons x l ih =>
      intro best hb n e h
      refine ih _ ?_ n e h
      intro n e he; dsimp only at he
      split at he
      · cases he; assumption
      · split at he
        · cases he; assumption
        · exact hb n e he
      · exact hb n e he
  exact step evs none (by simp) n e h

/-- Every row that an event can take is one of R95's. -/
theorem judge_moves {m n : Mode} {k : EvKind} (h : judge m k = some n) : mayMove m n = true := by
  revert h; cases m <;> cases k <;> simp [judge, toSafeStop] <;> rintro rfl <;> decide

/-- The evaluation of state events moves the module along a row of R95, or not at all (R96). -/
theorem evaluate_moves (s : State) : Moves s.drv.st (evaluate s).drv.st := by
  unfold evaluate; dsimp only
  split
  · exact .inl rfl
  · rw [preempt_st, enter_st]; exact .inr (judge_moves (winner_judged (by assumption)))

/-- A command that changes the state ends in its target, or where an event that comes first leads. -/
theorem stateJob_moves {op : Nat} {r : Req} {s : State} {dst : Mode} {result : List Byte} {f : State → State}
    (h : Moves s.drv.st dst) : Moves s.drv.st (stateJob op r s dst result f).drv.st := by
  unfold stateJob; split
  · rw [complete_drv]; exact evaluate_moves s
  · rw [preempt_st, complete_drv, enter_st]; exact h

theorem runStateJob_moves {op : Nat} {r : Req} {s : State} {dst : Mode} {check : Option (W16 × List Byte)} {f : State → State}
    (h : legal s.drv.st op = true → Moves s.drv.st dst) : Moves s.drv.st (runStateJob op r s dst check f).drv.st := by
  unfold runStateJob; split
  · exact .inl rfl
  · split
    · split <;> exact .inl (by rw [complete_drv])
    · split
      · exact .inl rfl
      · split
        · exact .inl (by rw [complete_drv])
        · exact stateJob_moves (h (by simp_all))

/-- A reset of the module leads to OFF. -/
theorem off_moves (m : Mode) : Moves m .off := .inr rfl

/-- A step that keeps the module state. -/
theorem Kept.moves {s t : State} (h : Kept true s t) : Moves s.drv.st t.drv.st := .inl (h.st rfl)

end Sys2Proof.Machine
end

