-- ==== Sys2Proof/Laws/Jobs.lean ====
section
/-! SUPPORT. What the application of a job, a command that changes the state, a fault record and an entry of a ring do, said once
(R58, R59, R64, R65, R69, R70, R82). -/

namespace Sys2Proof.Machine

section
variable {op : Nat} {r : Req} {s : State}

/-- A job whose turn has not come waits (R66). -/
theorem runJob_waits {body : Done} (h : legal s.drv.st op = true) (m : myTurn s op r = false) : runJob op r s body = s := by
  simp only [runJob, h, m]; split <;> rfl

/-- Where Icsis does not serve, no job is applied (R77). -/
theorem runJob_idle {body : Done} (h : serving s = false) : runJob op r s body = s := by simp [runJob, h]

theorem runStateJob_idle {dst : Mode} {check : Option (W16 × List Byte)} {f : State → State} (h : serving s = false) :
    runStateJob op r s dst check f = s := by simp [runStateJob, h]

/-- A job that is not legal in the present state (R65, R70). -/
theorem runJob_illegal {body : Done} (hs : serving s = true) (hl : legal s.drv.st op = false) : runJob op r s body =
    if (jobOf s op r).isSome then complete s op r stPreempted [] else complete s op r stState [BitVec.ofNat 8 s.drv.st.code] := by
  simp [runJob, hs, hl]

theorem runStateJob_illegal {dst : Mode} {check : Option (W16 × List Byte)} {f : State → State} (hs : serving s = true)
    (hl : legal s.drv.st op = false) : runStateJob op r s dst check f =
      if (jobOf s op r).isSome then complete s op r stPreempted [] else complete s op r stState [BitVec.ofNat 8 s.drv.st.code] := by
  simp [runStateJob, hs, hl]

/-- A job that is applied and refused by a check (R69). -/
theorem runJob_refuse {st : W16} (h : applies op r s) : runJob op r s (.refuse st) = complete s op r st [] := by simp [runJob, h.1, h.2.1, h.2.2]

/-- A job that is applied and done (R69). -/
theorem runJob_done {t : State} {st : W16} {result : List Byte} (h : applies op r s) :
    runJob op r s (.done t st result) = complete t op r st result := by simp [runJob, h.1, h.2.1, h.2.2]

@[simp] theorem guardSt_true (st : W16) (k : Done) : guardSt true st k = k := rfl
@[simp] theorem guardSt_false (st : W16) (k : Done) : guardSt false st k = .refuse st := rfl

/-- The three ends of a job with one check of its operands and one more. -/
theorem runJob_guards {good may : Bool} {st : W16} {t : State} (h : applies op r s) :
    runJob op r s (guardSt good stRange (guardSt may st (ok t))) = jobEnd op r s good may st t := by
  cases good <;> cases may <;> simp [jobEnd, ok, runJob_refuse h, runJob_done h]

/-- The two ends of a job with one check of its operands. -/
theorem runJob_guard {good : Bool} {st : W16} {t : State} (h : applies op r s) :
    runJob op r s (guardSt good stRange (ok t)) = jobEnd op r s good true st t := by
  cases good <;> simp [jobEnd, ok, runJob_refuse h, runJob_done h]

/-- A command that changes the state, applied with no state event before it, behind checks that hold (R69, R95). -/
theorem runStateJob_enters {dst : Mode} {f : State → State} (h : applies op r s) (q : noEvent s) : runStateJob op r s dst none f =
    preempt (complete (enter (f { s with drv := { s.drv with events := [] } }) dst (BitVec.ofNat 16 op)) op r stOk []) := by
  have q' : winner s.drv.st (s.drv.events ++ persistent s) = none := q
  simp [runStateJob, stateJob, h.1, h.2.1, h.2.2, q']

theorem runStateJob_refuse {dst : Mode} {st : W16} {result : List Byte} {f : State → State} (h : applies op r s) :
    runStateJob op r s dst (some (st, result)) f = complete s op r st result := by simp [runStateJob, h.1, h.2.1, h.2.2]

end

/-- A completion changes the port and the pair's checkpoint, and nothing else. -/
theorem complete_frame (s : State) (op : Nat) (r : Req) (st : W16) (result : List Byte) :
    complete s op r st result = { s with io := (complete s op r st result).io, icp := (complete s op r st result).icp } := by
  simp only [complete, completeRaw, writeDone, jobGone, sealCp]; split <;> split <;> rfl

/-- No event moves the module out of OFF, BOOT, COPPICE and FAULT (R95). -/
theorem winner_none {m : Mode} (evs : List StateEvent) (h : m = .coppice ∨ m = .off ∨ m = .boot ∨ m = .fault) : winner m evs = none := by
  unfold winner
  induction evs with
  | nil => rfl
  | cons e t ih =>
    have : judge m e.kind = none := by rcases h with h | h | h | h <;> subst h <;> cases e.kind <;> rfl
    simp [List.foldl, this, ih]

/-- What a transition leaves for R107. -/
theorem enter_entered (s : State) (dst : Mode) (cause : W16) (h : s.drv.events = []) : entered s (enter s dst cause) dst cause := by
  have d := enter_drv s dst cause
  refine ⟨by rw [d], by rw [d], by rw [d], by rw [d], ?_⟩
  rw [d]
  show (s.drv.noteRun dst s.clk.tb).events = []
  unfold Drive.noteRun; split
  · exact h
  · split <;> exact h

/-- What jobs that become illegal leave alone (R70). -/
theorem preempt_drv (s : State) : (preempt s).drv = s.drv := by
  unfold preempt
  generalize (s.io.jobs.filter fun j => !legal s.drv.st j.opcode.toNat) = l
  induction l generalizing s with
  | nil => rfl
  | cons j l ih => exact (ih _).trans (complete_drv ..)

/-! The port: the queues other than the one written, and the flags. -/

@[simp] theorem Io.updQ_q_same (io : Io) {n : Nat} (f : QueueRec → QueueRec) (h : n < 64) : (io.updQ n f).q n = f (io.q n) :=
  Vector.at_upd_same _ _ h

@[simp] theorem Io.updQ_q_ne (io : Io) {n k : Nat} (f : QueueRec → QueueRec) (h : k ≠ n) : (io.updQ n f).q k = io.q k :=
  Vector.at_upd_ne _ _ h

@[simp] theorem Io.raise_q (io : Io) (i k : Nat) : (io.raise i).q k = io.q k := rfl

@[simp] theorem Io.notify_q (io : Io) (n k : Nat) (irq : Bool) : (io.notify n irq).q k = io.q k := by
  unfold Io.notify; dsimp only; split <;> rfl

/-- An entry written to a ring leaves every other ring alone (R59). -/
theorem Io.putEntry_q_ne (io : Io) {n k : Nat} (head body : List Byte) (cont : Bool) (h : k ≠ n) :
    (io.putEntry n head cont body).q k = io.q k := Io.updQ_q_ne _ _ h

/-- An entry's slot: the pointer advances, and PHASE inverts where it wraps (R53, R59). -/
theorem Io.putEntry_q (io : Io) {n : Nat} (head body : List Byte) (cont : Bool) (h : n < 64) :
    (io.putEntry n head cont body).q n = { io.q n with
      icsisPtr := ((io.q n).icsisPtr + 1) % (io.q n).n
      phase := if ((io.q n).icsisPtr + 1) % (io.q n).n = 0 then !(io.q n).phase else (io.q n).phase
      timed := if (io.q n).held = 0 then false else (io.q n).timed } := Io.updQ_q_same _ _ h

theorem leBytes_length (n v : Nat) : (leBytes n v).length = n := by induction n generalizing v <;> simp [leBytes, *]

theorem padTo_length {n : Nat} {l : List Byte} (h : l.length ≤ n) : (padTo n l).length = n := by simp [padTo]; omega

/-- An entry's 64 bytes are the only ones of queue SRAM that change (R59). -/
theorem Io.putEntry_mem (io : Io) {n : Nat} {head body : List Byte} {cont : Bool} {a : Nat} (hh : head.length ≤ 7) (hb : body.length ≤ 56)
    (h : a < slotAddr n (io.q n).icsisPtr ∨ slotAddr n (io.q n).icsisPtr + 64 ≤ a) :
    memGet (io.putEntry n head cont body).qsram a = memGet io.qsram a := by
  unfold Io.putEntry; dsimp only
  rw [Io.updQ_qsram]
  have l1 := padTo_length hh
  have l2 := padTo_length hb
  rw [memGet_memWrite_of_out _ _ (by simp only [List.length_append, l1, List.length_cons, List.length_nil]; omega),
    memGet_memWrite_of_out _ _ (by rw [l2]; omega)]

@[simp] theorem Io.event_lastFault (io : Io) (k : Nat) (c : W16) (a b : W64) : (io.event k c a b).lastFault = io.lastFault := by
  unfold Io.event Io.notify; dsimp only
  split
  · rfl
  · split
    · split <;> rfl
    · rfl

@[simp] theorem Io.event_log (io : Io) (k : Nat) (c : W16) (a b : W64) : (io.event k c a b).log = io.log := by
  unfold Io.event Io.notify; dsimp only
  split
  · rfl
  · split
    · split <;> rfl
    · rfl

/-- A record is the last fault of the port (R48, R82). -/
@[simp] theorem record_lastFault (s : State) (code : W16) (unit : Nat) (data0 : W32) : (record s code unit data0).io.lastFault = code := by
  simp [Io.record]

/-- A record stands first in the fault log, which keeps 1,024 (R82). -/
theorem record_log (s : State) (code : W16) (unit : Nat) (data0 : W32) : ∃ f : FaultRec,
    f.code = code ∧ f.unit = BitVec.ofNat 16 unit ∧ f.data0 = data0 ∧ f.time = now s ∧
      (record s code unit data0).io.log = (f :: s.io.log).take 1024 := by
  let f : FaultRec :=
    { code := code, state := BitVec.ofNat 8 s.drv.st.code, rflags := BitVec.ofNat 8 (b2n (latchCodes.contains code) + 2 * b2n s.io.inj)
      num := s.io.logNum + 1, time := now s, unit := BitVec.ofNat 16 unit, data0 := data0, data1 := s.clk.tb32 }
  refine ⟨f, rfl, rfl, rfl, rfl, ?_⟩
  rw [record_io]; simp [Io.record, f]

end Sys2Proof.Machine
end

