-- ==== Sys2Proof/Laws/MoveCmds.lean ====
section
/-! SUPPORT. One lemma for each command that can change the module state: it goes along a row of R95. -/

namespace Sys2Proof.Machine

/-- A meaning answers a next state whose module state stays or changes along a row of R95. -/
def MovesOut (s : State) (o : Host.Outcome State Fault Refusal) : Prop := ∃ t, o = .next t ∧ Moves s.drv.st t.drv.st

theorem MovesOut.ite {s : State} {c : Prop} [Decidable c] {x y : Host.Outcome State Fault Refusal} (hx : MovesOut s x)
    (hy : MovesOut s y) : MovesOut s (if c then x else y) := by split <;> assumption

/-- Where R78 marks a command that changes the state, R95 has its row. -/
theorem legal_moves : ∀ p ∈ [(0x1051, Mode.standby), (0x2001, .armed), (0x2002, .configured), (0x2003, .running), (0x1050, .configured),
    (0x4001, .safeStop), (0x4002, .configured), (0x4002, .standby)], ∀ m, legal m p.1 = true → Moves m p.2 := by
  intro p hp m; simp only [List.mem_cons, List.not_mem_nil, or_false] at hp
  rcases hp with rfl | rfl | rfl | rfl | rfl | rfl | rfl | rfl <;> cases m <;> simp [Moves] <;> decide

theorem execSafAck_moves (r : Req) (c : BitVec 16) (d : Byte) (s : State) : MovesOut s (execSafAck r c d s) := by
  unfold execSafAck; dsimp only; split
  · exact ⟨_, rfl, (runJob_kept (b := true) (Kept.refl s) (guardSt_kept (ok_kept (Kept.of_mk (Kept.refl s) rfl rfl rfl rfl rfl rfl rfl
      rfl)))).moves⟩
  · rename_i h
    refine ⟨_, rfl, runStateJob_moves fun hl => ?_⟩
    revert h hl; generalize s.drv.st = m; cases m <;> simp [Moves] <;> decide

theorem execSafRelease_moves (r : Req) (s : State) : MovesOut s (execSafRelease r s) := by
  refine ⟨_, rfl, runStateJob_moves fun hl => ?_⟩
  split
  · exact legal_moves (0x4002, .configured) (by simp) _ hl
  · exact legal_moves (0x4002, .standby) (by simp) _ hl

theorem execSafStop_moves (r : Req) (s : State) : MovesOut s (execSafStop r s) := by
  have hl := legal_moves (0x4001, .safeStop) (by simp) s.drv.st
  unfold execSafStop
  refine MovesOut.ite ⟨_, rfl, (runJob_kept (b := true) (Kept.refl s) (guardSt_kept (ok_kept (Kept.refl s)))).moves⟩ ?_
  split
  · exact MovesOut.ite ⟨_, rfl, by rw [complete_drv]; exact evaluate_moves s⟩
      (MovesOut.ite ⟨_, rfl, runStateJob_moves (s := { s with drv := { s.drv with events := [] } }) hl⟩ ⟨_, rfl, runStateJob_moves hl⟩)
  · exact ⟨_, rfl, runStateJob_moves hl⟩

theorem execCfgRelease_moves (r : Req) (s : State) : MovesOut s (execCfgRelease r s) := ⟨_, rfl, runStateJob_moves (legal_moves (0x1051,
    .standby) (by simp) _)⟩

theorem execCtlArm_moves (r : Req) (s : State) : MovesOut s (execCtlArm r s) := ⟨_, rfl, runStateJob_moves (legal_moves (0x2001, .armed)
    (by simp) _)⟩

theorem execCtlDisarm_moves (r : Req) (s : State) : MovesOut s (execCtlDisarm r s) := ⟨_, rfl, runStateJob_moves (legal_moves (0x2002,
    .configured) (by simp) _)⟩

theorem execCtlRun_moves (r : Req) (s : State) : MovesOut s (execCtlRun r s) := ⟨_, rfl, runStateJob_moves (legal_moves (0x2003,
    .running) (by simp) _)⟩

theorem execCfgCommit_moves (r : Req) (b : ImageBody) (s : State) : MovesOut s (execCfgCommit r b s) := ⟨_, rfl, runStateJob_moves
    (legal_moves (0x1050, .configured) (by simp) _)⟩

theorem resetJob_moves (op : Nat) (r : Req) (s : State) (st : W16) (f : State → State) : Moves s.drv.st (resetJob op r s st f).drv.st := by
  unfold resetJob; split
  · rw [complete_drv]; exact evaluate_moves s
  · split
    · exact .inl (by rw [complete_drv])
    · exact off_moves _

theorem execMntReset_moves (r : Req) (s : State) : MovesOut s (execMntReset r s) := by
  refine ⟨_, rfl, ?_⟩
  split
  · exact resetJob_moves ..
  · exact (runJob_kept (b := true) (Kept.refl s) .refuse).moves

theorem execMntFwActivate_moves (r : Req) (s : State) : MovesOut s (execMntFwActivate r s) := by
  refine ⟨_, rfl, ?_⟩
  split
  · exact (runJob_kept (b := true) (Kept.refl s) .refuse).moves
  · split
    · exact resetJob_moves ..
    · exact (runJob_kept (b := true) (Kept.refl s) .refuse).moves

theorem startFail_moves (s : State) (c : W16) (k : Nat) (m : Mode) : Moves m (startFail s c k).drv.st := off_moves _

theorem railReaction_moves {s u : State} {n : Nat} (k : Kept true s u) : Moves s.drv.st (railReaction u n).drv.st := by
  unfold railReaction; split
  · exact (recSup_kept k).moves
  · exact off_moves _
  · exact (recSup_kept k).moves
  · exact (recSup_kept k).moves
  · split
    · exact (arrive_kept (Kept.of_mk (recSup_kept k) rfl rfl rfl rfl rfl rfl rfl rfl)).moves
    · exact (recSup_kept k).moves
  · exact (recSup_kept k).moves

theorem execRailOutOfWindow_moves (a : Fin 7) (b : Bool) (s : State) : MovesOut s (execRailOutOfWindow a b s) := by
  unfold execRailOutOfWindow
  refine MovesOut.ite ⟨_, rfl, .inl rfl⟩ (MovesOut.ite ⟨_, rfl, off_moves _⟩ (MovesOut.ite ⟨_, rfl, railReaction_moves ?_⟩ (MovesOut.ite
    ⟨_, rfl, off_moves _⟩ ⟨_, rfl, .inl rfl⟩)))
  exact blkStep_kept (Kept.refl s) (setRail_kept (Kept.refl s))

theorem execDroopBudgetExhausted_moves (s : State) : MovesOut s (execDroopBudgetExhausted s) := by
  unfold execDroopBudgetExhausted; split
  · exact ⟨_, rfl, off_moves _⟩
  · exact ⟨_, rfl, .inl rfl⟩

theorem execPllLockLoss_moves (s : State) : MovesOut s (execPllLockLoss s) := by
  unfold execPllLockLoss; split
  · exact ⟨_, rfl, off_moves _⟩
  · exact ⟨_, rfl, .inl rfl⟩

theorem execStartSequencerStep_moves (b : Bool) (s : State) : MovesOut s (execStartSequencerStep b s) := by
  unfold execStartSequencerStep; dsimp only; split
  · exact ⟨_, rfl, .inl rfl⟩
  · split
    · exact ⟨_, rfl, off_moves _⟩
    · exact ⟨_, rfl, .inl rfl⟩

theorem execPllLockDeadline_moves (b : Bool) (s : State) : MovesOut s (execPllLockDeadline b s) := by
  unfold execPllLockDeadline; dsimp only; split
  · exact ⟨_, rfl, .inl rfl⟩
  · split
    · exact ⟨_, rfl, off_moves _⟩
    · refine ⟨_, rfl, ?_⟩
      rw [enter_st]
      have : s.drv.st = .off := by simp_all
      rw [this]; exact .inr rfl

theorem execBootRomStart_moves (f : BootFinds) (s : State) : MovesOut s (execBootRomStart f s) := by
  have k := selectBank_kept (loadFuses_kept (kb := true) (Kept.refl s))
  unfold execBootRomStart; split
  · exact ⟨_, rfl, .inl rfl⟩
  · have e : s.drv.st = .boot := by simp_all
    split
    · refine ⟨_, rfl, ?_⟩
      have h : (enterCoppice (loadFuses s)).drv.st = .coppice := by
        unfold enterCoppice
        rw [(entryRecords_kept (kb := true) (updSaf_kept (Kept.refl _))).st rfl, enter_st]
      rw [h, e]; exact .inr rfl
    · split
      · exact ⟨_, rfl, .inl rfl⟩
      · dsimp only
        generalize selectBank (loadFuses s) = p at k
        have rb : ∀ u b t fb, Kept true s u → Moves s.drv.st (runBank u b t fb f).drv.st := by
          intro u b t fb ku; unfold runBank; dsimp only; split
          · exact off_moves _
          · exact ((failCells_kept ku).same rfl rfl rfl rfl rfl rfl rfl rfl).moves
        split
        · exact ⟨_, rfl, rb _ _ _ _ k⟩
        · split
          · exact ⟨_, rfl, rb _ _ _ _ (recSec_kept k)⟩
          · exact ⟨_, rfl, off_moves _⟩

theorem execStandbyEntry_moves (s : State) : MovesOut s (execStandbyEntry s) := by
  unfold execStandbyEntry; split
  · exact ⟨_, rfl, .inl rfl⟩
  · refine ⟨_, rfl, ?_⟩
    have e : s.drv.st = .boot := by simp_all
    rw [(entryRecords_kept (kb := true) (Kept.refl _)).st rfl, enter_st, e]; exact .inr rfl

theorem execStartTimeout_moves (s : State) : MovesOut s (execStartTimeout s) := by
  unfold execStartTimeout; split
  · exact ⟨_, rfl, off_moves _⟩
  · exact ⟨_, rfl, .inl rfl⟩

theorem execResetInput_moves (n : Nat) (s : State) : MovesOut s (execResetInput n s) := by
  unfold execResetInput; split
  · exact ⟨_, rfl, .inl rfl⟩
  · split
    · exact ⟨_, rfl, off_moves _⟩
    · split
      · exact ⟨_, rfl, off_moves _⟩
      · exact ⟨_, rfl, .inl rfl⟩

theorem execSupplyLoss_moves (b : Bool) (s : State) : MovesOut s (execSupplyLoss b s) := ⟨_, rfl, off_moves _⟩

theorem execStateEventEvaluation_moves (s : State) : MovesOut s (execStateEventEvaluation s) := by
  unfold execStateEventEvaluation; split
  · exact ⟨_, rfl, evaluate_moves s⟩
  · exact ⟨_, rfl, .inl rfl⟩

/-- The module state stays, or the pair has degraded and it is FAULT. -/
def OrFault (m n : Mode) : Prop := n = m ∨ n = .fault

/-- From every state but OFF and COPPICE, where nothing is compared, FAULT is reached along a row of R95 or by R494. -/
theorem OrFault.moves {m n : Mode} (h : OrFault m n) (hm : m ≠ .off) (hc : m ≠ .coppice) : Moves m n := by
  revert hm hc; rcases h with rfl | rfl
  · exact fun _ _ => .inl rfl
  · cases m <;> simp [Moves, mayMove]

theorem OrFault.trans {l m n : Mode} (h : OrFault l m) (k : OrFault m n) : OrFault l n := by
  rcases k with rfl | rfl
  · exact h
  · exact .inr rfl

theorem Kept.orFault {s t : State} (h : Kept true s t) : OrFault s.drv.st t.drv.st := .inl (h.st rfl)

theorem mismatch_orFault (s : State) (kind : Nat) (group : Byte) (offset : W32) : OrFault s.drv.st (mismatch s kind group offset).drv.st := by
  unfold mismatch; dsimp only; split
  · exact .inr rfl
  · split
    · exact .inl rfl
    · exact (blkStep_kept (kb := true) (Kept.refl s) (updIcp_kept (Kept.of_mk (Kept.refl s) rfl rfl rfl rfl rfl rfl rfl rfl))).orFault

theorem sigDiff_orFault (s : State) (offset : W32) : OrFault s.drv.st (sigDiff s offset).drv.st :=
  OrFault.trans (recIcp_kept (kb := true) (updIcp_kept (Kept.refl s))).orFault (mismatch_orFault _ _ _ _)

theorem execLockstepMismatch_moves (kind : Fin 6) (group : Byte) (offset : W32) (s : State) :
    MovesOut s (execLockstepMismatch kind group offset s) := by
  unfold execLockstepMismatch; split
  · exact ⟨_, rfl, .inl rfl⟩
  · rename_i h
    have h2 : s.drv.st ≠ .off ∧ s.drv.st ≠ .coppice := by
      constructor <;> rintro e <;> simp [comparing, e] at h
    split
    · exact ⟨_, rfl, (sigDiff_orFault s offset).moves h2.1 h2.2⟩
    · exact ⟨_, rfl, (mismatch_orFault s _ _ _).moves h2.1 h2.2⟩

theorem execCtlJoin_moves (r : Req) (b : Bool) (s : State) : MovesOut s (execCtlJoin r b s) := by
  unfold execCtlJoin; split
  · rename_i h
    refine ⟨_, rfl, ?_⟩
    have hl : legal s.drv.st 0x2031 = true := by simp [jobRuns] at h; exact h.1.1.1.1.2
    have : OrFault s.drv.st (degrade s).drv.st := .inr rfl
    refine this.moves ?_ ?_ <;> rintro e <;> rw [e] at hl <;> revert hl <;> decide
  · exact ⟨_, rfl, (runJob_kept (b := true) (Kept.refl s) (guardSt_kept (Done.Kept.ite (ok_kept (updIcp_kept (sealCp_kept (Kept.refl s))))
      (ok_kept (Kept.refl s))))).moves⟩

theorem failReaction_orFault (s : State) (k u : Nat) : OrFault s.drv.st (failReaction s k u).drv.st := by
  have hk := Kept.refl (b := true) s
  unfold failReaction; split
  · exact (Kept.ite hk (retire_kept hk)).orFault
  · exact hk.orFault
  · exact (Kept.ite (escalate_kept hk) (Kept.ite (escalate_kept (freeTaken_kept hk)) (freeTaken_kept hk))).orFault
  · exact sigDiff_orFault (freeTaken s) _
  · exact (Kept.ite (monitorStop_kept (Kept.foldl hk fun _ _ hu => loseCtx_kept hu)) (Kept.foldl hk fun _ _ hu => loseCtx_kept hu)).orFault
  · exact (Kept.foldl hk fun _ _ hu => loseCtx_kept hu).orFault
  · exact Kept.orFault (escalate_kept (recPrn_kept (hk.same rfl rfl rfl rfl rfl rfl rfl rfl)))

theorem runDone_orFault (s : State) (k u : Nat) (pass : Bool) : OrFault s.drv.st (runDone s k u pass).drv.st := by
  have hk := countRun_kept (k := k) (u := u) (Kept.refl (b := true) s)
  have hg := Kept.ite (c := k = 4) (updGroup_kept (g := u) (f := AcqGroup.afterTest) hk) hk
  unfold runDone; dsimp only; split
  · exact (Kept.ite (nameNext_kept hg) hg).orFault
  · exact OrFault.trans (countFail_kept hg).orFault (failReaction_orFault _ _ _)

/-- No kind of self-test is active in OFF or COPPICE. -/
theorem kindActive_state {s : State} {k : Nat} (h : kindActive s k = true) : s.drv.st ≠ .off ∧ s.drv.st ≠ .coppice := by
  constructor <;> rintro e <;> revert h <;> unfold kindActive <;> rw [e] <;> split <;> try split
  all_goals simp [show fromStandbyOn .off = false from rfl, show fromStandbyOn .coppice = false from rfl,
    show countState .off = false from rfl, show countState .coppice = false from rfl]

theorem execPrunerSliceComplete_moves (kind : Fin 7) (unit : Fin 20) (pass : Bool) (s : State) :
    MovesOut s (execPrunerSliceComplete kind unit pass s) := by
  unfold execPrunerSliceComplete; split
  · rename_i h
    simp only [Bool.and_eq_true] at h
    exact ⟨_, rfl, (runDone_orFault s _ _ _).moves (kindActive_state h.1.2).1 (kindActive_state h.1.2).2⟩
  · exact ⟨_, rfl, .inl rfl⟩

theorem runDones_orFault (l : List Nat) (k : Nat) (p : Nat → Bool) (s : State) :
    OrFault s.drv.st (l.foldl (fun s v => runDone s k v (p v)) s).drv.st := by
  induction l generalizing s with
  | nil => exact .inl rfl
  | cons x l ih => exact OrFault.trans (runDone_orFault s k x (p x)) (ih _)

/-- A job whose body, where it runs, leaves the state or has the pair degrade. -/
theorem runJob_moves {op : Nat} {r : Req} {s : State} {body : Done} (hb : ∀ t st x, body = .done t st x → Moves s.drv.st t.drv.st) :
    Moves s.drv.st (runJob op r s body).drv.st := by
  unfold runJob; split
  · exact .inl rfl
  · split
    · split <;> exact .inl (by rw [complete_drv])
    · split
      · exact .inl rfl
      · split
        · exact .inl (by rw [complete_drv])
        · rw [complete_drv]; exact hb _ _ _ rfl

theorem execDiaSelftestRun_moves (r : Req) (o : Fin 3) (c : BitVec 16) (d : Byte) (s : State) : MovesOut s (execDiaSelftestRun r o c d s) := by
  have hk := Kept.refl (b := true) s
  unfold execDiaSelftestRun; dsimp only; split
  · exact ⟨_, rfl, (runJob_kept hk (guardSt_kept (guardSt_kept (Done.Kept.ite (Done.Kept.done hk) (Done.Kept.done (recBlk_kept hk)))))).moves⟩
  · refine ⟨_, rfl, runJob_moves fun t st x h => ?_⟩
    unfold guardSt at h; split at h
    · split at h
      · rename_i h2
        obtain ⟨h4, h3⟩ := kindActive_state (by simpa using (Bool.and_eq_true _ _ ▸ h2).2)
        split at h <;> cases h
        · exact (runDones_orFault _ _ (fun _ => true) _).moves h4 h3
        · exact (runDones_orFault _ _ (fun v => v != _) _).moves h4 h3
        · exact (Kept.foldl hk fun _ _ hu => countAbort_kept hu).moves
      · cases h
    · cases h

end Sys2Proof.Machine
end

