-- ==== Sys2Proof/Tests/Slice0.lean ====
section
/-! SUPPORT. Tests of this phase: the checks of WellFormed refuse an ill-formed term each, and for every statement that has hypotheses
a concrete state and operands that meet them, clause by clause. -/

namespace Sys2Proof.Tests

set_option Elab.async false

open Sys2Proof Machine

/-- The state right after reset, with the module in state `m`. -/
def inMode (m : Mode) : State := { State.reset with drv := { State.reset.drv with st := m } }

/-- A descriptor from the host's ring 8 with the payload `pay`, padded with zeros to `n` bytes. -/
def rq (n : Nat) (pay : List Byte) : Req :=
  { ring := 8, seq := 1, cls := 0, flags := 0, len := n, pay := padTo n pay }

/-- The command ends with status `st`: the completion of a descriptor of SEQ 1 in the first slot of ring 9 carries it (R59). A row
that `jobEnds` speaks of ends with `stOk` only where its form and its further condition hold, with `stRange` only where its form
fails, and with its third status only where the form holds and the condition fails: so each end shows operands of its case. -/
def ends (p : Instr × State × W16) : Bool :=
  match exec p.1 p.2.1 with
  | .next t => leNat (memRead t.io.qsram (9 * 0x4000) 32) 2 2 == 1 && leNat (memRead t.io.qsram (9 * 0x4000) 32) 4 2 == p.2.2.toNat
  | _ => false

/-- The eight bytes of a word, and zeros. -/
def w8 (v : Nat) : List Byte := leBytes 8 v
def zs (n : Nat) : List Byte := List.replicate n 0

/-- CONFIGURED and RUNNING after reset. -/
def sby : State := inMode .standby
def cfgd : State := inMode .configured
def rung : State := inMode .running

/-! ### WellFormed refuses an ill-formed term for each of its checks -/

theorem test_wf_ring : instrWf (.qryState { rq 0 [] with ring := 64 }) = false := by decide
theorem test_wf_class : instrWf (.qryState { rq 0 [] with cls := 256 }) = false := by decide
theorem test_wf_len : reqWf { rq 0 [] with len := 3585, pay := List.replicate 3585 0 } = false := by decide +kernel
theorem test_wf_payload : instrWf (.cfgRelease { rq 0 [] with len := 1 }) = false := by decide
theorem test_wf_can_frame : instrWf (.canFrameReceived 0
    { ide := false, fdf := true, brs := false, esi := false, id := 0, dlc := 15, remote := false, data := List.replicate 65 0, tstamp := 0 }) = false := by
  decide
theorem test_wf_eth_body : instrWf (.adexiaFrameReceived 0
    { dstMac := 0, srcMac := 0, etype := 0, body := List.replicate 1501 0, rct := none, fcsOk := true }) = false := by decide +kernel
theorem test_wf_trailer : ethFrameWf { dstMac := 0, srcMac := 0, etype := 0, body := [], rct := some ⟨65536, 10⟩, fcsOk := true } = false ∧
    ethFrameWf { dstMac := 0, srcMac := 0, etype := 0, body := [], rct := some ⟨0, 16⟩, fcsOk := true } = false := by decide
theorem test_wf_write_frame : instrWf (.hostWriteFrame 0x38 0 (List.replicate 66 0) none 0) = false := by decide
theorem test_wf_late_entry : instrWf (.contextRelease 0 [512]) = false := by decide
theorem test_wf_injected_index : instrWf (.conversionComplete 0 true 4 0 false) = false := by decide
theorem test_wf_answer : instrWf (.qaAnswer [0, 0, 0, 0, 0] 0) = false := by decide
theorem test_wf_good : instrWf (.cfgCommit (rq 1 [1]) default) = true := by decide

/-! ### The interface (O1 to O11) -/

theorem test_StepRunsTheFrontCommand : ∃ (c : Instr) (rest : List Instr) (s : State), rest ≠ [] ∧ serving s = true ∧
    step { s with pending := c :: rest } = exec c { s with pending := rest } :=
  ⟨.descriptorTake, [.portRst], inMode .standby, by decide, by decide, rfl⟩

theorem test_IdleStepTicksTheClocks : State.reset.pending = [] := rfl

theorem test_JobsAreAppliedOnlyWhereLegalAndServed :
    (jobOpcode (.cfgRelease (rq 0 [])) = some (0x1051, rq 0 []) ∧ serving (inMode .standby) = true ∧
      legal (inMode .standby).drv.st 0x1051 = false) ∧ serving State.reset = false := by decide

theorem test_HostFramesWriteAndRead :
    let s := inMode .standby
    let p := { s with io := { s.io with hpCtrl := 0 } }
    let c := crc16 (frameBytes 0x38 0 [7])
    portUp State.reset = false ∧ (portUp s = true ∧ ¬writeFormed 0x38 2 [0] none 16 s) ∧
      (writeFormed 0x38 0 [7] (some (c + 1)) 20 s ∧ c + 1 ≠ c) ∧
      writeFormed 0x38 0 [7] (some c) 20 s ∧
      (portUp p = true ∧ writeFormed 0x38 (BitVec.ofNat 24 (0x100000 - 256)) (List.replicate 64 0) none 520 p) ∧
      (0xFFF00 % 4 = 0 ∧ 0xFFF00 + 4 * 64 ≤ 0x100000) ∧ (readWord s 0x100000).isSome = true ∧ readWord s 0x100028 = none := by
  simp only [writeFormed]; decide +kernel

theorem test_DirectWritesAndDoorbells :
    let s := inMode .configured
    let t := inMode .running
    let u := { s with io := { s.io with hpCtrl := 0x00010002 } }
    portUp s = true ∧ portUp t = true ∧
      -- HP_CTRL: CRC_EN changes where RWA allows, HOST_WD tightens
      (bit (0x00010000 : W32) 1 ≠ bit s.io.hpCtrl 1 ∧ s.drv.st = .configured ∧ fld (0x00010000 : W32) 31 16 ≠ 0 ∧ fld s.io.hpCtrl 31 16 = 0) ∧
      (bit (0 : W32) 1 ≠ bit t.io.hpCtrl 1 ∧ t.drv.st ≠ .standby ∧ t.drv.st ≠ .configured) ∧
      (bit (2 : W32) 1 = bit u.io.hpCtrl 1 ∧ fld (2 : W32) 31 16 = 0 ∧ fld u.io.hpCtrl 31 16 = 1) ∧
      -- doorbells
      (hostOwns s.io 8 = true ∧ ptrOk (s.io.q 8) 31 = true) ∧ (hostOwns s.io 63 = false) ∧ ptrOk (s.io.q 8) 32 = false := by
  decide +kernel

/-- Ring 8 with one entry of a chain before ICSIS_PTR. -/
def withEntry (e : List Byte) : State :=
  let s := inMode .standby
  { s with io := { s.io with qsram := memWrite s.io.qsram (8 * 0x4000) (padTo 64 e), queues := s.io.queues.upd 8 fun q => { q with hostPtr := 1 } } }

theorem test_QueueConfigurationAndInterfaceTimers :
    let s := inMode .standby
    let r := rq 8 [14, 1, 4, 0, 9, 0, 0, 0]
    let one := { s with io := { s.io with irqStat := 0, queues := s.io.queues.upd 9 fun q => { q with irqTime := 1, icsisPtr := 1 } } }
    let wd := { s with io := { s.io with hpCtrl := 0x00010002 } }
    -- CFG_QUEUE and CFG_EVENTS
    (applies 0x1001 (rq 8 [7]) s ∧ applies 0x1001 r s ∧ parseQueue (rq 8 [7]) s.io = none) ∧
      ((parseQueue r s.io).map (fun c => queueBusy s.io c.qnum r.ring) = some false) ∧
      ((parseQueue (rq 8 [8, 1, 4, 0, 9]) s.io).map (fun c => queueBusy s.io c.qnum r.ring) = some true) ∧ applies 0x1002 (rq 8 [9, 11, 13]) s ∧
      (eventRingOk s.io 0 9 && eventRingOk s.io 1 11 && eventRingOk s.io 2 13) = true ∧ eventRingOk s.io 0 8 = false ∧
      -- IRQ_TIME_EXPIRY, FAULT_LOG_COPY, HOST_SILENCE_TIMEOUT
      ((one.io.q 9).isCpl = true ∧ (one.io.q 9).irqTime ≠ 0 ∧ (one.io.q 9).held ≠ 0 ∧ (one.io.q 9).timed = false) ∧
      bit s.sup.railOut 4 = false ∧ (fromStandby.contains wd.drv.st = true ∧ wd.io.hostWd ≠ 0 ∧ wd.io.silent = false) := by
  decide +kernel

/-- What the check of a whole chain at the head of ring 8 answers; `none` where no whole chain stands there. -/
def taken (s : State) : Option (Option W16) :=
  match headChain s.io 8 with
  | .whole es =>
    let op := leNat (es.headD []) 0 2
    let r := reqOf 8 es
    some (takeCheck s 8 op r (tailZero es)
      { opcode := BitVec.ofNat 16 op, req := r, tAcc := now s, cost := costOf op r, entries := longest op r,
        due := s.clk.tb + 4 * classBound r.cls, demands := demandsNow s })
  | _ => none

theorem test_DescriptorTakeAcceptsOrRefuses :
    let good := withEntry [0x02, 0x50, 1, 0, 4, 0, 1, 0, 0]
    let unknown := withEntry [0x05, 0x10, 1, 0, 0, 0, 0, 0]
    (serving good = true ∧ nextRing (inMode .standby) = none) ∧
      (nextRing (withEntry [0, 0]) = some 8 ∧ (match headChain (withEntry [0, 0]).io 8 with | .bad es => es.length | _ => 0) = 1) ∧
      (nextRing unknown = some 8 ∧ taken unknown = some (some stOpcode)) ∧ nextRing good = some 8 ∧ taken good = some none := by
  decide +kernel

theorem test_StateEventsAreResolvedByRank :
    let s := { State.reset with drv := { State.reset.drv with st := .running, events := [⟨.runEnd, 0x2004⟩, ⟨.stopReq, 0x4001⟩] } }
    serving s = true ∧ noEvent (inMode .standby) ∧
      (winner s.drv.st (s.drv.events ++ persistent s)).map (fun p => p.1) = some .safeStop := by decide +kernel

/-- A context of class 0 without laws. -/
def img1 : CtxImg :=
  { num := 0, ctrl := 0, period := 0, minper := 0, bound := 0, bases := [], area := 0, params := [], plim := [], inputs := [], runs := [],
    parBase := 0, laws := [] }

/-- An unsigned image of that one context, as its body and as its bytes (R156). -/
def body1 : ImageBody :=
  { arrange := 0, contexts := [img1], insvc := [], coef := [], rmem := [], required := [], monitor := [] }
def bytes1 : List Byte :=
  padTo 64 [0x01, 0x5C, 0xA1, 0xD7, 1, 0, 0x40, 0x96, 192, 0, 0, 0, 1, 0] ++ sha512 [] ++ padTo 64 []

/-- STANDBY with that image staged. -/
def staged : State := { inMode .standby with thk := { State.reset.thk with staging := bytes1, stagingLen := 192 } }

/-- State `m` with an image of the contexts `l` committed. -/
def placedAt (m : Mode) (l : List CtxImg) : State :=
  { inMode m with
    drv := { State.reset.drv with st := m, committed := true, varmMin := 1, varmMax := 2000, routeAcq := 0xFFFF }
    thk := { State.reset.thk with
      body := some { body1 with contexts := l }, active := bytes1
      ctxs := l.foldl (fun t i => t.put i.num (loadCtx i)) State.reset.thk.ctxs }
    prt := { State.reset.prt with dcsns := 500 }
    prn := { State.reset.prn with startOk := true } }

theorem test_DriveConfigurationAndStateCommandsTakeEffect :
    let s := inMode .standby
    let c := placedAt .configured [img1]
    let d := rq 28 [0, 7, 0, 0, 0, 0, 1, 0, 1, 0]
    let good := fun (s : State) => formOk d 28 && (driveReq d).auxuse &&& 0xF8 == 0 && zeroAt d 11 1 && zeroAt d 18 2 && zeroAt d 30 6 &&
      decide (1 ≤ (driveReq d).stopT) && legsOk (driveReq d) && windowOk s (driveReq d)
    -- CFG_DRIVE
    (applies 0x1010 d s ∧ good s = true ∧ s.drv.st = .standby) ∧ legsOk (driveReq (rq 28 [1, 7])) = false ∧
      (applies 0x1010 d c ∧ good c = true ∧ c.drv.st ≠ .standby ∧ changesImage c (driveReq d) = true) ∧
      -- CFG_COMMIT, CFG_RELEASE, CTL_ARM, CTL_DISARM, CTL_RUN
      (applies 0x1050 (rq 1 [0]) staged ∧ noEvent staged ∧ commitCheck staged (rq 1 [0]) body1 = none) ∧
      commitCheck s (rq 1 [2]) body1 = some (stRange, []) ∧
      (applies 0x1051 (rq 0 []) c ∧ noEvent c ∧ formOk (rq 0 []) 0 = true ∧ c.prt.dis = .idle) ∧
      (applies 0x2001 (rq 0 []) c ∧ armCheck c (rq 0 []) (c.prt.dis != .idle || c.icp.split) = none) ∧
      armCheck (inMode .configured) (rq 0 []) false = some (stFailed, [2]) ∧
      (applies 0x2002 (rq 0 []) (placedAt .armed [img1]) ∧ noEvent (placedAt .armed [img1])) ∧
      (applies 0x2003 (rq 0 []) (placedAt .armed [img1]) ∧ armCheck (placedAt .armed [img1]) (rq 0 []) false = none) ∧
      (¬noEvent { c with drv := { c.drv with events := [⟨.stopReq, 0x4001⟩] } }) := by
  decide +kernel

theorem test_ImageCommandsMoveTheStagedImage :
    let s := inMode .standby
    applies 0x1011 (rq 8 [0, 0, 0, 0, 192]) s ∧
      (opForm (rq 8 [0, 0, 0, 0, 192]) 8 0 && zeroAt (rq 8 [0, 0, 0, 0, 192]) 9 3) = true ∧ fieldAt (rq 8 [0, 0, 0, 0, 192]) 12 4 = 192 ∧
      opForm (rq 3584 [1]) (8 + 3576) 1 = true ∧
      (opForm (rq 8 [3, 3]) 8 3 && decide (fieldAt (rq 8 [3, 3]) 9 1 < 4) && zeroAt (rq 8 [3, 3]) 10 6) = true ∧
      (stagedWhole staged.thk && imgDigestOk staged.thk.staging && flashOk staged) = true ∧ stagedWhole s.thk = false := by
  decide +kernel

theorem test_ContextCommandsWriteTheSelectedFields :
    let s := placedAt .configured [img1]
    applies 0x1012 (rq 48 [0, 13, 15, 1]) s ∧ ctxCheck s (rq 48 [0, 13, 15, 1]) 0 = none ∧ ctxCheck s (rq 48 [0, 13, 15, 1]) 3 = none ∧
      ctxCheck s (rq 48 [0, 3, 0, 0, 0, 0, 0x30, 0, 0x88, 0x13]) 1 = none ∧ ctxCheck s (rq 48 [160]) 0 = some stRange ∧
      bit (ctxNext (ctxReq (rq 48 [0, 1, 0, 0, 0, 0, 0, 0x80])) (ctxAt s 0)).ctrl 31 = true := by
  decide +kernel

/-- A context that writes the compares of unit 0 and takes stream entry 5, in RUNNING and ARMED. -/
def imgPwm : CtxImg :=
  { img1 with
    ctrl := 0x80000000 ||| 0x40000000, inputs := [5]
    runs := [{ block := 0, cell := 0, first := 0, words := [0x2C#64 <<< 58] }] }

/-- RUNNING with group 0 feeding that context. -/
def fed : State := updGroup (placedAt .running [imgPwm]) 0 fun x => { x with seq := x.seq.put 0 (BitVec.ofNat 64 (0x80000000 + 5 * 2 ^ 22)) }

def rowsAcq : List (Instr × State × W16) :=
  let other := [1, 0, 63, 1, 0, 0, 0, 0] ++ w8 (2 ^ 60)
  [(.cfgAcqGroup (rq 40 [0, 3]), sby, stOk), (.cfgAcqGroup (rq 40 [0, 4]), sby, stRange),
   (.cfgAcqGroup (rq 40 [0, 3, 0, 0, 0x80]), rung, stState), (.cfgAcqSeq (rq 16 other), sby, stOk),
   (.cfgAcqSeq (rq 16 [1, 0, 64, 1]), sby, stRange), (.cfgAcqSeq (rq 16 other), rung, stState),
   (.cfgAcqScale (rq 16 [2, 0, 67, 1]), rung, stOk), (.cfgAcqScale (rq 16 [2, 0, 68, 1]), rung, stRange),
   (.cfgAcqCal (rq 8 [3, 15]), sby, stOk), (.cfgAcqCal (rq 8 [3, 16]), sby, stRange), (.cfgAcqCal (rq 8 [3, 1]), fed, stBusy),
   (.cfgAcqStatusClr (rq 8 [4, 3, 0, 0, 31]), rung, stOk), (.cfgAcqStatusClr (rq 8 [4, 3, 0, 0, 32]), rung, stRange),
   (.cfgAcqSwtrig (rq 8 [5, 0, 0, 0, 255, 255, 15]), rung, stOk), (.cfgAcqSwtrig (rq 8 [5, 0, 0, 0, 0, 0, 16]), rung, stOk),
   (.cfgAcqSwtrig (rq 8 [5, 1]), rung, stRange)]

def rowsDsm : List (Instr × State × W16) :=
  let clk := fun n : Byte => rq 24 ([0, 0, 0, 0, 0, 0, 0, 0] ++ [n, 0, 0, 0] ++ [n, 0, 0, 0] ++ [n, 0, 0, 0] ++ [n, 0, 0, 0])
  let inp := fun i : Byte => rq 32 ([1, i, 0, 0, 0, 0, 0, 0] ++ w8 (2 ^ 63) ++ w8 0x7FFFE0000 ++ w8 0x1FFFF)
  [(.cfgDsmClocks (clk 32), sby, stOk), (.cfgDsmClocks (clk 7), sby, stRange), (.cfgDsmClocks (clk 9), rung, stState),
   (.cfgDsmInput (inp 11), sby, stOk), (.cfgDsmInput (inp 12), sby, stRange), (.cfgDsmInput (inp 11), rung, stState),
   (.cfgDsmStatusClr (rq 8 [2, 11, 0, 0, 7]), rung, stOk), (.cfgDsmStatusClr (rq 8 [2, 11, 0, 0, 8]), rung, stRange)]

theorem test_ConverterConfigurationTakesEffect : rowsAcq.all ends = true ∧ rowsDsm.all ends = true := by decide +kernel

/-- RUNNING with a DMD law placed for machine 0 whose catch stands at `x`. -/
def caught (x : Catch) (r : Option Ramp) : State :=
  let s := placedAt .running [{ img1 with laws := [{ kind := .dmd }] }]
  { s with drv := { s.drv with ramp := r }, dmd := { s.dmd with catch_ := s.dmd.catch_.put 0 x } }

def rowsDmd : List (Instr × State × W16) :=
  [(.ctlStop (rq 2 [1, 0]), rung, stOk), (.ctlStop (rq 1 [1]), rung, stRange), (.ctlMode (rq 4 [1, 0, 7]), cfgd, stOk),
   (.ctlMode (rq 4 [1, 0, 8]), cfgd, stRange), (.ctlSetpoint (rq 8 [7, 0, 0, 0, 1]), rung, stOk),
   (.ctlSetpoint (rq 8 [8]), rung, stRange), (.cfgCurve (rq 276 ([3, 3, 7, 0] ++ zs 8 ++ (List.range 33).flatMap fun i => leBytes 4 i)), sby, stOk),
   (.cfgCurve (rq 276 [3, 3, 7, 0]), sby, stRange)]

theorem test_DemandCommandsAndTheEndOfAStopTakeEffect :
    let q : Ramp := { kind := .command, ms := 5, startAt := 0, endsAt := 20000000 }
    let law : LawInst := { kind := .dmd }
    let one : Catch := { stage := 1 }
    let emf : Catch := { stage := 1, bemf := true }
    let ready := fun (x : Catch) (ns : Nat) => (dmdRun (caught x none) 0).isSome = true ∧ detectDue (caught x none) 0 law ns = true
    let moving : State :=
      let s := caught {} (some q)
      { s with thk := { s.thk with rmem := s.thk.rmem.upd 0 fun m => memPuts m (encRun law { rT := 2 ^ 20 }) } }
    let looking := { caught { one with stage := 2 } none with pos := (updObs rung 3 fun x => { x with cfgA := 1#64 <<< 63, cfgB := 1#64 <<< 53 }).pos }
    rowsDmd.all ends = true ∧
      -- CTL_SETPOINT outside and inside the limits of a DMD law that takes message word 0 in speed mode
      ((setpointLimits (caught {} none) 0).any fun l => decide (l.2 < 1)) = true ∧
      -- a stop in a stage 1 to 3 of the catch, and out of them
      one.early = true ∧ catchEarly (caught {} (some q)) = false ∧
      -- the ends of a ramp
      ((caught {} (some q)).drv.st = .running ∧ torqueZero (caught {} (some q)) = true ∧ rampZero (caught {} (some { q with kind := .monitor })) = true) ∧
      (moving.drv.st = .running ∧ torqueZero moving = false ∧ catchEarly moving = false) ∧
      -- stage 1 of a catch: without back-EMF detection; turning both ways; weak, with and without a stop; strong; not yet at its end
      ready one 0 ∧ ready { emf with fwd := true, bwd := true } 500000 ∧ ready emf 500000 ∧ ready { emf with stop := true } 500000 ∧
      (ready { emf with samples := 3, sumV := 9 } 500000 ∧ s18 (paramAt (caught emf none) 0 9) * 3 ≤ 9) ∧
      detectDue (caught emf none) 0 law 499999 = false ∧
      -- stage 2, with an observer that serves ANG_SRC
      (dmdRun (caught { one with stage := 2 } none) 0).isSome = true ∧ angObs looking { law with angSrc := some 0 } = some 3 := by
  decide +kernel

/-- RUNNING with group 0 enabled and its trigger set to 0x40, and with `f` done to it. -/
def grp (f : AcqGroup → AcqGroup) : State := updGroup rung 0 fun x => f { x with gcfg := 0x40000080, inj := x.inj.put 0 (0x40#64 <<< 44) }

/-- A hold of entry 0 alone, and one of J0 that was direct. -/
def heldOne : Held := { idx := [0] }
def heldJ : Held := { inj := true, idx := [0], direct := true, tsamp := rung.clk.cycles }

theorem test_ConvertersTriggerConvertAndDeliver :
    let wait := fun x : AcqGroup => { x with seq := x.seq.put 0 (1#64 <<< 63) }
    let late := fun x : AcqGroup => { x with seq := x.seq.put 0 (1#64 <<< 63 ||| 1#64 <<< 32) }
    let a := fun f : AcqGroup → AcqGroup => (grp f).acq.groups.at 0
    let free := fun x : AcqGroup => x.next = none ∧ x.held = none ∧ x.test = false ∧ x.calBusy = false
    groupRuns (grp id) 0 = true ∧ gTrig (a id).gcfg ≠ 0 ∧ jTrig ((a id).inj.at 0) ≠ 0 ∧
      -- SEQUENCE_TRIGGER: a direct hold, a delayed one, ahead of an injected entry held in its cycle, pending, dropped
      ((a wait).idle = true ∧ fld ((a wait).seq.at (a wait).pos) 43 32 = 0) ∧
      ((a late).idle = true ∧ fld ((a late).seq.at (a late).pos) 43 32 ≠ 0) ∧
      (let x := a fun x => { wait x with held := some heldJ }
       let y := x.yieldInj (edgeTick (grp id) 0x40 / 5)
       heldJ.tsamp / 5 = edgeTick (grp id) 0x40 / 5 ∧ (y.first && y.waits && !y.pend) = true) ∧
      ((a id).idle = false ∧ (a id).first = false ∧ (a id).pend = false ∧ bit (a id).stat 1 = false) ∧
      -- INJECTED_TRIGGER: dropped, held, pending
      bit (a fun x => { x with jpend := 1 }).jpend 0 = true ∧ bit (a id).stat 2 = false ∧ bit (a wait).jpend 0 = false ∧
      -- RUN_HOLD: an injected entry, a run, a run that a pending trigger starts
      (free (a fun x => { x with jpend := 8 }) ∧ (List.range 4).find? (fun k => bit (a fun x => { x with jpend := 8 }).jpend k) = some 3) ∧
      (free (a id) ∧ (List.range 4).find? (fun k => bit (a id).jpend k) = none ∧ bit ((a id).seq.at (a id).pos) 63 = false) ∧
      (let x := a fun x => { wait x with pend := true, first := true }
       free x ∧ bit (x.seq.at x.pos) 63 = true ∧ x.started = false ∧ x.rep = 0 ∧ x.pend = true) ∧
      -- CONVERSION_COMPLETE
      ((a fun x => { x with held := some heldOne }).held = some heldOne ∧ (0 : Fin 64).val ∈ heldOne.idx ∧
        stageReady (a fun x => { x with held := some heldOne }) heldOne 0 = true ∧ heldOne.idx = [0]) ∧
      (({ idx := [0, 1] } : Held).idx.filter (fun n => n ≠ 0)) ≠ [] := by
  decide +kernel

/-- RUNNING with clock 0 on and delta-sigma input 0 enabled, its fast path on over one output. -/
def dsmOn (f : Dsm → Dsm) : State :=
  let s := updDsm rung 0 fun d => f { d with cfg := 0x8000000020000000 }
  { s with acq := { s.acq with clks := s.acq.clks.put 0 0x80000008 } }

theorem test_CalibrationAndDeltaSigmaEventsTakeEffect :
    let due := grp fun x => { x with calDue := true }
    let d := (dsmOn id).acq.dsm.at 0
    (due.drv.st ≠ .off ∧ (due.acq.groups.at 0).calBusy = false ∧ (due.acq.groups.at 0).calDue = true) ∧
      calDeferred fed 0 = true ∧
      (calDeferred due 0 = false ∧ (due.acq.groups.at 0).held = none ∧ (due.acq.groups.at 0).jpend = 0 ∧ (due.acq.groups.at 0).test = false) ∧
      ((grp fun x => { x with jpend := 1 }).acq.groups.at 0).jpend ≠ 0 ∧ ((grp fun x => { x with calBusy := true }).acq.groups.at 0).calBusy = true ∧
      -- delta-sigma input 0: R = 16, a sum of -4096 gives -131072, one of 4096 is full scale, one of 0 is not
      dsmRuns (dsmOn id) 0 = true ∧ |(-4096 : Int)| ≤ ((16 ^ 3 : Nat) : Int) ∧ (-4096 : Int) * 2 ^ 17 = -131072 * 4096 ∧ (-131072 : Int) < 131072 ∧
      |(0 : Int)| < ((16 ^ 3 : Nat) : Int) ∧ ((dsmOn fun d => { d with stuck := true }).acq.dsm.at 0).stuck = true ∧
      16 * 2 ^ fld d.cfg 55 53 = 16 ∧ fld d.cfg 32 29 = 1 ∧
      fld ((dsmOn fun d => { d with cfg := d.cfg ||| 0x0000020000000000 }).acq.dsm.at 0).cfg 42 35 = 0x40 ∧ d.stuck = false ∧
      -- the fast path: Rf = 4, where a sum of 16 is full scale and lies within the thresholds of reset
      4 * 2 ^ fld d.cfg 34 33 = 4 ∧ (16 : Int) * 2 ^ 17 = 131072 * ((4 ^ 2 : Nat) : Int) ∧ |(16 : Int)| ≤ ((4 ^ 2 : Nat) : Int) ∧
      (s18 (BitVec.ofNat 18 (fld d.fth 17 0)) ≤ sinc2 4 16 ∧ sinc2 4 16 ≤ s18 (BitVec.ofNat 18 (fld d.fth 35 18))) := by
  decide +kernel

def rowsPos : List (Instr × State × W16) :=
  let pl := fun (op u : Byte) (c : Nat) => [op, u, 0, 0, 0, 0, 0, 0] ++ w8 c
  let rsv := fun u c => rq 16 (pl 0 u c)
  let obs := fun o => rq 28 (pl 4 o 0x001F_00C8_0000_0000 ++ w8 0 ++ [0, 0, 0x80, 0x3F])
  [(.cfgPosRsv (rsv 1 0x2710_0000_40F0_0000), rung, stOk), (.cfgPosRsv (rsv 2 0x2710_0000_40F0_0000), sby, stRange),
   (.cfgPosRsv (rsv 1 0xA710_0000_40F0_0000), rung, stState), (.cfgPosEnc (rq 16 (pl 1 3 0x0000_1000_0000_0000)), sby, stOk),
   (.cfgPosEnc (rq 16 (pl 1 3 0x0000_000F_0000_0000)), sby, stRange), (.cfgPosEnc (rq 16 (pl 1 3 0x8000_1000_0000_0000)), rung, stState),
   (.cfgPosCmp (rq 16 (pl 2 3 0)), rung, stOk), (.cfgPosCmp (rq 16 (pl 2 3 (4096 * 2 ^ 20))), rung, stRange),
   (.cfgPosHal (rq 12 ([3, 1, 0, 0, 0, 0, 0, 0] ++ leBytes 4 0x053B0A00)), sby, stOk), (.cfgPosHal (rq 12 [3, 1]), sby, stRange),
   (.cfgPosHal (rq 12 ([3, 1, 0, 0, 0, 0, 0, 0] ++ leBytes 4 0x853B0A00)), rung, stState),
   (.cfgPosObs (obs 3), sby, stOk), (.cfgPosObs (obs 4), sby, stRange), (.cfgPosObs (obs 3), rung, stState),
   (.cfgPosPla (rq 16 (pl 5 1 0x0820_0008_0004_0000)), rung, stOk), (.cfgPosPla (rq 16 (pl 5 1 0)), rung, stRange),
   (.cfgPosPla (rq 16 (pl 5 1 0x8820_0008_0004_0000)), rung, stState),
   (.cfgPosStatusClr (rq 8 [6, 3, 0, 0, 7]), rung, stOk), (.cfgPosStatusClr (rq 8 [6, 3, 1, 0, 0x1E]), rung, stOk),
   (.cfgPosStatusClr (rq 8 [6, 1, 2, 0, 2]), rung, stOk), (.cfgPosStatusClr (rq 8 [6, 2, 2, 0, 2]), rung, stRange)]

theorem test_PositionConfigurationTakesEffect : rowsPos.all ends = true := by decide +kernel

def rowsPrt : List (Instr × State × W16) :=
  let pl := fun (op u : Byte) (c : Nat) => [op, u, 0, 0, 0, 0, 0, 0] ++ w8 c
  let ctl := (setFld sby.prt.ctl 31 24 0).toNat
  let asc := fun n => rq 16 (pl 0 0 ((setFld sby.prt.ctl 47 32 n).toNat))
  let lim := { sby with prt := { sby.prt with ctl := setFld sby.prt.ctl 47 32 100 } }
  let dcl := fun o => rq 20 (pl 1 0 ((setFld (setFld (setFld sby.prt.dcl 63 53 o) 41 31 500) 30 20 400).toNat) ++ leBytes 4 0x44800000)
  let limD := { sby with prt := { sby.prt with dcl := setFld sby.prt.dcl 63 53 1000 } }
  [(.cfgPrtCtl (rq 16 (pl 0 0 ctl)) true, sby, stOk), (.cfgPrtCtl (rq 16 (pl 0 1 ctl)) true, sby, stRange),
   (.cfgPrtCtl (rq 16 (pl 0 0 (ctl ^^^ 2 ^ 63))) true, rung, stState), (.cfgPrtCtl (asc 101) true, lim, stTighten),
   (.cfgPrtCtl (asc 99) false, lim, stFailed), (.cfgPrtCtl (asc 99) true, lim, stOk),
   (.cfgPrtCtl (asc 100) true, { lim with prt := { lim.prt with dis := .waiting } }, stBusy),
   (.cfgPrtDcl (dcl 1000), sby, stOk), (.cfgPrtDcl (dcl 1), sby, stRange), (.cfgPrtDcl (dcl 1000), rung, stState),
   (.cfgPrtDcl (dcl 1001), limD, stTighten),
   (.cfgPrtChop (rq 16 (pl 2 0 sby.prt.chop.toNat)), rung, stOk), (.cfgPrtChop (rq 16 (pl 2 0 0)), sby, stRange),
   (.cfgPrtChop (rq 16 (pl 2 0 (sby.prt.chop.toNat ^^^ 2 ^ 63))), rung, stState),
   (.cfgPrtTrip (rq 16 (pl 3 0 sby.prt.trip.toNat)), rung, stOk), (.cfgPrtTrip (rq 16 (pl 3 0 (7 * 2 ^ 16))), sby, stRange),
   (.cfgPrtTrip (rq 16 (pl 3 0 (sby.prt.trip.toNat ^^^ 15 * 2 ^ 16))), rung, stState),
   (.cfgPrtCbc (rq 12 ([4, 3, 0, 0, 0, 0, 0, 0] ++ leBytes 4 (11 * 2 ^ 27))), rung, stOk), (.cfgPrtCbc (rq 12 [4, 4]), rung, stRange),
   (.cfgPrtStatusClr (rq 8 [5, 0, 0, 0, 0, 0xFF, 0x1F]), sby, stOk), (.cfgPrtStatusClr (rq 8 [5, 0, 0, 0, 1]), rung, stRange),
   (.cfgPrtStatusClr (rq 8 [5, 0, 0, 0, 0, 0, 2]), rung, stState)]

theorem test_ProtectionConfigurationTakesEffect : rowsPrt.all ends = true := by decide +kernel

theorem test_PositionSensorsAndObserversTakeEffect :
    let rsv := updRsv rung 0 fun x => { x with cfg := x.cfg ||| 1#64 <<< 63 }
    let enc := updEnc rung 3 fun x => { x with cfg := x.cfg ||| 1#64 <<< 63 }
    let e := enc.pos.enc.at 3
    let hal := fun j => updHal rung 1 fun x => { x with cfg := x.cfg ||| 1#32 <<< 31, sector := some j }
    let obs := updObs rung 3 fun x => { x with cfgA := (x.cfgA ||| 1#64 <<< 63) ||| 0x40#64 <<< 24, cfgB := 1#64 <<< 53 }
    let o := obs.pos.obs.at 3
    let pla := fun w n => { updObs (updObs rung 0 fun x => { x with valid := true }) 1 fun x => { x with valid := true, w := w } with
      pos := { (updObs (updObs rung 0 fun x => { x with valid := true }) 1 fun x => { x with valid := true, w := w }).pos with
        pla := rung.pos.pla.put 0 { cfg := 0x8820_0008_0004_0000, fails := n, passes := n } } }
    -- a resolver at its lower limit, and below it
    (bit (rsv.pos.rsv.at 0).cfg 63 = true ∧ unitsRun rsv = true) ∧
      ((fld (rsv.pos.rsv.at 0).cfg 31 24 * 512) ^ 2 ≤ (s18 32768 * s18 32768 + s18 0 * s18 0).toNat ∧
        (s18 32768 * s18 32768 + s18 0 * s18 0).toNat ≤ (fld (rsv.pos.rsv.at 0).cfg 23 16 * 512) ^ 2) ∧
      ¬((fld (rsv.pos.rsv.at 0).cfg 31 24 * 512) ^ 2 ≤ (s18 32767 * s18 32767 + s18 0 * s18 0).toNat) ∧
      -- an encoder
      (encRuns enc 3 = true ∧ bit e.cfg 53 = false ∧ fld e.cfg 61 60 = 0 ∧ bit e.stat 7 = false ∧ bit e.stat 8 = false) ∧
      -- a Hall set stepping to an adjacent sector
      (bit ((hal 0).pos.hal.at 1).cfg 31 = true ∧ unitsRun (hal 0) = true ∧
        (List.range 6).any (fun l => hallSector ((hal 0).pos.hal.at 1).cfg (l + 1) == 1)) ∧
      -- a step by three sectors, and the first legal state
      (List.range 6).any (fun l => hallSector ((hal 0).pos.hal.at 1).cfg (l + 1) == 3) ∧ (rung.pos.hal.at 1).sector = none ∧
      -- an observer with its latch trigger, and a plausibility check that fails and one that passes at N = 1
      (unitsRun obs = true ∧ o.en = true ∧ obsLtrig o.cfgA ≠ 0 ∧ bit o.cfgB 63 = false ∧ bit o.cfgB 53 = true ∧ bit o.cfgB 43 = false ∧
        bit o.cfgB 33 = false ∧ o.fallbk = none) ∧ srcHealthy obs o.cfgA = false ∧
      (let lost := updObs obs 3 fun x => { x with healthy := true }
       (lost.pos.obs.at 3).healthy = true ∧ srcHealthy lost (lost.pos.obs.at 3).cfgA = false) ∧
      (plaFails (pla 131071 7) ((pla 131071 7).pos.pla.at 0).cfg = true ∧ plaFails (pla 0 7) ((pla 0 7).pos.pla.at 0).cfg = false ∧
        fld ((pla 0 7).pos.pla.at 0).cfg 22 15 = 8 ∧ bit ((pla 0 7).pos.pla.at 0).cfg 63 = true) := by
  decide +kernel

/-- RUNNING with unit 0 enabled in both records, and with `f` done to it. -/
def unitOn (f : PwmUnit → PwmUnit) : State := updUnit rung 0 fun x => f { x with cfg := x.cfg ||| 1#64 <<< 63, eff := x.eff ||| 1#64 <<< 63 }

def rowsPwm : List (Instr × State × W16) :=
  let unit := fun u c => rq 24 ([0, u, 0, 0, 0, 0, 0, 0] ++ w8 c ++ w8 (sby.pwm.units.at 0).tim.toNat)
  let c := (sby.pwm.units.at 0).cfg.toNat
  let aux := fun u a => rq 16 ([1, u, 0, 0, 0, 0, 0, 0] ++ w8 a)
  let apart := { rung with icp := { rung.icp with split := true } }
  let shadow := rq 16 [0, 4, 63, 1, 0, 0, 0, 0, 0x14, 0, 0, 0, 255, 255, 3, 0]
  let bound := { placedAt .standby [{ img1 with ctrl := 0x80110000, minper := 0xFFFFFFFF }] with pwm := (unitOn id).pwm }
  [(.cfgPwmUnit (unit 5 c), sby, stOk), (.cfgPwmUnit (unit 6 c), sby, stRange), (.cfgPwmUnit (unit 5 (c ^^^ 2 ^ 63)), rung, stState),
   (.cfgPwmAux (aux 7 0x0600_0000_0010_0000), sby, stOk), (.cfgPwmAux (aux 8 0x0600_0000_0010_0000), sby, stRange),
   (.cfgPwmAux (aux 7 0x0600_0000_0010_0000), rung, stState), (.cfgPwmAux (aux 0 0x8600_0000_0010_0000), bound, stBound),
   (.cfgPwmStatusClr (rq 8 [2, 5, 0, 0, 0x7E]), rung, stOk), (.cfgPwmStatusClr (rq 8 [2, 5, 0, 0, 0x80]), rung, stRange),
   (.ctlForceRelease (rq 8 [63, 0]), rung, stOk), (.ctlForceBothOff (rq 8 [63, 1]), rung, stOk), (.ctlForceLowerOn (rq 8 [63, 2]), rung, stOk),
   (.ctlForceUpperOn (rq 8 [63, 3]), rung, stOk), (.ctlForceRelease (rq 8 [64, 0]), rung, stRange), (.ctlForceBothOff (rq 8 [64, 1]), rung, stRange),
   (.ctlForceLowerOn (rq 8 [63, 2]), inMode .armed, stRange), (.ctlForceUpperOn (rq 8 [63, 3]), inMode .armed, stRange),
   (.ctlForceRelease (rq 8 [63, 0]), apart, stBusy), (.ctlForceBothOff (rq 8 [63, 1]), apart, stBusy),
   (.ctlForceLowerOn (rq 8 [63, 2]), apart, stBusy), (.ctlForceUpperOn (rq 8 [63, 3]), apart, stBusy),
   (.ctlForceShadowWrite shadow, rung, stOk), (.ctlForceShadowWrite (rq 16 [0, 4, 64, 1]), rung, stRange), (.ctlForceShadowWrite shadow, apart, stBusy)]

theorem test_PwmEventsTakeEffect :
    let s := unitOn fun x => { x with lda := true, fpend := some 3 }
    let x := s.pwm.units.at 0
    let aux := { s with pwm := { s.pwm with aux := s.pwm.aux.put 7 { cfg := 1#64 <<< 63 ||| 1#64 <<< 57 } } }
    let waits := unitOn fun x => { x with waiting := true }
    let follow := updUnit s 1 fun x => { x with eff := setFld (setBit x.eff 63 true) 11 8 1 }
    let cut := unitOn fun x => { x with eff := 0xFFFFFFFFFFFFFFFF, effTim := 0xFFFFFFFFFFFFFFFF }
    ((unitOn fun x => { x with restart := true }).pwm.units.at 0).restart = true ∧ reloads s 0 false = true ∧ x.restart = false ∧ x.lda = true ∧
      ((unitOn id).pwm.units.at 0).lda = false ∧ unitCounts s 0 = true ∧ bit ((unitOn fun x => { x with eff := x.eff ||| 1#64 <<< 58 }).pwm.units.at 0).eff 58 = true ∧
      -- an event at x = 0 at the valley, a unit that waits, and one that follows
      (bit (aux.pwm.aux.at 7).cfg 63 = true ∧ unitCounts aux (fld (aux.pwm.aux.at 7).cfg 62 60) = true ∧ auxFires aux 7 (fineNow aux) = true) ∧
      ((waits.pwm.units.at 0).waiting = true ∧ countState waits.drv.st = true ∧ bit (waits.pwm.units.at 0).eff 63 = true ∧
        (waits.pwm.units.at 0).stopped = false) ∧
      masterOf (effRecs follow) 1 = 0 ∧ x.inForce.sync ≠ 9 ∧
      -- a cut-off by line 3, outside its window
      ((cut.pwm.units.at 0).inForce.cbcen.testBit 3 = true ∧ bit { cut with prt := { cut.prt with cbcLine := 8 } }.prt.cbcLine 3 = true ∧
        blanked cut 0 (fineNow cut + 51) = false ∧ (cut.pwm.units.at 0).cutoff = false) := by
  decide +kernel

def rowsGdv : List (Instr × State × W16) :=
  let ch := fun u c => rq 16 ([0, u, 0, 0, 0, 0, 0, 0] ++ w8 c)
  let c := (sby.gdv.at 0).cfg.toNat
  let tab := fun u => rq 28 ([2, u, 0, 0, 0, 0, 0, 0] ++ leBytes 4 0x3F800000 ++ (List.range 8).flatMap fun i => leBytes 2 (i + 1))
  [(.cfgGdvChannel (ch 15 c), sby, stOk), (.cfgGdvChannel (ch 16 c), sby, stRange), (.cfgGdvChannel (ch 15 (c ^^^ 2 ^ 63)), rung, stState),
   (.cfgGdvInd (rq 16 [1, 15]), rung, stOk), (.cfgGdvInd (rq 16 [1, 16]), rung, stRange), (.cfgGdvTable (tab 15), rung, stOk),
   (.cfgGdvTable (rq 28 [2, 15]), rung, stRange), (.cfgGdvTcool (rq 8 [3, 15, 0, 0, 0, 0x80, 255, 255]), rung, stOk),
   (.cfgGdvTcool (rq 8 [3, 15, 0, 0, 0, 0x80, 0, 0]), rung, stRange), (.cfgGdvStatusClr (rq 8 [4, 15, 0, 0, 0x1E, 6]), rung, stOk),
   (.cfgGdvStatusClr (rq 8 [4, 15, 0, 0, 1]), rung, stRange)]

theorem test_PwmCommandsTakeEffect : rowsPwm.all ends = true := by decide +kernel

theorem test_GateDriverConfigurationTakesEffect : rowsGdv.all ends = true := by decide +kernel

/-- RUNNING with driver channel 0 enabled, its protection on, and with `f` done to it. -/
def drvOn (f : GdvChan → GdvChan) : State := updGdv rung 0 fun g => f { g with cfg := g.cfg ||| 1#64 <<< 63 ||| 5#64 <<< 56 ||| 1#64 <<< 35 }

theorem test_GateDriverAndIndicatorEventsTakeEffect :
    let g := (drvOn id).gdv.at 0
    let i := (drvOn fun g => { g with ind := 1#64 <<< 63 ||| 1#64 <<< 51, ibase := 0x3F800000, pairs := [(5, 1)], tjCount := 9 }).gdv.at 0
    let p := (drvOn fun g => { g with ind := 1#64 <<< 63 ||| 1#64 <<< 8, ibase := 0x3F800000 }).gdv.at 0
    -- the driver's faults
    ((drvOn id).drv.st ≠ .off ∧ bit g.cfg 63 = true ∧ fld g.cfg 60 57 ≠ 0 ∧ bit g.stat 8 = false ∧ bit g.cfg 56 = true ∧ bit g.stat 0 = false ∧
      bit g.cfg 35 = true ∧ g.linkLost = false) ∧
      -- an update that drops the interval, one of a used sample without an alarm, and one with none
      (bit g.ind 63 = false ∧ f32Rat 0x7F800000 = none) ∧
      (f32Rat i.ibase = some 1 ∧ (0 : Rat) < 1 ∧ bit i.ind 63 = true ∧ (drvOn id).drv.coldRun = false ∧ i.cold = [] ∧ fld i.ind 19 8 = 0 ∧
        bit i.stat 10 = false ∧ i.tjCount = 9) ∧
      (i.pairs.filter fun p => decide (s18 (BitVec.ofNat 18 (fld i.ind 49 32)) ≤ 4 * forward i.ind p.2) && decide (0 < forward i.ind p.2)) ≠ [] ∧
      (f32Rat p.ibase = some 1 ∧ bit p.ind 63 = true ∧ p.pairs = [] ∧ fld p.ind 19 8 = 1) := by
  decide +kernel

/-- RUNNING with OVT 1,000 V, UVT 300 V, CHON 500 V, CHOFF 400 V and the chopper enabled, and with `f` done to the record. -/
def linked (f : Prt → Prt) : State :=
  { rung with prt := f { rung.prt with
      dcl := setFld (setFld (setFld (setFld rung.prt.dcl 63 53 1000) 52 42 300) 41 31 500) 30 20 400, chop := setBit (setFld rung.prt.chop 48 45 0) 63 true } }

theorem test_LinkTripsAndLegRejoin :
    let s := linked id
    (ovt s ≠ 0 ∧ ovt s < 1001 ∧ tripsArmed s.drv.st = true ∧ bit s.prt.chop 63 = true ∧ bit s.prt.flags 17 = false) ∧ 1000 ≤ ovt s ∧
      (uvt s ≠ 0 ∧ 299 < uvt s ∧ driving s.drv.st = true) ∧ uvt s ≤ 300 ∧ legLine s 5 = false ∧
      legLine (linked fun p => { p with tripLine := 1, trip := 0 }) 0 = true := by
  decide +kernel

def rowsDis : List (Instr × State × W16) :=
  [(.ctlDischarge (rq 8 [0, 8, 1, 0]), cfgd, stRange),
   (.ctlDischarge (rq 8 [0xFF, 0x07, 1, 0]), { cfgd with prt := { cfgd.prt with dis := .on } }, stBusy)]

theorem test_ChopperAndDischargeTakeEffect :
    let s := linked id
    let on := linked fun p => { p with chAct := true, ovHold := true }
    let c := rq 8 [0xFF, 0x07, 1, 0]
    -- the chopper
    (chopEn s = true ∧ bit s.prt.flags 17 = false ∧ tripsArmed s.drv.st = true ∧ s.prt.chAct = false ∧ chon s < 501 ∧
      chopperFree s (fld s.prt.chop 55 49) = true) ∧ 500 ≤ chon s ∧
      (chopEn on = true ∧ on.prt.chAct = true ∧ 399 < choff on ∧ on.prt.ovHold = true) ∧ choff on ≤ 400 ∧
      (fld s.prt.chop 48 45 ≠ 15 ∧ driving s.drv.st = true) ∧
      -- a chopper that is on without current, and one that is off with current
      (let h := linked fun p => { p with chAct := true, chop := setFld p.chop 44 27 5 }
       chopEn h = true ∧ h.prt.chAct = true ∧ chopperSettled h = true ∧ chopperCurrent h < chimin h) ∧
      (let h := { s with acq := (updDsm s 0 fun d => { d with fast := -70000 }).acq }
       h.prt.chAct = false ∧ chopperSettled h = true ∧ chimin h < chopperCurrent h) ∧ bit (linked fun p => { p with flags := 0x20000 }).prt.flags 17 = true ∧
      -- the discharge
      (applies 0x2021 c cfgd ∧ (formOk c 8 && decide (fieldAt c 8 2 ≤ 2047) && decide (1 ≤ fieldAt c 10 2) && zeroAt c 12 4) = true ∧
        (cfgd.prt.dis != .idle || cfgd.pwm.units.toList.any fun u => decide (2 ≤ u.fmode)) = false) ∧ rowsDis.all ends = true ∧
      (let w := { cfgd with prt := { cfgd.prt with dis := .waiting, disReq := some c } }
       w.prt.dis = .waiting ∧ w.prt.disReq = some c) ∧
      (let d := { cfgd with prt := { cfgd.prt with dis := .on, vtgt := 60 } }
       d.prt.dis = .on ∧ 60 ≤ d.prt.vtgt ∧ d.prt.vtgt < 61) := by
  decide +kernel

/-- State `m` with a safety configuration that gives pair 0 a function, both machines a speed source, comparator 0 a source and the torque
monitor its enable, at the limit words `sfWord` names, and with `f` done to Blackthorn. -/
def safe (m : Mode) (f : Safety → Safety) : State :=
  let s := inMode m
  { s with
    drv := { s.drv with legs := 7 }
    saf := f { s.saf with errcnt := 0 }
    sup := { s.sup with stage := 2 }
    boot := { s.boot with fuses := { s.boot.fuses with
      safetySet := true
      safety := (((s.boot.fuses.safety.put 0 (2#32 <<< 20)).put 1 (1#32 <<< 29)).put 2 (6#32 <<< 29)).put 9 0xA000 |>.put 11 0xC0 } } }

def lims : Limits := { smax := #v[100, 100], bhi := #v[100, 100, 100, 100, 100, 100, 100, 100] }

def rowsSaf : List (Instr × State × W16) :=
  let free := { inMode .safeStop with saf := { sby.saf with errcnt := 0 } }
  let bad := { inMode .fault with io := { sby.io with latched := [0x9021] }, sup := { sby.sup with railOut := 2 } }
  let lim := safe .configured fun x => { x with icsLim := lims, blkLim := lims }
  let smax := fun n => rq 20 [1, 1, 0, 0, n]
  [(.safStop (rq 0 []), rung, stOk), (.safStop (rq 0 []), inMode .fault, stOk), (.safRelease (rq 0 []), inMode .safeStop, stFailed),
   (.safRelease (rq 0 []), free, stOk), (.blackthornReleaseTimeout (rq 0 []), free, stFailed), (.safAck (rq 0 []) 0 0, inMode .safeStop, stOk),
   (.safAck (rq 0 []) 0xFFFF 0xFF, inMode .fault, stOk), (.safAck (rq 0 []) 0 0, bad, stFailed), (.safTest (rq 0 []) 0xFFFF 0xFF, cfgd, stOk),
   (.safTest (rq 0 []) 0xFFFE 0xFF, cfgd, stFailed), (.safTest (rq 0 []) 0 0, { cfgd with icp := { cfgd.icp with split := true } }, stBusy),
   (.cfgLimit (smax 99) true, lim, stOk), (.cfgLimit (smax 0) true, lim, stRange), (.cfgLimit (smax 101) true, lim, stTighten),
   (.cfgLimit (smax 99) false, lim, stFailed)]

theorem test_SafetyCommandsTakeEffect :
    let free := { inMode .safeStop with saf := { sby.saf with errcnt := 0 } }
    rowsSaf.all ends = true ∧ (noEvent rung ∧ formOk (rq 0 []) 0 = true) ∧ releaseUnmet (inMode .safeStop) = some 0x3040 ∧
      (releaseUnmet free = none ∧ inService free = false ∧ stillHeld free .standby = none ∧ noEvent free) ∧
      (stillHeld (safe .safeStop fun x => { x with closedStart := true }) .standby).isSome = true := by
  decide +kernel

theorem test_SafetyInputAndSpeedEventsTakeEffect :
    let s := safe .running fun x => { x with pairs := x.pairs.put 0 { demA := false, demB := true, demand := false } }
    let o := updObs s 0 fun x => { x with valid := true, w := 0 }
    (inputDemands s 0 true 5001 = true ∧ inputDemands s 0 true 5000 = !bit (sfWord s 0) 16 ∧ inputDemands s 0 false 5000 = true ∧
      inputDemands s 0 false 11000 = false) ∧ (pairFn s 0 ≠ 0 ∧ blkUp s = true ∧ (s.saf.pairs.at 0).demA ≠ (s.saf.pairs.at 0).demB ∧ (s.saf.pairs.at 0).demand = false) ∧
      (spdSrc s 0 ≠ 6 ∧ (s.saf.mach.at 0).smax.present = false) ∧
      ((o.saf.mach.at 0).known = true ∧ monObs o 0 = 0 ∧ (o.pos.obs.at (monObs o 0)).valid = true ∧ fromStandbyOn o.drv.st = true) ∧
      (spdSrc s 1 = 6 ∧ (s.saf.mach.at 1).swHold = false ∧ runLine s = true ∧ (s.pos.obs.at (monObs s 1)).valid = false) := by
  decide +kernel

theorem test_WatchdogAndMonitorEventsTakeEffect :
    let s := safe .running fun x => { x with errcnt := 4, question := some 7, qaStarted := true }
    let l := safe .standby fun x => { x with clkf := true }
    (fld (sfWord s 11) 7 6 ≠ 0 ∧ blkUp s = true) ∧ (tmen s = true ∧ s.drv.st = .running ∧ inUse s 0 = true) ∧ monitorFails s 0 0 = true ∧
      nMis s = 1 ∧ s.saf.qaStarted = true ∧ (s.saf.question = some 7 ∧ 4 ≤ s.saf.errcnt ∧ s.saf.qaLim = none) ∧
      (blkUp l = true ∧ blkLatches l ≠ []) ∧ (s.saf.clkf = false ∧ fromStandby.contains s.drv.st = true) ∧
      (fromStandby.contains (safe .boot id).drv.st = false ∧ (safe .boot id).drv.st ≠ .coppice) := by
  decide +kernel

def rowsThm : List (Instr × State × W16) :=
  let rec_ := (List.range 6).flatMap fun i => leBytes 4 (if i = 5 then 1 else 0)
  [(.cfgThmWarn (rq 8 [0, 0, 0, 0, 255, 255]), rung, stOk), (.cfgThmWarn (rq 8 [0, 0, 0, 0, 0, 0, 1]), rung, stRange),
   (.cfgThmStatusClr (rq 8 [1, 0, 0, 0, 255, 255, 255, 255]), cfgd, stOk), (.cfgThmStatusClr (rq 8 [1, 1]), cfgd, stRange),
   (.cfgThmStatusClr (rq 8 [1]), rung, stBusy), (.cfgChkUnit (rq 40 ([0, 7, 0, 0, 0, 0, 0, 0] ++ w8 (sby.chk.at 0).cfg.toNat ++ rec_)), rung, stOk),
   (.cfgChkUnit (rq 40 [0, 8]), rung, stRange), (.cfgChkStatusClr (rq 8 [1, 7, 0, 0, 6]), rung, stOk),
   (.cfgChkStatusClr (rq 8 [1, 7, 0, 0, 8]), rung, stRange)]

theorem test_TemperatureWarningAndCheckUnitsAreConfigured : rowsThm.all ends = true := by decide +kernel

theorem test_TemperatureAndAgeingEventsTakeEffect :
    let hot := { rung with thm := { rung.thm with hot := rung.thm.hot.put 31 true, reading := rung.thm.reading.put 31 2480 } }
    -- temperature
    (hot.drv.st ≠ .off ∧ hot.thm.hot.at 31 = true ∧ (2560 : Int) ≤ 2560 ∧ bit hot.thm.broken 31 = false ∧ bit hot.thm.stat 26 = false) ∧
      windowBad 64 0 = true ∧ (∀ n < 32, rung.thm.reading.at n < 2480) ∧ fromStandby.contains hot.drv.st = true ∧
      ((hottest { hot.thm with reading := hot.thm.reading.put 31 2400 }).2 = 2400 ∧ (hottest rung.thm).2 < 2368) ∧
      (stepOf 12 2367 ≤ 12 ∧ 16 * (123 + 2 * (12 : Int)) ≤ 2352) ∧
      -- ageing
      ((0 : Nat) < 1 ∧ hot.sup.slow = 0) ∧ (({ today := some 3 } : AgeSite).today = some 3 ∧ ({ today := some 3 } : AgeSite).hist.length < 90) ∧
      ({} : AgeSite).today = none := by
  decide +kernel

theorem test_SupplyEventsTakeEffect :
    let s := { rung with sup := { rung.sup with seqDone := true } }
    let droop := fun l => { s with clk := { s.clk with tb := 4000000 }, sup := { s.sup with slow := 1, slowAt := some 4000000, slowLog := l } }
    (bit s.sup.railOut 0 = false ∧ bit s.sup.railOut 2 = false ∧ bit s.sup.railOut 6 = false ∧ s.sup.seqDone = true) ∧
      (s.drv.st ≠ .off ∧ slowedUs s < 20 ∧ s.sup.slow = 0 ∧ s.nv.ageDth = 0 ∧ 919 < 920 + 5 * s.nv.ageDth ∧ ¬920 < 920 + 5 * s.nv.ageDth ∧
        949 < 950 + 5 * s.nv.ageDth ∧ ¬950 < 950 + 5 * s.nv.ageDth) ∧ ((droop []).sup.slow ≠ 0 ∧ slowedUs (droop []) < 20) ∧
      20 ≤ slowedUs (droop [(3900000, 3980000)]) ∧ (droop []).sup.slowAt = some 4000000 ∧ s.sup.badRef = 0 ∧
      ({ s.sup with badRef := 1 } : Supply).badRef = 1 := by
  decide +kernel

/-- OFF, released, with `f` done to the start sequencer. -/
def starting (f : Supply → Supply) : State := { State.reset with sup := f { State.reset.sup with released := true } }

theorem test_PowerUpFollowsTheStartSequence :
    ((starting id).drv.st = .off ∧ (starting id).sup.released = true ∧ (starting id).sup.stage = 1 ∧ (starting id).icp.dead = false) ∧
      (let s := starting fun x => { x with powered := 19, locked := true }
       s.sup.powered ≠ 0 ∧ s.sup.seqDone = false ∧ (s.sup.powered = 2 → s.sup.locked = true) ∧ railBad s = false) ∧
      (let s := starting fun x => { x with powered := 2 }
       s.drv.st = .off ∧ s.sup.powered = 2 ∧ s.sup.locked = false) ∧
      (startFail { State.reset with aon := { State.reset.aon with failCount := 2, fails := [{ code := 1, stage := 1, secs := 0 }, { code := 1, stage := 1, secs := 0 }] } } 0x9001 1).aon.failCount = 3 := by
  decide +kernel

/-- BOOT with the sequence complete, its banks `a` and `b`, and `f` done to the boot state. -/
def booting (a b : FwBank) (f : Boot → Boot) : State :=
  let s := inMode .boot
  { s with sup := { s.sup with seqDone := true, stage := 9 }, nv := { s.nv with banks := #v[a, b] }, boot := f s.boot }

theorem test_BootRomSelectsVerifiesAndStarts :
    let none_ : BootFinds := { failing := none, badCells := [] }
    let latched := { booting {} {} id with aon := { State.reset.aon with coppice := true } }
    let started := fun tr fb => booting { factory := true } {} fun x => { x with bank := some 0, trial := tr, fallback := fb }
    (latched.drv.st = .boot ∧ latched.boot.bank = none ∧ latched.icp.held = false ∧ latched.icp.dead = false ∧ latched.aon.coppice = true) ∧
      (verifyBank (booting {} {} id).nv.fuses {} ≠ 0 ∧ (booting {} {} id).aon.coppice = false ∧ (booting {} {} id).sup.seqDone = true) ∧
      failingKind (loadFuses (booting {} {} id)) none_ = 0 ∧ failingKind (loadFuses (booting {} {} id)) { none_ with failing := some 0x48 } ≠ 0 ∧
      ((started true false).drv.st = .boot ∧ (started true false).boot.bank = some 0 ∧ (started true false).sup.stage = 9 ∧
        (started true false).boot.trial = true ∧ (bcrNow (started true false).nv.bcr).gen ≠ 0xFFFFFFFF) ∧
      (started false true).boot.fallback = true := by
  decide +kernel

/-- The bank that Lanreic shipped verifies with the fuses as shipped: its version is not below MINSVN 0. -/
theorem test_factory_bank_verifies :
    verifyBank State.reset.nv.fuses { factory := true } = 0 ∧
      (selectBank (loadFuses (booting { factory := true } {} id))).2.1 = 0 ∧
      (selectBank (loadFuses (booting {} { factory := true } id))).2.1 = 0 := by
  refine ⟨?_, by decide +kernel, by decide +kernel⟩
  have h : keyOk State.reset.nv.fuses 0 = true := by decide +kernel
  have m : State.reset.nv.fuses.minsvn = 0 := rfl
  simp [verifyBank, h, m]

def rowsMnt : List (Instr × State × W16) :=
  let er := fun b n => rq 8 ([0, b, 0, 0] ++ leBytes 4 n)
  let len := { sby with nv := { sby.nv with banks := #v[{}, { len := 192 }] }, boot := { sby.boot with bank := some 0 } }
  let dat := fun b => rq 16 ([1, b, 0, 0] ++ zs 12)
  let noFlash := { len with sup := { len.sup with railOut := 16 } }
  [(.mntFwWriteErase (er 1 192), len, stOk), (.mntFwWriteErase (er 1 191), len, stRange), (.mntFwWriteErase (er 0 1572864), len, stBusy),
   (.mntFwWriteData (dat 1), len, stOk), (.mntFwWriteData (dat 2), len, stRange),
   (.mntFwWriteData (dat 0), { len with nv := { len.nv with banks := #v[{ len := 192 }, {}] } }, stBusy),
   (.mntFwWriteErase (er 1 192), noFlash, stFailed), (.mntFwWriteData (dat 1), noFlash, stFailed), (.mntFwVerify (rq 1 [1]), len, stAuth),
   (.mntFwActivate (rq 1 [2]), len, stRange), (.mntFwActivate (rq 1 [1]), len, stAuth), (.mntLogClearRecords (rq 1 [15]), sby, stOk),
   (.mntLogClearStartFailures (rq 1 [15]), sby, stOk), (.mntLogClearWear (rq 1 [15]), sby, stOk), (.mntLogClearAgeing (rq 1 [15]), sby, stOk)]

/-- STANDBY with VFLASH out of its window. -/
def dry : State := { sby with sup := { sby.sup with railOut := 16 } }

theorem test_MaintenanceCommandsTakeEffect :
    rowsMnt.all ends = true ∧ (applies 0x5012 (rq 0 []) sby ∧ formOk (rq 0 []) 0 = true ∧ noEvent sby) ∧
      (applies 0x5012 (rq 0 []) dry ∧ noEvent dry ∧ flashOk dry = false) ∧
      (applies 0x5011 (rq 1 [15]) sby ∧ formOk (rq 1 [15]) 1 = true ∧ fieldAt (rq 1 [15]) 8 1 < 16 ∧ flashOk sby = true) := by
  decide +kernel

def fwA : Req := rq 1 [0]

/-- MNT_FW_VERIFY and MNT_FW_ACTIVATE of the bank that Lanreic shipped. -/
theorem test_factory_bank_is_taken :
    (applies 0x5002 fwA sby ∧ formOk (fwA) 1 = true ∧ fieldAt (fwA) 8 1 = 0 ∧ verifyBank sby.boot.fuses (sby.nv.banks.at 0) = 0) ∧
      (applies 0x5003 fwA sby ∧ activateCheck sby (fwA) = none ∧ noEvent sby ∧ flashOk sby = true) ∧
      (applies 0x5003 fwA dry ∧ activateCheck dry (fwA) = none ∧ noEvent dry) := by
  have h : verifyBank sby.boot.fuses (sby.nv.banks.at 0) = 0 := by
    have b : (sby.nv.banks.at 0).factory = true := by decide +kernel
    have k : keyOk sby.boot.fuses 0 = true := by decide +kernel
    have m : sby.boot.fuses.minsvn = 0 := rfl
    simp [verifyBank, b, k, m]
  have f : fieldAt (fwA) 8 1 = 0 := by decide +kernel
  have o : formOk (fwA) 1 = true := by decide +kernel
  have hd : verifyBank dry.boot.fuses (dry.nv.banks.at 0) = 0 := h
  refine ⟨⟨by decide +kernel, by decide +kernel, f, h⟩, ⟨by decide +kernel, ?_, by decide +kernel, by decide +kernel⟩, by decide +kernel, ?_,
    by decide +kernel⟩
  · simp [activateCheck, f, h, o, show sby.io.jobs = [] from rfl]
  · simp [activateCheck, f, hd, o, show dry.io.jobs = [] from rfl]

def rowsFuse : List (Instr × State × W16) :=
  let s := { sby with nv := { sby.nv with banks := #v[{ data := zs 18 }, {}] } }
  let fuses := fun f => { s with nv := { s.nv with fuses := f } }
  let set := fuses { startCfgSet := true, policySet := true, safetySet := true, minsvn := 1,
                     keys := #v[{}, {}, {}, { written := true }] }
  let sf := [4, 0, 0, 0] ++ ([0, 0, 0xA1, 0] : List Byte)
  let word := fun i : Nat => if i = 0 then 1 else if i = 1 then 0x602 else if i = 2 then 0x602 else if i = 3 then 0x10000 else if i = 4 then 0x10000 else if i = 8 then 0x20 else if i = 9 then 0x2400 else 0
  let key := rq 40 ([1, 3, 0, 0] ++ zs 36)
  let saf := rq 84 ([4, 0, 0, 0] ++ (List.range 20).flatMap fun i => leBytes 4 (word i))
  [(.mntFuseIdent (rq 8 [0, 0, 0, 0, 255, 3, 255, 0]) true, s, stOk), (.mntFuseIdent (rq 8 [0, 0, 0, 0, 0, 4]) true, s, stRange),
   (.mntFuseIdent (rq 8 [0]) true, set, stBusy), (.mntFuseKey key true, s, stOk), (.mntFuseKey (rq 40 [1, 1]) true, s, stRange),
   (.mntFuseKey key true, set, stBusy), (.mntFuseRevoke (rq 8 [2, 0, 0, 0, 14]) true, s, stOk),
   (.mntFuseRevoke (rq 8 [2, 0, 0, 0, 15]) true, s, stRange), (.mntFusePolicy (rq 8 [3, 0, 0, 0, 7]) true, s, stOk),
   (.mntFusePolicy (rq 8 [3, 0, 0, 0, 8]) true, s, stRange), (.mntFusePolicy (rq 8 [3]) true, set, stBusy),
   (.mntFuseSafety saf true, s, stOk), (.mntFuseSafety (rq 84 sf) true, s, stRange), (.mntFuseSafety saf true, set, stBusy),
   (.mntFuseRollback (rq 4 [5]) true, s, stOk), (.mntFuseRollback (rq 4 [5, 1]) true, s, stRange), (.mntFuseRollback (rq 4 [5]) true, set, stTighten),
   (.mntFuseRollback (rq 4 [5]) false, s, stFailed)]

theorem test_FuseCommandsTakeEffect : rowsFuse.all ends = true := by decide +kernel

def rowsCan : List (Instr × State × W16) :=
  let ctrl := fun c w => rq 16 ([0, c, 0, 0] ++ leBytes 4 w ++ w8 (sby.can.at 0).bt.toNat)
  let w := (sby.can.at 0).ctrl.toNat
  let mobj := fun o => rq 24 ([1, 3, o, 1, 0, 0, 0, 0] ++ w8 0x01C0_0000_0000_0000 ++ w8 0x0000_0007_FFFF_FFC0)
  let own := { sby with can := sby.can.upd 3 fun x => { x with ctrl := 0xFFFFFFF0 } }
  let tx := { rung with can := rung.can.upd 3 fun x => { x with objs := x.objs.put 127 { a := 0xC000_0000_0000_0000 } } }
  [(.cfgCanCtrl (ctrl 3 (w ||| 2 ^ 31)), sby, stOk), (.cfgCanCtrl (ctrl 4 w), sby, stRange), (.cfgCanCtrl (ctrl 3 (w ||| 2 ^ 31)), rung, stState),
   (.cfgCanMobj (mobj 127), rung, stOk), (.cfgCanMobj (rq 24 [1, 3, 128, 1]), rung, stRange), (.cfgCanMobj (mobj 127), own, stBusy),
   (.cfgCanTxdata (rq 8 [2, 3, 127]), tx, stOk), (.cfgCanTxdata (rq 8 [2, 3, 127]), rung, stRange),
   (.cfgCanRecover (rq 8 [3, 3]), { rung with can := rung.can.upd 3 fun x => { x with estate := 2 } }, stOk),
   (.cfgCanRecover (rq 8 [3, 4]), rung, stRange), (.cfgCanRecover (rq 8 [3, 3]), rung, stBusy),
   (.cfgCanStatusClr (rq 8 [4, 3, 0, 0, 0xFE, 7]), rung, stOk), (.cfgCanStatusClr (rq 8 [4, 3, 0, 0, 0, 8]), rung, stRange)]

theorem test_CanConfigurationTakesEffect : rowsCan.all ends = true := by decide +kernel

/-- State `m` with CAN controller 0 enabled in mode 0 for FD frames, its object 5 made `x`, and `f` done to the controller. -/
def canOn (m : Mode) (x : CanObj) (f : Machine.Can → Machine.Can) : State :=
  let s := inMode m
  { s with can := s.can.put 0 (f { ctrl := 0x9000_0010, objs := (s.can.at 0).objs.put 5 x }) }

/-- A classic frame with identifier 0. -/
def frame0 : CanFrame := { ide := false, fdf := false, brs := false, esi := false, id := 0, dlc := 8, remote := false, data := zs 8, tstamp := 0 }

theorem test_CanReceptionTakesEffect :
    let rx : CanObj := { a := 0x8000_0000_0000_0000, b := 0 }
    let s := canOn .running rx id
    let w : CanObj := { a := 0x8000_8000_0040_0000, lock := some .msgWord }
    (let l := canOn .running rx fun x => { x with ctrl := setFld x.ctrl 30 29 3 }
     canRuns l 0 = true ∧ (l.can.at 0).mode = 3) ∧
      (canRuns s 0 = true ∧ (s.can.at 0).mode ≠ 3 ∧ frame0.fdf = false ∧ (s.can.at 0).fden = true ∧ (s.can.at 0).cmden = false) ∧
      (let v := canGood (updCan s 0 fun x => { x with integrating := false }) 0 false
       matchObj (v.can.at 0) frame0 = some 5 ∧ matchObj (v.can.at 0) { frame0 with ide := true } = none) ∧
      (rx.lock = none ∧ rx.wen = false) ∧ (w.lock = some .msgWord ∧ w.hold = none) ∧ ({ w with hold := some frame0 } : CanObj).hold = some frame0 ∧
      ((canOn .running w id).can.at 0).en = true ∧ (w.en = true ∧ w.tx = false ∧ w.wen = true ∧ w.tout = 1) := by
  decide +kernel

theorem test_CanTransmissionTakesEffect :
    let tx : CanObj := { a := 0xC080_0000_0000_0040, req := true }
    let s := canOn .running tx id
    let off := canOn .running tx fun x => { x with estate := 2, recovering := true }
    let cmd := { canOn .running tx fun x => { x with ctrl := 0x9004_0050, retry := true } with
      io := { rung.io with queues := rung.io.queues.upd 13 fun q => { q with icsisPtr := 1 } } }
    (let l := canOn .running tx fun x => { x with ctrl := setFld x.ctrl 30 29 3 }
     canRuns l 0 = true ∧ (l.can.at 0).mode = 3 ∧ offered (l.can.at 0) = some 5) ∧
      (canRuns s 0 = true ∧ (s.can.at 0).mode = 0 ∧ offered (s.can.at 0) = some 5 ∧ tx.fails < tx.rlim) ∧ ({ tx with fails := 1 } : CanObj).rlim ≤ 1 ∧
      ((s.can.at 0).en = true ∧ fromStandby.contains s.drv.st = true ∧ tx.en = true ∧ tx.tx = true ∧ tx.period ≠ 0 ∧ tx.req = true) ∧
      ((off.can.at 0).en = true ∧ (off.can.at 0).estate = 2 ∧ (off.can.at 0).recovering = true) ∧
      (256 ≤ ({ tec := 248 } : Machine.Can).tec + 8) ∧
      (canCplRing cmd = some 13 ∧ cmdtxReady cmd 0 = true ∧ 0 < (cmd.io.q 13).held ∧ (cmd.can.at 0).sending = false ∧ (cmd.can.at 0).retry = true) := by
  decide +kernel

def rowsAdx : List (Instr × State × W16) :=
  let c := sby.adx.ctrl.toNat
  let ctrl := fun c => rq 16 ([0, 0, 0, 0, 0, 0, 0, 0] ++ w8 c)
  let t := sby.adx.tcfg.toNat
  let cfg := fun c => rq 32 ([2, 0, 0, 0, 0, 0, 0, 0] ++ w8 c)
  let free := fun m => { inMode m with adx := { sby.adx with tcfg := 0x8000_0000_0000_0000 } }
  let set := rq 28 ([3, 0, 0, 0, 0, 0, 0, 0] ++ zs 8 ++ leBytes 4 999999999)
  let adj := rq 16 ([4, 0, 0, 0, 0, 0, 0, 0] ++ w8 34342558499)
  [(.cfgAdxCtrl (ctrl c), rung, stOk), (.cfgAdxCtrl (ctrl (c + 1)), sby, stRange), (.cfgAdxCtrl (ctrl (c ^^^ 2 ^ 63)), rung, stState),
   (.cfgAdxMw (rq 8 [1, 7]), rung, stOk), (.cfgAdxMw (rq 8 [1, 8]), rung, stRange), (.cfgAdxTimeCfg (cfg t), sby, stOk),
   (.cfgAdxTimeCfg (cfg (2 ^ 63 + 2 ^ 62)), sby, stRange), (.cfgAdxTimeCfg (cfg (t ^^^ 2 ^ 63)), rung, stState),
   (.cfgAdxTimeSet set, free .standby, stOk), (.cfgAdxTimeSet (rq 28 [3, 1]), free .standby, stRange), (.cfgAdxTimeSet set, free .running, stBusy),
   (.cfgAdxTimeAdj adj, free .running, stOk), (.cfgAdxTimeAdj (rq 16 ([4, 0, 0, 0, 0, 0, 0, 0] ++ w8 34342558498)), free .running, stRange),
   (.cfgAdxTimeAdj adj, rung, stBusy), (.cfgAdxTimeAdj (rq 8 [4, 0, 0, 0, 0xE8, 3]), free .running, stOk),
   (.cfgAdxTimeAdj (rq 8 [4, 0, 0, 0, 0xE9, 3]), free .running, stRange), (.cfgAdxTimeAdj (rq 8 [4, 0, 0, 0, 0xE8, 3]), rung, stBusy),
   (.cfgAdxStatusClr (rq 8 [5, 0, 0, 0, 7]), rung, stOk), (.cfgAdxStatusClr (rq 8 [5, 2, 0, 0, 15]), rung, stOk),
   (.cfgAdxStatusClr (rq 8 [5, 3, 0, 0, 0, 0, 0, 12]), rung, stOk), (.cfgAdxStatusClr (rq 8 [5, 3, 0, 0, 1]), rung, stOk),
   (.cfgAdxStatusClr (rq 8 [5, 3, 0, 0, 0, 0, 0, 1]), rung, stRange)]

theorem test_NetworkConfigurationTakesEffect : rowsAdx.all ends = true := by decide +kernel

/-- State `m` with Adexia on and both links up, a submission ring for it, and `f` done to Adexia. -/
def net (m : Mode) (f : Adx → Adx) : State :=
  let s := inMode m
  { s with
    adx := f { s.adx with ctrl := s.adx.ctrl ||| 0xE000_0000_0010_0000, ports := #v[{ link := true }, { link := true }] }
    io := { s.io with queues := s.io.queues.upd 11 fun q => { q with icsisPtr := 1 } } }

/-- A broadcast frame of Adexia's type with the body `b`. -/
def eth (b : List Byte) : EthFrame :=
  { dstMac := 0xFFFFFFFFFFFF, srcMac := 5, etype := BitVec.ofNat 16 (adxType (adxCtl sby)), body := b, rct := none, fcsOk := true }

theorem test_NetworkFramesTakeEffect :
    let s := net .running id
    let msg := net .running fun x => { x with mw := x.mw.put 7 0x80000001 }
    let wait := net .running fun x => { x with ports := x.ports.upd 1 fun p => { p with awaited := [(5, 9, 0)] } }
    let e : NodeEnt := { mac := 5, hi := 100, recent := [(100, 0, 0)] }
    (portLive sby 0 = false ∧ portLive s 0 = true ∧ (eth []).srcMac ≠ nodeMac (adxCtl s) (nodeId s) ∧ (eth []).dstMac.getLsbD 40 = true) ∧
      ((eth []).etype.toNat = adxType (adxCtl s) ∧ headerOk (eth []).body = false ∧ headerOk ([1, 2, 0, 0, 0, 0, 32, 0] ++ zs 32) = true) ∧
      (¬(({ eth [] with dstMac := 7 } : EthFrame).dstMac = nodeMac (adxCtl s) (nodeId s)) ∧ (7 : BitVec 48).getLsbD 40 = false) ∧
      ((0x0800 : BitVec 16).toNat ≠ adxType (adxCtl s)) ∧
      (e.judge 101 5 = .accept ∧ e.judge 100 5 = .duplicate ∧ e.judge 37 5 = .accept ∧ e.judge 36 5 = .outOfWindow) ∧
      ((s.adx.ports.at 0).link = true ∧ adxRuns s = true ∧ adxPort (adxCtl s) 0 = true) ∧
      ((s.adx.ports.at 1).awaited = [] ∧ (wait.adx.ports.at (1 - 0)).awaited = [] ++ [(5, 9, 0)] ∧ wait.clk.tb < 0 + 1600000000 ∧
        0 + 1600000000 ≤ { wait with clk := { wait.clk with tb := 1600000000 } }.clk.tb) ∧
      -- a PTP event message
      ((0x88F7 : BitVec 16).toNat ≠ adxType (adxCtl s) ∧ byteAt ({ eth [1] with etype := 0x88F7 } : EthFrame).body 0 % 16 < 4) ∧
      (adxFull msg = true ∧ mwEn (msg.adx.mw.at 7) = true ∧ mwTout (msg.adx.mw.at 7) ≠ 0 ∧ driving msg.drv.st = true) ∧
      (adxCplRing s = some 11 ∧ portLive s 1 = true ∧ adxCmden (adxCtl s) = true ∧ 0 < (s.io.q 11).held) := by
  decide +kernel

theorem test_TimeSynchronisationTakesEffect :
    let s := net .running id
    (adxFull s = true ∧ portLive s 1 = true ∧ tmode s.adx.tcfg = 0 ∧ s.adx.sport = 3) ∧ |(-1000 : Int)| ≤ 1000 ∧
      (1000 < |(1001 : Int)| ∧ driving s.drv.st = true ∧ driving (net .standby id).drv.st = false) ∧
      (((16 * ofslim s.adx.tcfg : Nat) : Int) < |(16 * ofslim s.adx.tcfg + 1 : Int)| ∧ |(4 * ofslim s.adx.tcfg : Int)| ≤ (4 * ofslim s.adx.tcfg : Nat)) ∧
      (net .running fun x => { x with sport := 1, sync := true }).adx.sport ≠ 3 ∧
      ({ s.clk with offset := some 5 } : Clock).offset.isSome = true := by
  decide +kernel

def rowsCrd : List (Instr × State × W16) :=
  let c := (sby.crd.cfg.toNat / 2 ^ 43) * 2 ^ 43 + 1 * 2 ^ 33 + 2 * 2 ^ 23 + 3 * 2 ^ 13
  let cfg := fun c => rq 16 ([0, 0, 0, 0, 0, 0, 0, 0] ++ w8 c)
  let one := leBytes 4 0x3F800000
  let par := fun p => rq 28 ([1, 0, 0, 0, 0, 0, 0, 0] ++ w8 p ++ one ++ one ++ one)
  [(.cfgCrdCfg (cfg c), sby, stOk), (.cfgCrdCfg (cfg (c + 1)), sby, stRange), (.cfgCrdCfg (cfg c), rung, stState),
   (.cfgCrdPar (par 0), rung, stOk), (.cfgCrdPar (rq 28 [1]), sby, stRange), (.cfgCrdPar (par (2 ^ 30)), rung, stState),
   (.cfgCrdStatusClr (rq 8 [2, 0, 0, 0, 126]), rung, stOk), (.cfgCrdStatusClr (rq 8 [2, 0, 0, 0, 1]), rung, stRange)]

/-- RUNNING with torque allocation on: member, home module of the pair 0 and 1, arbiter 0 as well; and `f` done to the record. -/
def crdOn (f : Crd → Crd) : State :=
  { net .running id with crd := f { cfg := 0xE000_0000_0080_0000 } }

theorem test_TorqueAllocationTakesEffect :
    let s := crdOn id
    let a := crdOn fun x => { x with appointed := some (0, 1), misses := 1 }
    let d := crdOn fun x => { x with startCycles := 10, arbSeen := true }
    let copy := zs 144 ++ leBytes 4 (crc32 (zs 144)).toNat
    rowsCrd.all ends = true ∧ (crdRuns s = true ∧ s.adx.ctrlNext = none ∧ crdMember s = true ∧ s.crd.allocs = []) ∧
      (isArbiter a = true ∧ a.crd.appointed = some (0, 1) ∧ a.crd.failed = false ∧ a.crd.misses = 1) ∧
      (isPair s = true ∧ s.crd.sending = false ∧ (crdOn fun x => { x with sending := true }).crd.sending = true) ∧
      ((zs 147).length ≠ 148 ∧ copy.length = 148 ∧ leNat copy 144 4 = (crc32 (copy.take 144)).toNat) ∧
      (isArbiter d = true ∧ 10 ≤ d.crd.startCycles ∧ d.crd.appointed = none ∧ d.crd.toAppoint = none ∧
        reported (d.crd.before ++ d.crd.reports) (homeNode d.crd.cfg) Report.ready = false ∧ d.crd.arbSeen = true) ∧ s.crd.arbSeen = false := by
  decide +kernel

def split (m : Mode) : State := { inMode m with icp := { State.reset.icp with split := true, core1 := .service } }

theorem test_LockstepPairCommandsTakeEffect :
    let j : Job := { opcode := 0x2031, req := rq 0 [], tAcc := 0, cost := 1, entries := 1, due := 0 }
    let ask := { split .standby with io := { State.reset.io with jobs := [j] } }
    ([(.ctlSplit (rq 4 [15]), cfgd, stOk), (.ctlSplit (rq 4 [16]), cfgd, stRange), (.ctlSplit (rq 4 [1]), split .configured, stBusy),
      (.ctlJoin (rq 0 []) true, cfgd, stOk), (.ctlJoin (rq 0 []) true, split .standby, stOk)] : List (Instr × State × W16)).all ends = true ∧
      (ask.icp.split = true ∧ ask.io.jobs.any (fun j => j.opcode == 0x2031) = true) ∧
      ((split .standby).icp.core1 = .service ∧ (0x3BFFFF : W32).toNat < 0x3C0000 ∧ 0x3FFFFF < (0x400000 : W32).toNat) ∧
      (serving cfgd = true ∧ fromStandby.contains cfgd.drv.st = true) ∧
      (comparing { cfgd with icp := { cfgd.icp with recur := 2 } } = true ∧ comparing { inMode .boot with icp := { cfgd.icp with recur := 1 } } = true ∧
        (4 : Fin 6).val < 5) ∧
      (let h : Pair := { cfgd.icp with held := true }
       h.held = true ∧ h.dead = false ∧ h.haltPend = false) := by
  decide +kernel

theorem test_DebugPortCommandsTakeEffect :
    let s := { cfgd with icp := { cfgd.icp with rights := 3 } }
    let pol := fun p : W32 => ({ policySet := true, policy := p } : Fuses)
    (s.drv.st ≠ .off ∧ bit s.icp.rights 0 = true ∧ s.icp.dbg = false ∧ s.icp.dead = false ∧ s.icp.held = false) ∧
      (dbgPol (pol 2) = 1 ∧ dbgPol (pol 4) = 2 ∧ dbgPol State.reset.boot.fuses = 0 ∧ keyOk State.reset.boot.fuses 3 = false) ∧
      (let g := { sby with boot := { sby.boot with fuses := pol 4 } }
       grants g 1 0 [] [] = true) ∧ grants sby 1 3 [] [] = false ∧
      ({ s.icp with dbg := true } : Pair).dbg = true ∧
      (bit (3 : BitVec 2) 1 = true ∧ sby.drv.st = .standby ∧ sby.prn.scan = false ∧ sby.icp.dead = false ∧ scanPol sby = false) := by
  decide +kernel

theorem test_SelfTestCommandsTakeEffect :
    let open_ := { cfgd with prn := { cfgd.prn with slices := [(1, 0)] } }
    let turn := { cfgd with thk := { cfgd.thk with blocks := cfgd.thk.blocks.upd 0 fun x => { x with switching := some 3 } } }
    let x := turn.thk.blocks.at 0
    (sliceOk cfgd 0 0 = true ∧ open_.prn.slices.contains (1, 0) = true ∧ serving open_ = true ∧ kindActive open_ 1 = true ∧
        0 < kindUnits.getD 1 0 ∧ dueOver open_ 1 0 = false ∧
        dueOver { open_ with clk := { open_.clk with tb := 4000000 * 100 + 1 } } 1 0 = true) ∧
      (x.switching = some 3 ∧ x.noSpare = false ∧ x.stopped = false ∧ x.mapped 3 = true ∧ (turn.thk.blocks.at 1).switching ≠ some 3 ∧
        ∀ c < 160, (ctxAt turn c).act = none) ∧
      ([(.diaSelftestQuery (rq 8 [0]), sby, stOk), (.diaSelftestStatusClr (rq 8 [2, 7, 0, 0, 12]), sby, stOk),
        (.diaSelftestStatusClr (rq 8 [2, 8]), sby, stRange), (.diaSelftestStatusClr (rq 8 [2, 1]), inMode .coppice, stBusy),
        (.diaSelftestRun (rq 8 [1, 2]) 0 0 0, inMode .coppice, stBusy), (.diaSelftestRun (rq 8 [1, 2]) 0 0 0, cfgd, stOk),
        (.diaSelftestRun (rq 8 [1, 2]) 1 0 0, cfgd, stFailed), (.diaSelftestRun (rq 8 [1, 2]) 2 0 0, cfgd, stFailed),
        (.diaSelftestRun (rq 8 [1, 0x48]) 0 0xFFFF 0xFF, cfgd, stOk)] : List (Instr × State × W16)).all ends = true := by
  decide +kernel

def rowsQry : List (Instr × State × W16) :=
  let cop := inMode .coppice
  [(.qryState (rq 0 []), sby, stOk), (.qryState (rq 1 []), sby, stRange), (.qryStatus (rq 0 []), sby, stOk), (.qryStatus (rq 1 []), sby, stRange),
   (.qryConfig (rq 5 [0]), sby, stOk), (.qryConfig (rq 5 [255]), sby, stRange), (.qryConfig (rq 5 [1]), cop, stOk),
   (.qryConfig (rq 5 [2]), cop, stBusy), (.qryConfig (rq 4 [0]), sby, stRange), (.qryTelemetry (rq 1 [0x10]), sby, stOk),
   (.qryTelemetry (rq 1 [0xD0]), sby, stOk), (.qryTelemetry (rq 3 [0xB3, 127, 1]), sby, stOk), (.qryCapacity (rq 0 []), sby, stOk),
   (.qryFaultLog (rq 8 [2, 64, 0, 0, 255, 255, 255, 255]), sby, stOk)]

theorem test_QueriesAnswerTheirResults :
    let ask := rq 24 ([1, 0x30] ++ zs 22)
    rowsQry.all ends = true ∧
      (applies 0x3006 ask sby ∧ formOk ask 24 = true ∧ (opRow (fieldAt ask 8 2)).isSome = true ∧ fieldAt ask 10 2 ≤ maxLen (fieldAt ask 8 2) ∧
        zeroAt ask 12 4 = true) ∧
      (applies 0x3008 (rq 40 [0]) sby ∧ opForm (rq 40 [0]) 40 0 = true ∧ zeroAt (rq 40 [0]) 9 7 = true ∧ opForm (rq 40 [1]) 40 1 = true ∧
        zeroAt (rq 40 [1]) 9 39 = true) := by
  decide +kernel

theorem test_DiagnosticCommandsTakeEffect :
    let cap := { cfgd with trc := { cfgd.trc with cap := { samples := [[1], [2]] } } }
    let arm := rq 48 [0, 1]
    ([(.diaTraceArm arm, cfgd, stOk), (.diaTraceArm (rq 20 [0, 9]), cfgd, stRange), (.diaTraceArm arm, sby, stBusy),
      (.diaTraceStop (rq 1 [1]), cfgd, stOk), (.diaTraceStop (rq 2 [1]), cfgd, stRange), (.diaTraceRead (rq 16 [2, 0, 0, 0, 0, 0, 0, 0, 1, 0, 0, 0, 1]), cap, stOk),
      (.diaTraceStatus (rq 1 [131]), cfgd, stOk), (.diaInject (rq 8 [0]) 5, cfgd, stRange), (.diaInject (rq 8 [1]) 5, split .configured, stBusy),
      (.diaInject (rq 8 [1]) 5, cfgd, stOk), (.diaAgeingQuery (rq 8 [0]), sby, stOk), (.diaAgeingReplan (rq 8 [1]), sby, stOk),
      (.diaAgeingReplan (rq 8 [1]), rung, stBusy), (.diaAgeingHistory (rq 8 [2, 9]), sby, stOk), (.diaAgeingStatusClr (rq 8 [3, 255, 3]), sby, stOk),
      (.diaAgeingStatusClr (rq 8 [3, 0, 4]), sby, stRange)] : List (Instr × State × W16)).all ends = true ∧
      (injectOk (rq 8 [7]) = true ∧ fieldAt (rq 8 [7]) 8 1 = 7) := by
  decide +kernel

/-- State `m` with a class 0 context of region 0 that writes compares, triggered from the network clock, its activation `a`. -/
def actOn (m : Mode) (a : Option Activation) (f : Ctx → Ctx) : State :=
  let s := placedAt m [{ img1 with ctrl := 0xC0300000 }]
  { s with thk := { s.thk with ctxs := s.thk.ctxs.upd 0 fun x => f { x with act := a } } }

def cell0 : CellSel := { ctx := 0, block := 0, lcell := 0 }

/-- An activation that executes slot 0 of logical cell 0 of block 0 next. -/
def act0 : Activation := { pos := [((0, 0), 0)] }

/-- The same with the word `w` in that slot. -/
def slotAt (m : Mode) (w : W64) : State := updBlock (actOn m (some act0) id) 0 fun x => { x with op := memSet x.op 0 w }

/-- The word of that slot runs on physical cell 0 of block 0. -/
theorem slotAt_runs (w : W64) : slotRuns (wordOp w) cell0 w (slotAt .running w) = some (0, 0, act0) := by
  have k : keptOff (slotAt .running w) cell0.ctx.val (0, 0) act0 = false := by
    show keptOff (actOn .running (some act0) id) 0 (0, 0) act0 = false; decide +kernel
  have c : ctxAt (slotAt .running w) cell0.ctx.val = ctxAt (actOn .running (some act0) id) 0 := rfl
  have b : (slotAt .running w).thk.blocks.at 0 = { (actOn .running (some act0) id).thk.blocks.at 0 with op := memSet [] 0 w } := rfl
  have a : (ctxAt (actOn .running (some act0) id) 0).act = some act0 := by decide +kernel
  have g : (ctxAt (actOn .running (some act0) id) 0).region = 0 := by decide +kernel
  have p : isPreempted (slotAt .running w) cell0.ctx.val (0, 0) = false := by
    show isPreempted (actOn .running (some act0) id) 0 (0, 0) = false; decide +kernel
  have o : memGet (memSet ([] : Mem 64) 0 w) 0 = w := memGet_memSet_same [] 0 w (by simp [Memory.wf])
  simp only [slotRuns, c, a, g]
  simp [act0, cell0]
  refine ⟨⟨⟨⟨⟨by rw [b]; exact o, ?_⟩, ?_⟩, p⟩, k⟩, ?_⟩ <;> rw [b]
  · show ((actOn .running (some act0) id).thk.blocks.at 0).mapped 0 = true; decide +kernel
  · show bit ((actOn .running (some act0) id).thk.blocks.at 0).map (48 + ((actOn .running (some act0) id).thk.blocks.at 0).phys 0) = true
    decide +kernel
  · show ((actOn .running (some act0) id).thk.blocks.at 0).phys 0 = 0; decide +kernel

/-- The word of an operation and nothing more, and the same under COND = 1, which is not met while P is 0. -/
def opOnly (op : Nat) : W64 := BitVec.ofNat 64 (op * 2 ^ 58)
def opIfP (op : Nat) : W64 := BitVec.ofNat 64 (op * 2 ^ 58 + 2 ^ 18)

/-- Every operation of R119. -/
def allOps : List Nat :=
  [0x00, 0x01, 0x02, 0x04, 0x05, 0x06, 0x07, 0x08, 0x0A, 0x0B, 0x0C, 0x0D, 0x0E, 0x0F, 0x10, 0x11, 0x12, 0x14, 0x15, 0x16, 0x17, 0x18,
   0x19, 0x1A, 0x1C, 0x1D, 0x1E, 0x1F, 0x20, 0x24, 0x25, 0x26, 0x28, 0x29, 0x2C, 0x2D, 0x2E]

/-- Every operation of R119 runs on physical cell 0 of block 0 (`slotAt_runs`), which stands as after reset, under a condition that is met
and under one that is not: `slotOn op cell0 w (slotAt .running w) 0 0 {}`. -/
theorem test_CellArithmeticGivesItsResults :
    (∀ op ∈ allOps, wordOp (opOnly op) = op ∧ condMet (opOnly op) ({} : Cell) = true) ∧
      (∀ op ∈ allOps, wordOp (opIfP op) = op ∧ condMet (opIfP op) ({} : Cell) = false) ∧
      ((slotAt .running 0).thk.blocks.at 0).cells.at 0 = {} ∧
      -- operand B from the word itself, and a link that holds no word
      operandB (slotAt .running 0) 0 0 (2#64 <<< 40 ||| 5) {} = some (5, {}) ∧
      (let w := opOnly 0x05 ||| 3#64 <<< 40
       wordOp w = 0x05 ∧ operandB (slotAt .running w) 0 0 w {} = none) := by
  decide +kernel

theorem test_CellMemoryAndOutputOperationsTakeEffect :
    let s := slotAt .running 0
    -- the slots run, as the test before shows; a table within its partition; links with room, without, with a word, without
    (fld (opOnly 0x20) 33 25 + (srcA (opOnly 0x20) {} + 131072).toNat / 2 ^ (18 - fld (opOnly 0x20) 24 20) + 1 < 512) ∧
      ((s.thk.blocks.at 0).mapped (linkTarget 0 0 0).2.1 = true ∧ (linkTarget 0 0 0).1 = 0 ∧ ({} : Cell).qPrev.length < 2 ∧
        2 ≤ ({ qPair := [1, 2] } : Cell).qPair.length) ∧
      (({ qPrev := [7] } : Cell).queue 0 = 7 :: [] ∧ ({} : Cell).queue 3 = []) ∧
      pwmWrites s 0 = true ∧ pwmWrites (slotAt .configured 0) 0 = false ∧ Memory.wf (bankOf s.thk 0 true) ∧ ((0x400 : Nat) ≠ 0x401) := by
  decide +kernel

theorem test_CompareWritesActOnlyWhereR124Allows :
    let s := slotAt .running (opOnly 0x2C)
    (s.drv.st = .running ∧ (ctxAt s 0).outPwm = true ∧ (ctxAt s 0).act = some act0 ∧ act0.suppressed = false ∧
        condMet (opOnly 0x2C) ({} : Cell) = true) ∧
      wordOp (opOnly 0x2C) = 0x2C ∧ wordOp (opOnly 0x2D) = 0x2D ∧
      (slotAt .configured 0).drv.st ≠ .running ∧ (ctxAt (actOn .running none id) 0).act = none ∧
      (ctxAt (actOn .running (some { suppressed := true }) id) 0).act = some { suppressed := true } := by
  decide +kernel

theorem test_ContextEventsTakeEffect :
    let s := actOn .running none id
    let idle := actOn .configured none id
    let d := actOn .running (some {}) fun x => { x with ctrl := x.ctrl ||| 1 }
    let e : Activation := { pos := [((0, 0), 0)], started := [(0, 0)], pp := [(0, 0)] }
    let two := placedAt .running [{ img1 with ctrl := 0xC0300000 }, { img1 with num := 9, ctrl := 0xC0300000 }]
    let both := { two with thk := { two.thk with
      ctxs := (two.thk.ctxs.upd 0 fun x => { x with act := some act0 }).upd 9 fun x => { x with act := some e } } }
    ((imgOf s 0).map CtxImg.num = some 0 ∧ ctxRuns s 0 = true ∧ fld (ctxAt s 0).ctrl 23 16 = 0x30 ∧ (ctxAt s 0).en = true ∧ (ctxAt s 0).lost = false ∧
        (ctxAt s 0).divCount = 0 ∧ fld (ctxAt s 0).ctrl 7 0 = 0 ∧ (ctxAt s 0).act = none) ∧
      ((imgOf idle 0).isSome = true ∧ (ctxAt idle 0).en = true ∧ (ctxAt idle 0).lost = false ∧ ctxRuns idle 0 = false) ∧
      ((ctxAt d 0).divCount < fld (ctxAt d 0).ctrl 7 0) ∧ (ctxAt (actOn .running (some {}) id) 0).act.isSome = true ∧
      (actDone s 0 {} = true ∧ actDone s 0 e = false ∧ dependents s 0 = [] ∧ ({ suppressed := true } : Activation).suppressed = true) ∧
      ((ctxAt (actOn .running (some {}) fun x => { x with overran := true }) 0).overran = true) ∧
      ((ctxAt both 0).act = some act0 ∧ (ctxAt both 9).act = some e ∧ (ctxAt both 0).region = (ctxAt both 9).region ∧ outranks both 0 9 = true ∧
        (act0.pos.lookup (0, 0)).isSome = true ∧ act0.ended.contains (0, 0) = false ∧ act0.started.contains (0, 0) = false ∧
        (e.pos.lookup (0, 0)).isSome = true ∧ e.started.contains (0, 0) = true ∧ e.ended.contains (0, 0) = false ∧
        e.pp.contains (0, 0) = true ∧ both.thk.preempted = []) := by
  decide +kernel

theorem test_ThicketErrorsTakeEffect :
    let x : Block := rung.thk.blocks.at 0
    let worn := { x with map := setBit x.map 47 true }
    (x.inSvc 0 = true ∧ x.serves 0 = some 0 ∧ x.noSpare = false) ∧ (x.serves 15 = none ∧ x.inSvc 15 = true) ∧
      ({ x with map := setFld x.map 63 48 0 } : Block).inSvc 0 = false ∧ x.coefReloaded.contains 8191 = false ∧
      ({ x with coefReloaded := [8191] } : Block).coefReloaded.contains 8191 = true ∧ ({ x with opReloaded := [4095] } : Block).opReloaded.contains 4095 = true ∧
      usersOf rung 0 0 = [] ∧ (worn.noSpare = true ∧ worn.inSvc 0 = true ∧ worn.serves 0 = some 0) ∧ [(0 : Fin 160)].any (fun c => (ctxAt (actOn .running none id) c).outPwm) = true := by
  decide +kernel

theorem test_CompletionEntryIsWritten :
    (sby.io.q 8).isSub = true ∧ (sby.io.q 9).isCpl = true ∧ (sby.io.q 8).pairRing = 9 ∧ (zs 40).length ≤ 40 ∧ 1 ≤ sby.io.freeSlots 9 ∧
      Memory.wf sby.io.qsram := by
  decide +kernel

theorem test_EveryStepKeepsTheMemoryForm : memoriesWf State.reset ∧ ∃ t, step State.reset = .next t := by
  refine ⟨?_, _, rfl⟩
  unfold memoriesWf; decide +kernel

theorem test_OnlyFuseCommandsChangeTheFuses : jobOpcode (.qryState (rq 0 [])) = some (0x3001, rq 0 []) ∧ jobOpcode .portRst = none := by decide

theorem test_StateChangesFollowTheTable : ∃ t, exec (.ctlDisarm (rq 0 [])) (inMode .armed) = .next t ∧ t.drv.st = .configured :=
  ⟨_, rfl, by decide +kernel⟩

theorem test_InputPairDemandsFromTheFirstChannel :
    let s := safe .running id
    pairFn s 0 ≠ 0 ∧ blkUp s = true ∧ (s.saf.pairs.at 0).demA = true ∧ (0 : Fin 4) ≠ 1 := by decide +kernel

theorem test_MissedAllocationsAreCounted :
    let s := crdOn fun x => { x with gap := 15 }
    let a : AllocSec := { node := 0, cycle := 0, epoch := 1, u := 0, d := 0, incl := 0 }
    let h := crdOn fun x => { x with allocs := [a] }
    (crdRuns s = true ∧ crdMember s = true ∧ (∀ b ∈ s.crd.allocs, b.cycle ≠ s.crd.cycle) ∧ s.crd.gap ≠ 7) ∧
      (crdRuns h = true ∧ crdMember h = true ∧ a ∈ h.crd.allocs ∧ a.cycle = h.crd.cycle ∧ h.crd.applied = none) := by
  decide +kernel

theorem test_CheckUnitMismatchIsRecordedOnce :
    let u : Chk := { cfg := 1#64 <<< 31, exp := 1 }
    let m : Chk := { stat := 2 }
    (bit u.cfg 31 = true ∧ u.value ≠ u.exp) ∧ bit ({} : Chk).cfg 31 = false ∧ bit (sby.chk.at 7).stat 1 = false ∧ bit m.stat 1 = true := by
  decide +kernel

/-! ### Single steps against values worked out by hand from the spec or published for its algorithms -/

/-- The published check value of CRC-16/CCITT-FALSE, which R43 describes: the digits 1 to 9 give 0x29B1. -/
theorem test_crc16_check_value : crc16 (frameBytes 0x31 0x323334 []) = crc16 [0x31, 0x32, 0x33, 0x34] ∧
    crc16 [0x31, 0x32, 0x33, 0x34, 0x35, 0x36, 0x37, 0x38, 0x39] = 0x29B1 := by decide +kernel

/-- The published check value of CRC-32, which R640's default record describes: 0xCBF43926. -/
theorem test_crc32_check_value : crc32 [0x31, 0x32, 0x33, 0x34, 0x35, 0x36, 0x37, 0x38, 0x39] = 0xCBF43926 := by decide +kernel

/-- SHA-512 of the three bytes abc begins ddaf35a193617aba (FIPS 180-4). -/
theorem test_sha512_abc : (sha512 [0x61, 0x62, 0x63]).take 8 = [0xDD, 0xAF, 0x35, 0xA1, 0x93, 0x61, 0x7A, 0xBA] := by decide +kernel

/-- The word of an operation on RA = 1 and RB = 2 into RD = 3. -/
def slotWord (op : Nat) : W64 := BitVec.ofNat 64 (op * 2 ^ 58 + 3 * 2 ^ 52 + 1 * 2 ^ 47 + 2 * 2 ^ 42)

/-- X[3] and ACC of cell 0 after an operation with X[1] = `a` and X[2] = `b`, in CONFIGURED. -/
def after (i : CellSel → W64 → Instr) (op : Nat) (a b : W18) : W18 × BitVec 48 :=
  let s := updCell (slotAt .configured (slotWord op)) 0 0 fun x => { x with x := (x.x.put 1 a).put 2 b }
  match exec (i cell0 (slotWord op)) s with
  | .next t => (((t.thk.blocks.at 0).cells.at 0).x.at 3, ((t.thk.blocks.at 0).cells.at 0).acc)
  | _ => default

/-- Half plus three quarters saturates at 131,071 / 131,072 (R116). -/
theorem test_add_saturates : (after .opAdd 0x0A 0x10000 0x18000).1 = 0x1FFFF := by decide +kernel

/-- The negative of -1 saturates (R116). -/
theorem test_neg_saturates : (after .opNeg 0x0C 0x20000 0).1 = 0x1FFFF := by decide +kernel

/-- A quarter less a half is minus a quarter. -/
theorem test_sub : (after .opSub 0x0B 0x08000 0x10000).1 = 0x38000 := by decide +kernel

/-- -1 times -1 is 2^34 in units of 2^-34 in the accumulator (R114). -/
theorem test_mul_minus_one : (after .opMul 0x05 0x20000 0x20000).2 = 0x400000000 := by decide +kernel

/-- A quarter divided by minus a half is minus a half (R119). -/
theorem test_div : (after .opDiv 0x1E 0x08000 0x30000).1 = 0x30000 := by decide +kernel

/-- A clamp of three quarters to the magnitude of minus a half gives a half (R119). -/
theorem test_lim : (after .opLim 0x10 0x18000 0x30000).1 = 0x10000 := by decide +kernel

/-- The reset input below 200 ns does nothing; at 1,000 ns it resets the module (R673). -/
theorem test_reset_input : exec (.resetInput 199) sby = .next sby ∧ (match exec (.resetInput 1000) sby with | .next t => t.drv.st | _ => .fault) = .off :=
  ⟨rfl, by decide +kernel⟩

/-- HP_ERR clears the bits that are written 1 (R45). -/
theorem test_hp_err_clears : (match exec (.directRegisterWrite 0x10000C 5) { sby with io := { sby.io with hpErr := 7 } } with
    | .next t => t.io.hpErr | _ => 0) = 2 := by decide +kernel

/-- A step of the queue runs its front and leaves the rest. -/
theorem test_step_leaves_the_rest : (match step { sby with pending := [.hpTimeNsRead, .portRst] } with | .next t => t.pending | _ => []) = [.portRst] := by
  decide +kernel

end Sys2Proof.Tests
end

section
/-! The direct writes of the host port and its doorbells, said once for each register (R8, R45, R46, R53, R74). -/

namespace Sys2Proof.Machine

/-- R8's TO rule of HOSTWD as a proposition: the value stays, or it is a non-zero one below the present or the first (R45). -/
theorem tighterDown_iff (old new : Nat) : tighterDown old new = true ↔ new = old ∨ (new ≠ 0 ∧ (old = 0 ∨ new < old)) := by
  simp [tighterDown, eq_comm (a := old) (b := new)]

section
variable (s : State) (w : W32)

/-- The registers that only read (R45). -/
theorem writeReg_readOnly {a : Nat} (h : a = 0x100000 ∨ a = 0x100004 ∨ a = 0x100020 ∨ a = 0x100024) : writeReg s a w = s := if_pos h

theorem writeReg_hpCtrl : writeReg s 0x100008 w = writeHpCtrl s w := rfl

theorem writeReg_hpErr : writeReg s 0x10000C w = { s with io := { s.io with hpErr := s.io.hpErr &&& ~~~(w &&& 0x3F) } } := rfl

theorem writeReg_irqStatLow :
    writeReg s 0x100010 w = { s with io := { s.io with irqStat := s.io.irqStat &&& ~~~(w.zeroExtend 64) } } := rfl

theorem writeReg_irqStatHigh :
    writeReg s 0x100014 w = { s with io := { s.io with irqStat := s.io.irqStat &&& ~~~(w.zeroExtend 64 <<< 32) } } := rfl

theorem writeReg_irqEnLow : writeReg s 0x100018 w = { s with io := { s.io with irqEn := setFld s.io.irqEn 31 0 w.toNat } } := rfl

theorem writeReg_irqEnHigh : writeReg s 0x10001C w = { s with io := { s.io with irqEn := setFld s.io.irqEn 63 32 w.toNat } } := rfl

/-! HP_CTRL: its three ends, by R8's two rules in the order in which they are checked. -/

/-- CRC_EN changes only where RWA fields do. -/
def crcMayChange : Prop := bit w 1 = bit s.io.hpCtrl 1 ∨ s.drv.st = .standby ∨ s.drv.st = .configured

theorem crcRefused_iff : (bit w 1 != s.io.crcEn && !(s.drv.st == .standby || s.drv.st == .configured)) = true ↔ ¬crcMayChange s w := by
  simp [crcMayChange, Io.crcEn]

variable {s w}

theorem writeHpCtrl_state (h : ¬crcMayChange s w) : writeHpCtrl s w = refuseDirect s stState := if_pos ((crcRefused_iff s w).2 h)

theorem writeHpCtrl_tighten (h : crcMayChange s w) (t : tighterDown s.io.hostWd (fld w 31 16) = false) :
    writeHpCtrl s w = refuseDirect s stTighten := by
  simp only [writeHpCtrl, crcRefused_iff, h, t]; rfl

theorem writeHpCtrl_taken (h : crcMayChange s w) (t : tighterDown s.io.hostWd (fld w 31 16) = true) :
    writeHpCtrl s w = { s with io := { s.io with
      hpCtrl := w &&& 0xFFFF0002, readData := if bit w 0 then [] else s.io.readData, readCrcs := if bit w 0 then [] else s.io.readCrcs } } := by
  simp only [writeHpCtrl, crcRefused_iff, h, t]
  cases bit w 0 <;> rfl

/-! Doorbells (R46, R53). -/

theorem doorbell_moves {n : Nat} (o : hostOwns s.io n = true) (p : ptrOk (s.io.q n) (fld w 7 0) = true) :
    doorbell s n w = { s with io := s.io.updQ n fun q =>
      { q with hostPtr := fld w 7 0, timed := if q.isCpl && q.hostPtr != fld w 7 0 then false else q.timed } } := by
  simp [doorbell, o, p]

theorem doorbell_refused {n : Nat} (h : hostOwns s.io n = false ∨ ptrOk (s.io.q n) (fld w 7 0) = false) :
    doorbell s n w = { s with io := s.io.err 2 } := by
  simp only [doorbell]; rcases h with h | h <;> simp [h]

/-- An error of the port and the end of a silent spell do not look at each other (R47, R73). -/
theorem Io.err_silent_comm (io : Io) (i : Nat) (b : Bool) : ({ io with silent := b } : Io).err i = { io.err i with silent := b } := by
  unfold Io.err; dsimp only; split <;> rfl

/-! What the port runs while it is up (R77). -/

theorem exec_portRst (h : portUp s = true) : exec .portRst s = .next (portReset s) := by
  show execPortRst s = _
  simp [execPortRst, h]

/-- A direct write is what `writeReg` makes of it, and ends a silent spell (R45, R47). -/
theorem exec_directRegisterWrite (h : portUp s = true) {a : BitVec 24} {t : State} (al : a.toNat % 4 = 0) (reg : 0x100000 ≤ a.toNat)
    (e : writeReg (hostAlive s) a.toNat w = t) : exec (.directRegisterWrite a w) s = .next t := by
  show execDirectRegisterWrite a w s = _
  simp [execDirectRegisterWrite, h, al, Nat.not_lt.2 reg, e]

theorem exec_doorbellWrite (h : portUp s = true) (n : Fin 64) : exec (.doorbellWrite n w) s = .next (doorbell (hostAlive s) n w) := by
  show execDoorbellWrite n w s = _
  simp [execDoorbellWrite, h]

/-- A doorbell that is taken moves HOST_PTR of its ring and changes no other ring (R46, R53). -/
theorem exec_doorbellWrite_moves (h : portUp s = true) {n : Fin 64} (o : hostOwns s.io n = true)
    (p : ptrOk (s.io.q n) (fld w 7 0) = true) :
    ∃ t, exec (.doorbellWrite n w) s = .next t ∧ t = { s with io := { s.io with silent := false, queues := t.io.queues } } ∧
      (t.io.q n).hostPtr = fld w 7 0 ∧ (t.io.q n).icsisPtr = (s.io.q n).icsisPtr ∧ ∀ m, m ≠ n.val → t.io.q m = s.io.q m := by
  refine ⟨_, (exec_doorbellWrite h n).trans (congrArg _ (doorbell_moves (s := hostAlive s) o p)), rfl, ?_, ?_, fun m hm => ?_⟩
  · simp [Io.updQ_q_same _ _ n.isLt]
  · simp only [Io.updQ_q_same _ _ n.isLt]; rfl
  · exact Io.updQ_q_ne _ _ hm

theorem exec_doorbellWrite_refused (h : portUp s = true) {n : Fin 64}
    (r : hostOwns s.io n = false ∨ ptrOk (s.io.q n) (fld w 7 0) = false) :
    exec (.doorbellWrite n w) s = .next { s with io := { s.io.err 2 with silent := false } } := by
  rw [exec_doorbellWrite h, doorbell_refused (s := hostAlive s) r]
  simp only [hostAlive, Io.err_silent_comm]

end

/-- Settles O5: each register by its own law of `writeReg`, HP_CTRL and the doorbells by the laws of their ends. The order in which a
write of HP_CTRL is refused is the model's (log entries 8 and 53). -/
theorem directWritesAndDoorbells : Obligations.DirectWritesAndDoorbells := by
  intro w s up
  have reg {a : BitVec 24} {t : State} (al : a.toNat % 4 = 0) (hr : 0x100000 ≤ a.toNat) (e : writeReg (hostAlive s) a.toNat w = t) :
      exec (.directRegisterWrite a w) s = .next t := exec_directRegisterWrite up al hr e
  have ctrl {t : State} (e : writeHpCtrl (hostAlive s) w = t) : exec (.directRegisterWrite 0x100008 w) s = .next t :=
    reg rfl (by decide) ((writeReg_hpCtrl _ _).trans e)
  refine ⟨exec_portRst up, fun a ha => ?readOnly, reg rfl (by decide) (writeReg_hpErr _ _), reg rfl (by decide) (writeReg_irqStatLow _ _),
    reg rfl (by decide) (writeReg_irqStatHigh _ _), reg rfl (by decide) (writeReg_irqEnLow _ _), reg rfl (by decide) (writeReg_irqEnHigh _ _),
    ⟨fun crc tight => ?taken, fun crc rwa => ?state, fun crc loose => ?tighten⟩,
    fun n => ⟨exec_doorbellWrite_moves up, exec_doorbellWrite_refused up⟩⟩
  case readOnly =>
    rcases ha with rfl | rfl | rfl | rfl <;> exact reg rfl (by decide) (writeReg_readOnly _ _ (by decide))
  case taken => exact ctrl (writeHpCtrl_taken (s := hostAlive s) crc ((tighterDown_iff _ _).2 tight))
  case state => exact ctrl (writeHpCtrl_state (s := hostAlive s) (not_or.2 ⟨crc, rwa⟩))
  case tighten =>
    exact ctrl (writeHpCtrl_tighten (s := hostAlive s) crc (Bool.eq_false_iff.2 (mt (tighterDown_iff _ _).1 loose)))

end Sys2Proof.Machine
end

section
/-! What the operations of contexts and images leave alone: words of region memories written with what their publication reaches, fault
records, and transitions of the module (R95, R135, R136, R635). -/

namespace Sys2Proof.Machine

/-! Bits of words after an update of one bit or field. -/

theorem bit_setBit {n : Nat} (w : BitVec n) (i j : Nat) (b : Bool) : bit (setBit w i b) j = if j = i ∧ i < n then b else bit w j := by
  have top : n ≤ j → w.getLsbD j = false := BitVec.getLsbD_of_ge w j
  cases b
  all_goals
    simp only [bit, setBit, if_true, if_false, Bool.false_eq_true, BitVec.getLsbD_or, BitVec.getLsbD_and, BitVec.getLsbD_not,
      BitVec.getLsbD_ofNat, Nat.one_shiftLeft, Nat.testBit_two_pow]
    grind

theorem bit_setFld_out {n : Nat} (w : BitVec n) {hi lo v j : Nat} (h : j < lo ∨ hi < j) : bit (setFld w hi lo v) j = bit w j := by
  have top : n ≤ j → w.getLsbD j = false := BitVec.getLsbD_of_ge w j
  simp only [bit, setFld, BitVec.getLsbD_or, BitVec.getLsbD_and, BitVec.getLsbD_not, BitVec.getLsbD_ofNat, Nat.testBit_shiftLeft,
    Nat.testBit_mod_two_pow, Nat.testBit_two_pow_sub_one]
  grind

theorem bit_incSat_out {n : Nat} (w : BitVec n) {hi lo j : Nat} (h : j < lo ∨ hi < j) : bit (incSat w hi lo) j = bit w j := by
  unfold incSat; split
  · rfl
  · exact bit_setFld_out w h

/-- From `s` to `t` nothing has changed but words of region memories and what goes out beside them: the check units, the PWM generator,
the protection block, fault records and the free values. -/
def wroteOut (s t : State) : Prop :=
  t = { s with thk := { s.thk with rmem := t.thk.rmem, rmemB := t.thk.rmemB }
               chk := t.chk, pwm := t.pwm, prt := t.prt, io := t.io, trc := t.trc, free := t.free }

section
variable {s t u : State}

theorem wroteOut.refl (s : State) : wroteOut s s := rfl

theorem wroteOut.trans (h : wroteOut s t) (k : wroteOut t u) : wroteOut s u := Eq.trans k (by rw [h])

theorem wroteOut.ite {c : Prop} [Decidable c] (ht : wroteOut s t) (hu : wroteOut s u) : wroteOut s (if c then t else u) := by
  split <;> assumption

theorem wroteOut.foldl {α : Type} {f : State → α → State} {l : List α} (h : wroteOut s t) (hf : ∀ u x, wroteOut u (f u x)) :
    wroteOut s (l.foldl f t) := by
  induction l generalizing t with
  | nil => exact h
  | cons x l ih => exact ih (h.trans (hf t x))

theorem wroteOut.thk (h : wroteOut s t) : t.thk = { s.thk with rmem := t.thk.rmem, rmemB := t.thk.rmemB } := congrArg State.thk h
theorem wroteOut.drv (h : wroteOut s t) : t.drv = s.drv := (congrArg State.drv h :)
theorem wroteOut.clk (h : wroteOut s t) : t.clk = s.clk := (congrArg State.clk h :)
theorem wroteOut.nv (h : wroteOut s t) : t.nv = s.nv := (congrArg State.nv h :)
theorem wroteOut.boot (h : wroteOut s t) : t.boot = s.boot := (congrArg State.boot h :)
theorem wroteOut.acq (h : wroteOut s t) : t.acq = s.acq := (congrArg State.acq h :)
theorem wroteOut.pending (h : wroteOut s t) : t.pending = s.pending := (congrArg State.pending h :)
theorem wroteOut.ctxAt (h : wroteOut s t) (c : Nat) : ctxAt t c = Machine.ctxAt s c :=
  (congrArg (fun k : Thicket => k.ctxs.at c) h.thk :)

/-- A fault record whose code is not marked (L) changes the log and the trace, and nothing else (R82). -/
theorem record_quiet (s : State) {code : W16} (unit : Nat) (data0 : W32) (h : latchCodes.contains code = false) :
    record s code unit data0 = { s with io := (record s code unit data0).io, trc := (record s code unit data0).trc } := by
  unfold record recordAt; simp only [h, Bool.false_and]; rfl

/-- Every fault record changes the log, the trace and the waiting events, and nothing else (R82, R95). -/
theorem record_frame (s : State) (code : W16) (unit : Nat) (data0 : W32) : record s code unit data0 =
    { s with io := (record s code unit data0).io, trc := (record s code unit data0).trc, drv := (record s code unit data0).drv } := by
  unfold record recordAt; dsimp only; split <;> rfl

theorem putBank_wroteOut (s : State) (g : Nat) (b : Bool) (a : Nat) (v : W18) : wroteOut s (putBank s g b a v) := by
  unfold putBank; split <;> rfl

theorem putState_wroteOut (s : State) (g a : Nat) (v : W18) : wroteOut s (putState s g a v) :=
  (putBank_wroteOut ..).trans (putBank_wroteOut ..)

theorem putWords_wroteOut (s : State) (g : Nat) (b : Bool) (l : List (Nat × W18)) : wroteOut s (putWords s g b l) := by
  unfold putWords; split <;> rfl

theorem putLaws_wroteOut (s : State) (i : CtxImg) (b : Bool) (rs : List LawRun) : wroteOut s (putLaws s i b rs) := putWords_wroteOut ..

theorem maintain_wroteOut (s : State) (i : CtxImg) : wroteOut s (maintain s i) := by
  refine (wroteOut.refl s).foldl fun u l => wroteOut.foldl ?_ fun v a => (wroteOut.refl v).ite (putState_wroteOut ..)
  split
  · exact putState_wroteOut ..
  · exact .refl u

theorem writeMaintained_wroteOut (s : State) : wroteOut s (writeMaintained s) := (wroteOut.refl s).foldl maintain_wroteOut

theorem maintainThr_wroteOut (thr : Nat) (s : State) (i : CtxImg) : wroteOut s (maintainThr thr s i) := by
  refine (wroteOut.refl s).foldl fun u l => ?_
  split
  · exact (putState_wroteOut ..).ite (.refl u)
  · exact .refl u

theorem writeThr_wroteOut (s : State) (thr : Nat) : wroteOut s (writeThr s thr) := (wroteOut.refl s).foldl (maintainThr_wroteOut thr)

/-- A check unit's record of a mismatch is no state event (R642). -/
theorem putChk_wroteOut (s : State) (k : Nat) (u : Chk) : wroteOut s (putChk s k u) := by
  have h : wroteOut s { s with chk := s.chk.put k u } := rfl
  refine wroteOut.ite (h.trans ?_) h
  unfold wroteOut
  rw [record_quiet _ _ _ (by decide)]

theorem snoop_wroteOut (s : State) (src : Nat) (items : List Item) (last : Bool) : wroteOut s (snoop s src items last) :=
  wroteOut.ite ((wroteOut.refl s).foldl fun _ _ => putChk_wroteOut ..) (.refl s)

theorem snoopConfig_wroteOut (s : State) : wroteOut s (snoopConfig s) := by
  refine wroteOut.ite ?_ (.refl s)
  have units : wroteOut s
      ((List.range 8).foldl (fun t k => putChk t k ((t.chk.at k).openJob fun i => Config.freeNat (s.free + 8 * k + i))) s) :=
    (wroteOut.refl s).foldl fun _ _ => putChk_wroteOut ..
  exact units.trans rfl

theorem putStream_wroteOut (s : State) (g slot : Nat) (v flag : W18) : wroteOut s (putStream s g slot v flag) := by
  unfold putStream
  refine wroteOut.trans ?_ (snoop_wroteOut ..)
  rfl

theorem deliver_wroteOut (s : State) (route slot : Nat) (v flag : W18) : wroteOut s (deliver s route slot v flag) :=
  (wroteOut.refl s).foldl fun u _ => (putStream_wroteOut ..).ite (.refl u)

theorem publishRegen_wroteOut (s : State) : wroteOut s (publishRegen s) := by
  unfold publishRegen
  refine wroteOut.trans ?_ (deliver_wroteOut ..)
  rfl

/-! The end of activations (R122, R123, R139). -/

theorem clearQueues_frame (s : State) (l : List (Nat × Nat × Nat)) :
    l.foldl clearQueue s = { s with thk := { s.thk with blocks := (l.foldl clearQueue s).thk.blocks } } := by
  induction l generalizing s with
  | nil => rfl
  | cons x l ih => exact (ih (clearQueue s x)).trans rfl

theorem dropActs_frame (s : State) (gone : List Nat) : dropActs s gone =
    { s with thk := { s.thk with blocks := (dropActs s gone).thk.blocks, ctxs := (dropActs s gone).thk.ctxs
                                 preempted := s.thk.preempted.filter fun p => !(gone.contains p.by_ || gone.contains p.ctx) } } := by
  unfold dropActs publishDeferred updThkCtxs; dsimp only
  rw [clearQueues_frame]

/-- A context after activations have ended: its own has gone where it is among them, and a set that waited may be published. -/
theorem dropActs_ctxAt (s : State) (gone : List Nat) {c : Nat} (h : c < 160) : ∃ pub wait, ctxAt (dropActs s gone) c =
    { ctxAt s c with act := if gone.contains c then none else (ctxAt s c).act, pubBank := pub, deferred := wait } := by
  unfold dropActs publishDeferred updThkCtxs ctxAt; dsimp only
  rw [clearQueues_frame, Vector.at_ofFn _ h, Vector.at_ofFn _ h]; dsimp only
  split <;> split <;> exact ⟨_, _, rfl⟩

/-! Transitions (R95, R104, R489). -/

theorem sealCp_frame (s : State) : sealCp s = { s with icp := (sealCp s).icp } := by unfold sealCp; split <;> rfl

theorem copyStartLog_frame (s : State) : copyStartLog s = { s with nv := (copyStartLog s).nv, aon := (copyStartLog s).aon } := by
  unfold copyStartLog; split <;> rfl

/-- What is copied to the start-failure area depends on flash, its supply and the always-on logic alone (R104). -/
theorem copyStartLog_nv_congr (hn : t.nv = s.nv) (ha : t.aon = s.aon) (hs : t.sup = s.sup) : (copyStartLog t).nv = (copyStartLog s).nv := by
  unfold copyStartLog flashOk; rw [hs, ha, hn]; split
  · exact hn
  · rfl

theorem enter_frame (s : State) (dst : Mode) (cause : W16) : enter s dst cause =
    { enterRaw s dst cause with
      icp := (enter s dst cause).icp, nv := (enter s dst cause).nv, aon := (enter s dst cause).aon } := by
  unfold enter; dsimp only; split
  · rw [copyStartLog_frame, sealCp_frame]
  · rw [sealCp_frame]

theorem preempt_frame (s : State) : preempt s = { s with io := (preempt s).io, icp := (preempt s).icp } := by
  unfold preempt
  generalize (s.io.jobs.filter fun j => !legal s.drv.st j.opcode.toNat) = l
  induction l generalizing s with
  | nil => rfl
  | cons j l ih => rw [List.foldl_cons, ih, complete_frame]

end
end Sys2Proof.Machine
end

section
/-! What the commands that change the state do (R69, R95, R96, R107), and CFG_DRIVE: the transition with its completion, the ends without
effect, and each command's own part. -/

namespace Sys2Proof.Machine

theorem enter_nv (s : State) (dst : Mode) (cause : W16) :
    (enter s dst cause).nv = if dst = .standby ∨ dst = .coppice then (copyStartLog s).nv else s.nv := by
  have sealed : sealCp (enterRaw s dst cause) = { enterRaw s dst cause with icp := (sealCp (enterRaw s dst cause)).icp } := sealCp_frame _
  unfold enter; dsimp only
  by_cases h : dst = .standby ∨ dst = .coppice
  · rw [if_pos h, if_pos (by simpa using h)]
    exact copyStartLog_nv_congr (by rw [sealed]; rfl) (by rw [sealed]; rfl) (by rw [sealed]; rfl)
  · rw [if_neg h, if_neg (by simpa using h), sealed]; rfl

/-- What a command that takes the module from `u` to `dst`, and completes, leaves in `t` beside the notes of R107. -/
structure Moved (u t : State) (dst : Mode) : Prop where
  committed : t.drv.committed = (u.drv.committed && dst != .standby)
  clk : t.clk = u.clk
  boot : t.boot = u.boot
  nv : t.nv = if dst = .standby ∨ dst = .coppice then (copyStartLog u).nv else u.nv
  acq : dst ≠ .standby → t.acq = u.acq
  gdv : dst ≠ .running → t.gdv = u.gdv
  dmd : dst = .running → t.dmd = u.dmd
  image : t.thk.active = u.thk.active ∧ t.thk.body = u.thk.body ∧ t.thk.activeBad = u.thk.activeBad
  preempted : u.thk.preempted = [] → t.thk.preempted = []
  idle : dst = .standby → ∀ c < 160, (ctxAt t c).act = none

/-- A transition to STANDBY stops every context (R147). -/
theorem stopped_standby (s : State) {c : Nat} (h : c < 160) : (stopped s .standby).contains c = true := by
  simp [stopped, h]

@[simp] theorem Ctx.transit_act (x : Ctx) (dst : Mode) : (x.transit dst).act = x.act := by unfold Ctx.transit; split <;> rfl

theorem enterRaw_act_standby (s : State) (cause : W16) {c : Nat} (h : c < 160) : (ctxAt (enterRaw s .standby cause) c).act = none := by
  obtain ⟨_, _, e⟩ := dropActs_ctxAt s (stopped s .standby) h
  have map : ctxAt (enterRaw s .standby cause) c = (ctxAt (dropActs s (stopped s .standby)) c).transit .standby := Vector.at_map _ _ h
  rw [map, Ctx.transit_act, e, stopped_standby s h]; rfl

theorem enter_moved (u : State) (dst : Mode) (cause : W16) : Moved u (enter u dst cause) dst := by
  have thk : (enter u dst cause).thk = (enterRaw u dst cause).thk := by rw [enter_frame]
  have drop : (enter u dst cause).thk = { (dropActs u (stopped u dst)).thk with ctxs := (enterRaw u dst cause).thk.ctxs } := thk
  rw [dropActs_frame] at drop
  refine { committed := by rw [enter_drv], nv := enter_nv .., clk := by rw [enter_frame]; rfl, boot := by rw [enter_frame]; rfl,
           image := by rw [drop]; exact ⟨rfl, rfl, rfl⟩, acq := ?acq, gdv := ?gdv, dmd := ?dmd, preempted := ?preempted, idle := ?idle }
  case acq => intro h; rw [enter_frame]; exact if_neg (by simpa using h)
  case gdv => intro h; rw [enter_frame]; exact if_neg (by simpa using h)
  case dmd => rintro rfl; rw [enter_frame]; rfl
  case preempted => intro e; rw [drop]; simp [e]
  case idle =>
    rintro rfl c h
    exact (congrArg (fun k : Thicket => (k.ctxs.at c).act) thk).trans (enterRaw_act_standby u cause h)

/-- A completion and the jobs that a transition makes illegal leave alone what `Moved` speaks of (R70). -/
theorem Moved.completed {u t : State} {dst : Mode} (h : Moved u t dst) (op : Nat) (r : Req) (st : W16) (result : List Byte) :
    Moved u (preempt (complete t op r st result)) dst := by
  rw [preempt_frame, complete_frame]; exact { h with }

/-- The state with the waiting events gone, in which a command that changes the state is applied (R96). -/
def quieted (s : State) : State := { s with drv := { s.drv with events := [] } }

/-- A command that changes the state, with no state event before it and behind checks that hold, enters its target (R69, R95, R107). -/
theorem runStateJob_moves_to {op : Nat} {r : Req} {s : State} {dst : Mode} {f : State → State} (h : applies op r s) (q : noEvent s)
    (ev : (f (quieted s)).drv.events = []) (st : (f (quieted s)).drv.st = s.drv.st) (ck : (f (quieted s)).clk = s.clk) :
    ∃ t, runStateJob op r s dst none f = t ∧ entered s t dst (BitVec.ofNat 16 op) ∧ Moved (f (quieted s)) t dst := by
  refine ⟨_, runStateJob_enters h q, ?_, (enter_moved _ dst _).completed ..⟩
  obtain ⟨est, eprev, ecause, etime, eev⟩ := enter_entered (f (quieted s)) dst (BitVec.ofNat 16 op) ev
  unfold entered
  rw [preempt_drv, complete_drv]
  exact ⟨est, eprev.trans st, ecause, etime.trans (congrArg Clock.stamp ck), eev⟩

theorem runStateJob_preempted {op : Nat} {r : Req} {s : State} {dst : Mode} {f : State → State} (h : applies op r s) (q : ¬noEvent s) :
    runStateJob op r s dst none f = complete (evaluate s) op r stPreempted [] := by
  obtain ⟨w, e⟩ := Option.ne_none_iff_exists'.1 q
  simp [runStateJob, stateJob, h.1, h.2.1, h.2.2, e]

/-- The ends of a command that changes the state without effect: a check that fails, and an event that comes first (R69, R96). -/
theorem runStateJob_ends {op : Nat} {r : Req} {s : State} {dst : Mode} {check : Option (W16 × List Byte)} {f : State → State}
    (h : applies op r s) {c : Instr} (e : exec c s = .next (runStateJob op r s dst check f)) :
    (∀ st res, check = some (st, res) → exec c s = .next (complete s op r st res)) ∧
      (check = none → ¬noEvent s → exec c s = .next (complete (evaluate s) op r stPreempted [])) := by
  refine ⟨?_, ?_⟩
  · rintro st res rfl; rw [e, runStateJob_refuse h]
  · rintro rfl q; rw [e, runStateJob_preempted h q]

/-- What CFG_COMMIT's application leaves (R158). -/
structure Committed (s t : State) (d : List Byte) (b : ImageBody) : Prop where
  st : t.drv.st = s.drv.st
  events : t.drv.events = s.drv.events
  committed : t.drv.committed = true
  clk : t.clk = s.clk
  nv : t.nv = s.nv
  boot : t.boot = s.boot
  acq : t.acq = s.acq
  active : t.thk.active = d
  body : t.thk.body = some b
  activeBad : t.thk.activeBad = false
  preempted : t.thk.preempted = []

theorem Committed.wroteOut {s t u : State} {d : List Byte} {b : ImageBody} (h : Committed s t d b) (w : wroteOut t u) :
    Committed s u d b where
  st := (congrArg Drive.st w.drv).trans h.st
  events := (congrArg Drive.events w.drv).trans h.events
  committed := (congrArg Drive.committed w.drv).trans h.committed
  clk := w.clk.trans h.clk
  nv := w.nv.trans h.nv
  boot := w.boot.trans h.boot
  acq := w.acq.trans h.acq
  active := by rw [w.thk]; exact h.active
  body := by rw [w.thk]; exact h.body
  activeBad := by rw [w.thk]; exact h.activeBad
  preempted := by rw [w.thk]; exact h.preempted

theorem applyCommit_committed (s : State) (d : List Byte) (b : ImageBody) : Committed s (applyCommit s d b) d b := by
  have published (t : State) : Machine.wroteOut t (if dmdRegions t == 0 then t else publishRegen t) :=
    (wroteOut.refl t).ite (publishRegen_wroteOut t)
  unfold applyCommit
  refine Committed.wroteOut ?_ (published _)
  refine Committed.wroteOut ?_ (((writeMaintained_wroteOut _).trans (writeThr_wroteOut ..)).trans (snoopConfig_wroteOut _))
  exact { st := rfl, events := rfl, committed := rfl, clk := rfl, nv := rfl, boot := rfl, acq := rfl,
          active := rfl, body := rfl, activeBad := rfl, preempted := rfl }

/-- A change of the laws' state changes Thicket only (R135). -/
theorem mapLaws_frame (s : State) (f : LawInst → LawRun → LawRun) : mapLaws s f = { s with thk := (mapLaws s f).thk } := by
  have one (s : State) (i : CtxImg) : mapCtxLaws f s i = { s with thk := (mapCtxLaws f s i).thk } := by
    unfold mapCtxLaws putLaws putWords; dsimp only; split <;> rfl
  unfold mapLaws
  generalize placed s = l
  induction l generalizing s with
  | nil => rfl
  | cons i l ih => rw [List.foldl_cons, ih, one]

/-! Each command where its job is applied. -/

section
variable {r : Req} {s : State}

/-- The checks of the payload of CFG_DRIVE (R18, R19). -/
def driveGood (s : State) (r : Req) : Bool :=
  formOk r 28 && (driveReq r).auxuse &&& 0xF8 == 0 && zeroAt r 11 1 && zeroAt r 18 2 && zeroAt r 30 6 &&
    decide (1 ≤ (driveReq r).stopT) && legsOk (driveReq r) && windowOk s (driveReq r)

/-- The ends of a job with one check of its operands and one more (R69). -/
theorem runJob_checks {op : Nat} (h : applies op r s) (good may : Bool) (st st' : W16) (k : Done) :
    (good = false → runJob op r s (guardSt good st (guardSt may st' k)) = complete s op r st []) ∧
    (good = true → may = false → runJob op r s (guardSt good st (guardSt may st' k)) = complete s op r st' []) ∧
    (good = true → may = true → runJob op r s (guardSt good st (guardSt may st' k)) = runJob op r s k) := by
  refine ⟨?_, ?_, ?_⟩
  · rintro rfl; exact runJob_refuse h
  · rintro rfl rfl; exact runJob_refuse h
  · rintro rfl rfl; rfl

theorem exec_cfgCommit_moves {b body : ImageBody} (h : applies 0x1050 r s) (q : noEvent s)
    (hb : body = if fieldAt r 8 1 = 1 then s.thk.body.getD b else b) (ck : commitCheck s r body = none) :
    ∃ t, exec (.cfgCommit r b) s = .next t ∧ entered s t .configured 0x1050 ∧
      Moved (applyCommit (quieted s) ((commitBytes s (fieldAt r 8 1)).getD []) body) t .configured := by
  have c := applyCommit_committed (quieted s) ((commitBytes s (fieldAt r 8 1)).getD []) body
  obtain ⟨t, e, ent, m⟩ := runStateJob_moves_to (dst := .configured)
    (f := fun s' => applyCommit s' ((commitBytes s' (fieldAt r 8 1)).getD []) body) h q c.events c.st c.clk
  exact ⟨t, by rw [← e, ← ck, hb]; rfl, ent, m⟩

/-- CFG_RELEASE behind its two checks (R80, R436). -/
theorem exec_cfgRelease (r : Req) (s : State) : exec (.cfgRelease r) s = .next (runStateJob 0x1051 r s .standby
    (if !formOk r 0 then some (stRange, []) else if s.prt.dis ≠ .idle then some (stBusy, []) else none) id) := by
  show execCfgRelease r s = _
  simp only [execCfgRelease, bne_iff_ne]

theorem exec_cfgRelease_moves (h : applies 0x1051 r s) (q : noEvent s) (fm : formOk r 0 = true) (dis : s.prt.dis = .idle) :
    ∃ t, exec (.cfgRelease r) s = .next t ∧ entered s t .standby 0x1051 ∧ Moved (quieted s) t .standby := by
  obtain ⟨t, e, m⟩ := runStateJob_moves_to (dst := .standby) (f := id) h q rfl rfl rfl
  exact ⟨t, by rw [← e, exec_cfgRelease]; simp [fm, dis], m⟩

theorem exec_ctlArm_moves (h : applies 0x2001 r s) (q : noEvent s) (ck : armCheck s r (s.prt.dis != .idle || s.icp.split) = none) :
    ∃ t, exec (.ctlArm r) s = .next t ∧ entered s t .armed 0x2001 ∧ Moved (quieted s) t .armed := by
  obtain ⟨t, e, m⟩ := runStateJob_moves_to (dst := .armed) (f := id) h q rfl rfl rfl
  exact ⟨t, by rw [← e, ← ck]; rfl, m⟩

theorem exec_ctlDisarm_moves (h : applies 0x2002 r s) (q : noEvent s) (fm : formOk r 0 = true) :
    ∃ t, exec (.ctlDisarm r) s = .next t ∧ entered s t .configured 0x2002 ∧ Moved (quieted s) t .configured := by
  obtain ⟨t, e, m⟩ := runStateJob_moves_to (dst := .configured) (f := id) h q rfl rfl rfl
  exact ⟨t, by rw [← e]; show execCtlDisarm r s = _; rw [execCtlDisarm, if_pos fm], m⟩

/-- CTL_RUN starts the catch of each machine, and changes Thicket beside it (R240). -/
theorem applyRun_frame (s : State) : applyRun s =
    { s with dmd := { s.dmd with catch_ := #v[startCatch s 0, startCatch s 1] }, thk := (applyRun s).thk } := mapLaws_frame ..

theorem exec_ctlRun_moves (h : applies 0x2003 r s) (q : noEvent s) (ck : armCheck s r false = none) :
    ∃ t, exec (.ctlRun r) s = .next t ∧ entered s t .running 0x2003 ∧ Moved (applyRun (quieted s)) t .running := by
  have run := applyRun_frame (quieted s)
  obtain ⟨t, e, m⟩ := runStateJob_moves_to (dst := .running) (f := applyRun) h q
    (by rw [run]; rfl) (by rw [run]; rfl) (by rw [run]; rfl)
  exact ⟨t, by rw [← e, ← ck]; rfl, m⟩

/-- What CTL_ARM and CTL_DISARM leave alone. -/
theorem Moved.frame {t : State} {dst : Mode} (m : Moved (quieted s) t dst) (h : dst = .armed ∨ dst = .configured) :
    t.drv.committed = s.drv.committed ∧ t.nv = s.nv ∧ t.boot = s.boot ∧ t.clk = s.clk ∧ t.gdv = s.gdv ∧ t.acq = s.acq := by
  rcases h with rfl | rfl <;>
    exact ⟨m.committed.trans (Bool.and_true _), m.nv, m.boot, m.clk, m.gdv (by decide), m.acq (by decide)⟩

end

/-- Settles O9: CFG_DRIVE by the order of its checks; each command that changes the state by `runStateJob_ends`, and where it takes
effect by what its own application and the transition leave. -/
theorem driveConfigurationAndStateCommandsTakeEffect : Obligations.DriveConfigurationAndStateCommandsTakeEffect := by
  refine ⟨fun r s h => ?drive, fun r b s => ⟨?ends, fun q => ⟨fun h ck => ?commit, fun h fm dis => ?release, fun h ck => ?arm,
    fun h fm => ?disarm, fun h ck => ?run⟩⟩⟩
  case drive =>
    let mayChange := s.drv.st == .standby || !changesImage s (driveReq r)
    have ends (body : Done) := runJob_checks h (driveGood s r) mayChange stRange stBusy body
    refine ⟨fun g k => congrArg _ ((ends _).1 g), fun g st ch k => congrArg _ ((ends _).2.1 g ?busy), fun g st => ?taken⟩
    case busy => simp [mayChange, st, ch]
    case taken =>
      have m : mayChange = true := by simpa [mayChange] using st
      exact ⟨congrArg _ (((ends _).2.2 g m).trans (runJob_done h)), congrArg _ (((ends _).2.2 g m).trans (runJob_done h))⟩
  case ends =>
    rintro c op check (⟨rfl, rfl, rfl⟩ | ⟨rfl, rfl, rfl⟩ | ⟨rfl, rfl, rfl⟩ | ⟨rfl, rfl, rfl⟩ | ⟨rfl, rfl, rfl⟩) h
    · exact runStateJob_ends h rfl
    · exact runStateJob_ends h (exec_cfgRelease r s)
    · exact runStateJob_ends h rfl
    · exact runStateJob_ends h rfl
    · exact runStateJob_ends h rfl
  case commit =>
    obtain ⟨t, e, ent, m⟩ := exec_cfgCommit_moves h q rfl ck
    have c := applyCommit_committed (quieted s) ((commitBytes s (fieldAt r 8 1)).getD [])
      (if fieldAt r 8 1 = 1 then s.thk.body.getD b else b)
    obtain ⟨active, body, bad⟩ := m.image
    exact ⟨t, e, ent, m.committed.trans (by rw [c.committed]; rfl), active.trans c.active, body.trans c.body, bad.trans c.activeBad,
      m.preempted c.preempted, m.nv.trans c.nv, m.boot.trans c.boot, m.clk.trans c.clk, (m.acq (by decide)).trans c.acq⟩
  case release =>
    obtain ⟨t, e, ent, m⟩ := exec_cfgRelease_moves h q fm dis
    exact ⟨t, e, ent, m.committed.trans (Bool.and_false _), m.image.1, m.idle rfl, m.nv.trans (copyStartLog_nv_congr rfl rfl rfl),
      m.boot, m.clk⟩
  case arm =>
    obtain ⟨t, e, ent, m⟩ := exec_ctlArm_moves h q ck
    exact ⟨t, e, ent, m.frame (.inl rfl)⟩
  case disarm =>
    obtain ⟨t, e, ent, m⟩ := exec_ctlDisarm_moves h q fm
    exact ⟨t, e, ent, m.frame (.inr rfl)⟩
  case run =>
    obtain ⟨t, e, ent, m⟩ := exec_ctlRun_moves h q ck
    rw [applyRun_frame] at m
    exact ⟨t, e, ent, m.dmd rfl, m.nv, m.boot, m.clk, m.acq (by decide)⟩

end Sys2Proof.Machine
end

section
/-! The safety channel's own events: comparators, latches, the watchdog, the acknowledgement line, the reference check and the torque
monitor (R37, R448, R449, R465 to R469, R471, R479). -/

namespace Sys2Proof.Machine

/-- From `s` to `t` Blackthorn has changed, with the fault records and the state events that come of it, and nothing else. -/
def safetyOnly (s t : State) : Prop := t = { s with saf := t.saf, drv := t.drv, io := t.io, trc := t.trc }

section
variable {s t u : State}

theorem safetyOnly.trans (h : safetyOnly s t) (k : safetyOnly t u) : safetyOnly s u := Eq.trans k (by rw [h])

theorem safetyOnly.ite {c : Prop} [Decidable c] (ht : safetyOnly s t) (hu : safetyOnly s u) : safetyOnly s (if c then t else u) := by
  split <;> assumption

theorem updSaf_safetyOnly (s : State) (f : Safety → Safety) : safetyOnly s (updSaf s f) := rfl

theorem blkStep_frame (s v : State) : blkStep s v = { v with drv := (blkStep s v).drv } := by
  unfold blkStep; split
  · split <;> rfl
  · rfl

theorem blkStep_safetyOnly (h : safetyOnly s t) (v : State) : safetyOnly s (blkStep v t) :=
  h.trans (by unfold safetyOnly; rw [blkStep_frame])

theorem recBlk_safetyOnly (h : safetyOnly s t) (unit : Nat) (code : W16) : safetyOnly s (recBlk t unit code) :=
  h.trans (by unfold safetyOnly recBlk; rw [record_frame])

@[simp] theorem blkStep_saf (s v : State) : (blkStep s v).saf = v.saf := by rw [blkStep_frame]
@[simp] theorem blkStep_io (s v : State) : (blkStep s v).io = v.io := by rw [blkStep_frame]
@[simp] theorem recBlk_saf (s : State) (unit : Nat) (code : W16) : (recBlk s unit code).saf = s.saf := record_saf ..
@[simp] theorem recBlk_lastFault (s : State) (unit : Nat) (code : W16) : (recBlk s unit code).io.lastFault = code := record_lastFault ..

/-- A change of Blackthorn, with the fall of a level that may come of it (R450). -/
theorem blkStep_updSaf (s : State) (f : Safety → Safety) :
    safetyOnly s (blkStep s (updSaf s f)) ∧ (blkStep s (updSaf s f)).saf = f s.saf ∧ (blkStep s (updSaf s f)).io = s.io :=
  ⟨blkStep_safetyOnly (updSaf_safetyOnly ..) _, blkStep_saf .., blkStep_io ..⟩

/-- A record of the safety channel that depends on a condition. -/
theorem recBlk_ite_saf (c : Prop) [Decidable c] (unit : Nat) (code : W16) : (if c then recBlk t unit code else t).saf = t.saf := by
  split
  · exact recBlk_saf ..
  · rfl

end

/-! The watchdog (R471). -/

/-- A wrong answer: ERRCNT rises by 2 up to 7, no question waits, and where ERRCNT reaches 6 first, 0x3041 is latched with its instant. -/
theorem qaWrong_eq (s : State) : ∃ u, safetyOnly s u ∧ u.saf = { s.saf with question := none, errcnt := min 7 (s.saf.errcnt + 2) } ∧
    qaWrong s = if 6 ≤ u.saf.errcnt && u.saf.qaLim.isNone then
      recBlk (updSaf u fun b => { b with qaLim := some s.clk.tb }) noUnit 0x3041 else u := by
  obtain ⟨only, saf, -⟩ := blkStep_updSaf s fun b => { b with question := none, errcnt := min 7 (b.errcnt + 2) }
  exact ⟨_, (recBlk_safetyOnly only ..).ite only, (recBlk_ite_saf ..).trans saf, rfl⟩

theorem qaWrong_safetyOnly (s : State) : safetyOnly s (qaWrong s) := by
  obtain ⟨u, only, -, e⟩ := qaWrong_eq s
  exact e ▸ (recBlk_safetyOnly (only.trans (updSaf_safetyOnly ..)) ..).ite only

theorem qaWrong_errcnt (s : State) : (qaWrong s).saf.errcnt = min 7 (s.saf.errcnt + 2) ∧ (qaWrong s).saf.question = none := by
  obtain ⟨u, -, saf, e⟩ := qaWrong_eq s
  rw [e]; split <;> simp [updSaf, saf]

theorem qaWrong_latches (s : State) (h : 4 ≤ s.saf.errcnt) (q : s.saf.qaLim = none) :
    (qaWrong s).saf.qaLim = some s.clk.tb ∧ (qaWrong s).io.lastFault = 0x3041 := by
  obtain ⟨u, -, saf, e⟩ := qaWrong_eq s
  have six : 6 ≤ min 7 (s.saf.errcnt + 2) := by omega
  rw [e, if_pos (by rw [saf]; simp [six, q])]
  exact ⟨congrArg Safety.qaLim (recBlk_saf ..), recBlk_lastFault ..⟩

/-- The answer to a question, right where its words are those of the table and it lies in the window. -/
theorem exec_qaAnswer {s : State} {q : Byte} (h : s.saf.question = some q) (ws : List W32) (k : Nat) :
    exec (.qaAnswer ws k) s = .next (if ws = Config.qaTable q ∧ 20000 ≤ k ∧ k ≤ 45000 then qaRight s else qaWrong s) := by
  show execQaAnswer ws k s = _
  simp only [execQaAnswer, h, Bool.and_eq_true, beq_iff_eq, decide_eq_true_eq, and_assoc]
  split <;> rfl

theorem exec_qaWindowExpiry {s : State} {q : Byte} (h : s.saf.question = some q) : exec .qaWindowExpiry s = .next (qaWrong s) := by
  show execQaWindowExpiry s = _
  simp [execQaWindowExpiry, h]

/-! Comparators (R449, R465). -/

/-- A comparator that is in use and powered: its cause, BKCT, and the record where the trip is new. -/
theorem exec_blackthornComparatorTrip (s : State) (n : Fin 8) (v : Nat) {out : Bool} (used : fld (sfWord s (11 + n)) 7 6 ≠ 0)
    (up : blkUp s = true) (ho : out = (decide (s.saf.blkLim.bhi.at n < v) || decide (v < s.saf.blkLim.blo.at n))) :
    ∃ u, safetyOnly s u ∧ u.saf = { s.saf with
        comps := s.saf.comps.upd n fun c => c.see out (runLine s), bkct := if out then setBit s.saf.bkct n true else s.saf.bkct } ∧
      exec (.blackthornComparatorTrip n v) s = .next (if out && !(s.saf.comps.at n).present then recBlk u n 0x3045 else u) := by
  obtain ⟨only, saf, -⟩ := blkStep_updSaf s fun b => { b with
    comps := b.comps.upd n fun c => c.see out (runLine s), bkct := if out then setBit b.bkct n true else b.bkct }
  refine ⟨_, only, saf, ?_⟩
  show execBlackthornComparatorTrip n v s = _
  simp [execBlackthornComparatorTrip, used, up, ho]

/-- A latch that is absent and was not seen while RUN was high clears by itself, any other stays (R449). -/
theorem Cause.selfClear_eq (c : Cause) :
    (c.present = false → c.latched = false → c.selfClear = { c with held := false }) ∧
    (c.present = true ∨ c.latched = true → c.selfClear = c) := by
  unfold Cause.selfClear
  refine ⟨fun p l => ?_, fun h => ?_⟩
  · simp [p, l]
  · rw [if_pos (by simpa using h)]

/-! The reference check (R37). -/

theorem exec_referenceClockWindow_good {s : State} {k : Nat} (up : blkUp s = true) (lo : 20 ≤ k) (hi : k ≤ 30) :
    exec (.referenceClockWindow k) s = .next { s with saf := { s.saf with refOut := false } } := by
  show execReferenceClockWindow k s = _
  simp [execReferenceClockWindow, up, Nat.not_lt.2 lo, Nat.not_lt.2 hi, updSaf]

/-- A window out of band latches Safe torque off; the record comes at once from STANDBY on and in COPPICE, and waits elsewhere. -/
theorem exec_referenceClockWindow_bad {s : State} {k : Nat} (up : blkUp s = true) (out : k < 20 ∨ 30 < k) (clkf : s.saf.clkf = false)
    {seen : Bool} (hs : seen = (fromStandbyOn s.drv.st || s.drv.st == .coppice)) :
    ∃ u, safetyOnly s u ∧ u.io = s.io ∧ u.saf = { s.saf with refOut := true, clkf := true, clkfAt := s.clk.tb, clkfPend := !seen } ∧
      exec (.referenceClockWindow k) s = .next (if seen then recBlk u noUnit 0x3042 else u) := by
  obtain ⟨only, saf, io⟩ := blkStep_updSaf s fun b => { b with refOut := true, clkf := true, clkfAt := s.clk.tb, clkfPend := !seen }
  refine ⟨_, only, io, saf, ?_⟩
  show execReferenceClockWindow k s = _
  have band : (decide (k < 20) || decide (30 < k)) = true := by simpa using out
  simp [execReferenceClockWindow, up, band, clkf, hs, updSaf]

/-! The torque monitor (R466 to R469). -/

@[simp] theorem nMis_updMach (s : State) (m : Nat) (f : BlkMach → BlkMach) : nMis (updMach s m f) = nMis s := rfl

theorem exec_torqueMonitorCheck {s : State} {m : Fin 2} (own : W18) (en : tmen s = true) (run : s.drv.st = .running)
    (use : inUse s m = true) :
    let n := if monitorFails s m (tMonOf s m own) then satInc 3 (s.saf.mach.at m).tmFail else 0
    let v := updMach s m fun x => { x with tMon := tMonOf s m own, tmFail := n }
    exec (.torqueMonitorCheck m own) s =
      .next (if nMis s ≤ n ∧ (s.saf.mach.at m).tmFail < nMis s then monitorStop (recBlk v m 0x3030) else v) := by
  intro n v
  show execTorqueMonitorCheck m own s = _
  rw [execTorqueMonitorCheck, if_neg (by simp [en, run, use])]
  by_cases c : nMis s ≤ n ∧ (s.saf.mach.at m).tmFail < nMis s
  · rw [if_pos c]; exact if_pos (by rw [nMis_updMach]; simpa using c)
  · rw [if_neg c]; exact if_neg (by rw [nMis_updMach]; simpa using c)

/-- Settles O27: each event by the law of what it makes of Blackthorn; a record changes Blackthorn no further, and is the last fault. The
causes and latches, and the torque monitor's constants and rounding, are the model's (log entries 44 and 73). -/
theorem watchdogAndMonitorEventsTakeEffect : Obligations.WatchdogAndMonitorEventsTakeEffect := by
  intro s
  refine ⟨fun n v used up => ?comparator, fun m => ⟨rfl, fun n => rfl, fun c => (c.selfClear_eq).1, fun c => (c.selfClear_eq).2⟩,
    fun m own en run use => ?monitor, fun st q => ?question, fun q h => ⟨fun k lo hi => ?right, ?wrong⟩,
    fun ms lo hi up latch => ?sack, fun k up => ⟨exec_referenceClockWindow_good up, fun out clkf => ?reference⟩⟩
  case comparator =>
    intro out
    obtain ⟨u, only, saf, e⟩ := exec_blackthornComparatorTrip s n v (out := out) used up rfl
    refine ⟨_, e, (recBlk_safetyOnly only ..).ite only, ?_, fun o => ⟨?_, fun p => ?_⟩⟩
    · rw [recBlk_ite_saf, saf]; exact Vector.at_upd_same _ _ n.isLt
    · rw [recBlk_ite_saf, saf, o]; simp [bit_setBit]
    · rw [o, p]; exact recBlk_lastFault ..
  case monitor =>
    exact ⟨fun im => if_pos im, exec_torqueMonitorCheck own en run use⟩
  case question =>
    show execQaQuestion q s = _
    rw [execQaQuestion, if_pos st]; rfl
  case right => exact ⟨_, (exec_qaAnswer h ..).trans (by rw [if_pos ⟨rfl, lo, hi⟩]), rfl, rfl, rfl⟩
  case wrong =>
    obtain ⟨errcnt, asked⟩ := qaWrong_errcnt s
    refine ⟨_, qaWrong_safetyOnly s, errcnt, asked, qaWrong_latches s, exec_qaWindowExpiry h, fun ws k bad => ?_⟩
    rw [exec_qaAnswer h, if_neg]
    rintro ⟨words, lo, hi⟩
    rcases bad with other | late
    · exact other words
    · omega
  case sack =>
    show execSackPulse ms s = _
    simp [execSackPulse, lo, hi, up, latch, updSaf]
  case reference =>
    obtain ⟨u, only, io, saf, e⟩ := exec_referenceClockWindow_bad up out clkf rfl
    refine ⟨_, e, (recBlk_safetyOnly only ..).ite only, ?_, ?_, fun seen => ?_, fun st co => ?_⟩
    · rw [recBlk_ite_saf, saf]
    · rw [recBlk_ite_saf, saf]
    · have sn : (fromStandbyOn s.drv.st || s.drv.st == .coppice) = true := Bool.or_eq_true_iff.2 (seen.imp_right beq_iff_eq.2)
      exact ⟨by rw [if_pos sn]; exact recBlk_lastFault .., by rw [recBlk_ite_saf, saf, sn]; rfl⟩
    · have sn : (fromStandbyOn s.drv.st || s.drv.st == .coppice) = false := Bool.or_eq_false_iff.2 ⟨st, beq_eq_false_iff_ne.2 co⟩
      exact ⟨by rw [recBlk_ite_saf, saf, sn]; rfl, by rw [if_neg (by simp [sn])]; exact io⟩

end Sys2Proof.Machine
end

section
/-! Contexts (R29, R30, R122, R139, R144 to R149, R154): what a release, a normal completion and a watchdog deadline do to their
context. -/

namespace Sys2Proof.Machine

variable {s t u : State}

theorem ctxAt_updCtx_same (s : State) {c : Nat} (f : Ctx → Ctx) (h : c < 160) : ctxAt (updCtx s c f) c = f (ctxAt s c) :=
  Vector.at_upd_same _ _ h

/-- What the operations that prepare a release of context `c`, or set laws for it, leave alone. -/
structure Readies (c : Nat) (s t : State) : Prop where
  pending : t.pending = s.pending
  clk : t.clk = s.clk
  nv : t.nv = s.nv
  divCount : (ctxAt t c).divCount = (ctxAt s c).divCount
  primed : (ctxAt s c).primed = true → (ctxAt t c).primed = true

namespace Readies
variable {c : Nat}

theorem refl (s : State) : Readies c s s := ⟨rfl, rfl, rfl, rfl, id⟩

theorem trans (h : Readies c s t) (k : Readies c t u) : Readies c s u :=
  ⟨k.pending.trans h.pending, k.clk.trans h.clk, k.nv.trans h.nv, k.divCount.trans h.divCount, fun p => k.primed (h.primed p)⟩

theorem ite {p : Prop} [Decidable p] (ht : Readies c s t) (hu : Readies c s u) : Readies c s (if p then t else u) := by
  split <;> assumption

theorem foldl {α : Type} {f : State → α → State} {l : List α} (h : Readies c s t) (hf : ∀ u x, Readies c u (f u x)) :
    Readies c s (l.foldl f t) := by
  induction l generalizing t with
  | nil => exact h
  | cons x l ih => exact ih (h.trans (hf t x))

theorem wroteOut (h : wroteOut s t) : Readies c s t :=
  ⟨h.pending, h.clk, h.nv, by rw [h.ctxAt], fun p => by rwa [h.ctxAt]⟩

/-- A change of contexts that leaves the divider's count and the initial values alone. -/
theorem updCtx (i : Nat) (f : Ctx → Ctx) (hd : ∀ x, (f x).divCount = x.divCount) (hp : ∀ x, x.primed = true → (f x).primed = true) :
    Readies c s (updCtx s i f) := by
  have at_c : ctxAt (Machine.updCtx s i f) c = if c = i ∧ i < 160 then f (ctxAt s i) else ctxAt s c := Vector.at_upd ..
  refine ⟨rfl, rfl, rfl, ?_, fun p => ?_⟩ <;> rw [at_c] <;> split
  next h => rw [hd, h.1]
  next => rfl
  next h => exact hp _ (h.1 ▸ p)
  next => exact p

end Readies

section
variable {c : Nat}

theorem mapLaws_readies (s : State) (f : LawInst → LawRun → LawRun) : Readies c s (mapLaws s f) :=
  (Readies.refl s).foldl fun u i =>
    (Readies.wroteOut (putLaws_wroteOut u i _ _)).trans (.updCtx _ _ (fun _ => rfl) fun _ => id)

theorem prime_readies (s : State) (i : CtxImg) : Readies c s (prime s i) := by
  unfold prime
  refine Readies.ite (.refl s) ?_
  refine Readies.trans ?_ (.wroteOut ((maintain_wroteOut ..).trans (maintainThr_wroteOut ..)))
  refine Readies.trans ?_ (.updCtx _ _ (fun _ => rfl) fun _ _ => rfl)
  refine Readies.trans ?_ (.wroteOut ((putLaws_wroteOut ..).trans (putLaws_wroteOut ..)))
  exact ⟨rfl, rfl, rfl, rfl, id⟩

/-- The first release since entry into RUNNING sets the state area to its initial values (R147). -/
theorem prime_primed (s : State) (i : CtxImg) (h : i.num < 160) : (ctxAt (prime s i) i.num).primed = true := by
  unfold prime; dsimp only
  split
  · assumption
  · rw [((maintain_wroteOut ..).trans (maintainThr_wroteOut ..)).ctxAt, ctxAt_updCtx_same _ _ h]

theorem mergeParams_readies (s : State) (n : Nat) : Readies c s (mergeParams s n) :=
  (Readies.wroteOut ((putWords_wroteOut ..).trans (putWords_wroteOut ..))).trans (.updCtx _ _ (fun _ => rfl) fun _ => id)

theorem markStale_readies (s : State) (i : CtxImg) (late : List Nat) : Readies c s (markStale s i late) := by
  refine Readies.ite (.refl s) (Readies.trans (.wroteOut ?_) (.updCtx _ _ (fun _ => rfl) fun _ => id))
  exact (wroteOut.refl s).foldl fun _ _ => putBank_wroteOut ..

theorem takeCurves_readies (s : State) : Readies c s (takeCurves s) := by
  unfold takeCurves
  refine Readies.trans ?_ (mapLaws_readies ..)
  exact ⟨rfl, rfl, rfl, rfl, id⟩

theorem endStopped_readies (s : State) (m : Nat) : Readies c s (endStopped s m) := by
  unfold endStopped
  refine Readies.ite ?_ (Readies.ite ?_ ?_)
  all_goals exact ⟨rfl, rfl, rfl, rfl, id⟩

theorem stopAfterCatch_readies (s : State) (i : CtxImg) : Readies c s (stopAfterCatch s i) := by
  unfold stopAfterCatch; split
  · exact (endStopped_readies ..).ite (.refl s)
  · exact .refl s

theorem catchSample_readies (s : State) (i : CtxImg) : Readies c s (catchSample s i) := by
  unfold catchSample; split
  · exact .refl s
  · refine Readies.ite ?_ (.refl s)
    exact ⟨rfl, rfl, rfl, rfl, id⟩

theorem speedStart_readies (s : State) (i : CtxImg) (a : Activation) : Readies c s (speedStart s i a) :=
  Readies.ite (.refl s) ((Readies.refl s).foldl fun u _ => (mapLaws_readies ..).ite (.refl u))

end

theorem dropAct_frame (s : State) (c : Nat) : dropAct s c = { s with thk := (dropAct s c).thk } := by
  unfold dropAct; rw [dropActs_frame]

theorem dropAct_drv (s : State) (c : Nat) : (dropAct s c).drv = s.drv := by rw [dropAct_frame]

theorem dropAct_ctxAt (s : State) {c : Nat} (h : c < 160) : ∃ pub wait, ctxAt (dropAct s c) c =
    { ctxAt s c with act := none, pubBank := pub, deferred := wait } := by
  obtain ⟨pub, wait, e⟩ := dropActs_ctxAt s [c] h
  exact ⟨pub, wait, e.trans (by simp)⟩

/-! Triggers and releases (R120, R144 to R148). -/

section
variable {i : CtxImg}

/-- A release begins an activation at the first slot of each of its runs, on a state area that has been set (R120, R147). -/
theorem release_begins (s : State) (late : List Nat) (h : i.num < 160) : ∃ a, (ctxAt (release s i late) i.num).act = some a ∧
    a.pos = (i.runs.map fun r => ((r.block, r.cell), r.first)) ∧ a.started = [] ∧ a.ended = [] ∧ a.suppressed = false ∧
    (ctxAt (release s i late) i.num).primed = true ∧ Readies i.num s (release s i late) := by
  unfold release; dsimp only
  generalize e1 : markStale (mergeParams (prime s i) i.num) i late = s1
  generalize e2 : (if hasDmd i then takeCurves s1 else s1) = s2
  generalize e3 : catchSample (stopAfterCatch s2 i) i = s3
  generalize e4 : speedStart s3 i _ = s4
  have r1 : Readies i.num (prime s i) s1 := e1 ▸ (mergeParams_readies ..).trans (markStale_readies ..)
  have r2 : Readies i.num s1 s2 := e2 ▸ (takeCurves_readies s1).ite (.refl s1)
  have r3 : Readies i.num s2 s3 := e3 ▸ (stopAfterCatch_readies ..).trans (catchSample_readies ..)
  have r4 : Readies i.num s3 s4 := e4 ▸ speedStart_readies ..
  have after : Readies i.num (prime s i) s4 := ((r1.trans r2).trans r3).trans r4
  have all : Readies i.num s s4 := (prime_readies s i).trans after
  rw [ctxAt_updCtx_same _ _ h]
  refine ⟨_, rfl, rfl, rfl, rfl, rfl, after.primed (prime_primed s i h), ?_⟩
  refine Readies.trans (t := { s4 with free := s4.free + lawFree * i.laws.length }) ?_ (.updCtx _ _ (fun _ => rfl) fun _ => id)
  exact all.trans ⟨rfl, rfl, rfl, rfl, id⟩

theorem exec_contextRelease {c : Fin 160} (late : List Nat) (img : imgOf s c = some i)
    (src : fld (ctxAt s c).ctrl 23 16 ∉ [0, 7, 8, 0x20]) : exec (.contextRelease c late) s = .next (trigger s i late) := by
  show execContextRelease c late s = _
  simp only [execContextRelease, img]
  exact if_neg (by simpa using src)

/-- A trigger below the divider's count is counted (R146). -/
theorem trigger_counts (late : List Nat) (en : (ctxAt s i.num).en = true) (run : (ctxAt s i.num).lost = false)
    (d : (ctxAt s i.num).divCount < fld (ctxAt s i.num).ctrl 7 0) :
    trigger s i late = updCtx s i.num fun x => { x with divCount := x.divCount + 1 } := by
  simp [trigger, en, run, d]

/-- A trigger at the divider's count starts the count anew, and is nothing else, is dropped, or releases (R146 to R148). -/
theorem trigger_fires (late : List Nat) (en : (ctxAt s i.num).en = true) (run : (ctxAt s i.num).lost = false)
    (d : fld (ctxAt s i.num).ctrl 7 0 ≤ (ctxAt s i.num).divCount) (h : i.num < 160) {z : State}
    (hz : z = updCtx s i.num fun x => { x with divCount := 0 }) : trigger s i late =
      if ctxRuns s i.num = false then z else if (ctxAt s i.num).act.isSome then dropTrigger z i.num else release z i late := by
  have runs : ctxRuns z i.num = ctxRuns s i.num := by
    unfold ctxRuns; rw [hz, ctxAt_updCtx_same _ _ h]; rfl
  simp [trigger, en, run, Nat.not_lt.2 d, ← hz, runs]

@[simp] theorem ctxAt_recCtx (s : State) (c k : Nat) (code : W16) : ctxAt (recCtx s c code) k = ctxAt s k :=
  congrArg (fun t : Thicket => t.ctxs.at k) (record_thk ..)

@[simp] theorem recCtx_lastFault (s : State) (c : Nat) (code : W16) : (recCtx s c code).io.lastFault = code := record_lastFault ..

theorem recCtx_drv (s : State) (c : Nat) {code : W16} (h : latchCodes.contains code = false) : (recCtx s c code).drv = s.drv := by
  unfold recCtx; rw [record_quiet _ _ _ h]

/-- A dropped trigger is counted in CTX_STATUS and recorded, and the activation under way goes on (R148). -/
theorem dropTrigger_frame (s : State) (c : Nat) : dropTrigger s c =
    { s with thk := (dropTrigger s c).thk, io := (dropTrigger s c).io, trc := (dropTrigger s c).trc } := by
  unfold dropTrigger recCtx; rw [record_quiet _ _ _ (by decide)]; rfl

theorem dropTrigger_ctxAt (s : State) {c : Nat} (h : c < 160) : ctxAt (dropTrigger s c) c =
    { ctxAt s c with status := incSat (setBit (ctxAt s c).status 5 true) 15 8 } := by
  unfold dropTrigger; rw [ctxAt_recCtx, ctxAt_updCtx_same _ _ h]

end

/-! Completions (R123 to R125, R138, R139, R149). -/

theorem putShadow_wroteOut (s : State) (k : Nat) (v : W18) : wroteOut s (putShadow s k v) := by
  unfold putShadow
  exact wroteOut.ite rfl (wroteOut.ite rfl (wroteOut.ite rfl rfl))

theorem putOutputs_wroteOut (s : State) (c : Nat) (a : Activation) : wroteOut s (putOutputs s c a) := by
  unfold putOutputs
  refine wroteOut.ite (wroteOut.trans ?_ (snoop_wroteOut ..)) (.refl s)
  have shadows := (wroteOut.refl s).foldl (l := a.outShadows) fun u k => putShadow_wroteOut u k.1 k.2
  exact shadows.ite (shadows.trans rfl)

theorem putResults_wroteOut (s : State) (i : CtxImg) (a : Activation) : wroteOut s (putResults s i a) :=
  ((putWords_wroteOut ..).trans (putWords_wroteOut ..)).trans (putLaws_wroteOut ..)

theorem traceSample_frame (s : State) (c : Nat) (b : Bool) : traceSample s c b =
    { s with trc := (traceSample s c b).trc, free := (traceSample s c b).free, nv := (traceSample s c b).nv } := by
  unfold traceSample; dsimp only
  split
  · rfl
  · split
    · rfl
    · split <;> rfl

theorem catchStep_frame (s : State) (i : CtxImg) (a : Activation) : catchStep s i a = { s with dmd := (catchStep s i a).dmd } := by
  unfold catchStep; split
  · rfl
  · dsimp only; split <;> rfl

/-- A normal completion ends the activation, counts it and switches the state bank (R125, R138, R149). -/
theorem finishAct_ends (s : State) (i : CtxImg) (a : Activation) (h : i.num < 160) :
    (finishAct s i a).clk = s.clk ∧ (finishAct s i a).pending = s.pending ∧ (ctxAt (finishAct s i a) i.num).act = none ∧
      (ctxAt (finishAct s i a) i.num).acts = (ctxAt s i.num).acts + 1 ∧
      (ctxAt (finishAct s i a) i.num).stBank = !(ctxAt s i.num).stBank ∧ (ctxAt (finishAct s i a) i.num).overran = false := by
  unfold finishAct; dsimp only
  generalize e1 : putOutputs (putResults s i a) i.num a = s1
  have w : wroteOut s s1 := e1 ▸ (putResults_wroteOut ..).trans (putOutputs_wroteOut ..)
  generalize e2 : updCtx s1 i.num _ = s2
  have clk : s2.clk = s.clk := (e2 ▸ rfl : s2.clk = s1.clk).trans w.clk
  have pending : s2.pending = s.pending := (e2 ▸ rfl : s2.pending = s1.pending).trans w.pending
  have counted : (ctxAt s2 i.num).acts = (ctxAt s i.num).acts + 1 ∧ (ctxAt s2 i.num).stBank = !(ctxAt s i.num).stBank ∧
      (ctxAt s2 i.num).overran = false := by
    rw [← e2, ctxAt_updCtx_same _ _ h, w.ctxAt]; exact ⟨rfl, rfl, rfl⟩
  obtain ⟨_, _, dropped⟩ := dropAct_ctxAt s2 h
  rw [catchStep_frame, traceSample_frame]
  unfold ctxAt at dropped ⊢; dsimp only; rw [dropped]
  exact ⟨by rw [dropAct_frame]; exact clk, by rw [dropAct_frame]; exact pending, rfl, counted⟩

theorem exec_contextCompletion {c : Fin 160} {i : CtxImg} {a : Activation} (img : imgOf s c = some i) (act : (ctxAt s c).act = some a) :
    exec (.contextCompletion c) s = if actDone s c a = false then .next s
      else if a.suppressed then .next (dropAct (updCtx s c fun x => { x with overran := false }) c)
      else .next ((dependents s c).foldl (fun s j => trigger s j []) (finishAct s i a)) := by
  show execContextCompletion c s = _
  simp only [execContextCompletion, img, act, Bool.not_eq_true']

/-! The watchdog (R29, R30, R33, R154). -/

/-- From `s` to `t` nothing has changed but Thicket, Blackthorn, the state events and the fault records. -/
def lossOnly (s t : State) : Prop := t = { s with thk := t.thk, saf := t.saf, drv := t.drv, io := t.io, trc := t.trc }

theorem lossOnly.trans (h : lossOnly s t) (k : lossOnly t u) : lossOnly s u := Eq.trans k (by rw [h])

theorem recCtx_lossOnly (s : State) (c : Nat) (code : W16) : lossOnly s (recCtx s c code) := by
  unfold lossOnly recCtx; rw [record_frame]

theorem updCtx_lossOnly (s : State) (c : Nat) (f : Ctx → Ctx) : lossOnly s (updCtx s c f) := rfl

theorem dropAct_lossOnly (s : State) (c : Nat) : lossOnly s (dropAct s c) := by
  unfold lossOnly; rw [dropAct_frame]

theorem ctxAt_escalate (s : State) (cause : W16) (c : Nat) : ctxAt (escalate s cause) c = ctxAt s c := rfl

theorem escalate_lossOnly (s : State) (cause : W16) : lossOnly s (escalate s cause) := rfl

theorem loseCtx_lossOnly (s : State) (c : Nat) : lossOnly s (loseCtx s c) := by
  unfold loseCtx; dsimp only
  generalize e : recCtx _ c 0x5007 = u
  have h : lossOnly s u := e ▸ ((dropAct_lossOnly s c).trans (updCtx_lossOnly ..)).trans (recCtx_lossOnly ..)
  split
  · rfl
  · split
    · exact h.trans (escalate_lossOnly u _)
    · exact h

/-- A context that is lost has LOST set and no activation; the rest of CTX_STATUS and the mark of an overrun stay (R30, R150). -/
theorem loseCtx_ctxAt (s : State) {c : Nat} (h : c < 160) : (ctxAt (loseCtx s c) c).lost = true ∧
    ((ctxAt s c).act = none → (ctxAt (loseCtx s c) c).act = none) ∧ (ctxAt (loseCtx s c) c).overran = (ctxAt s c).overran ∧
    ∀ k, k ≠ 7 → bit (ctxAt (loseCtx s c) c).status k = bit (ctxAt s c).status k := by
  by_cases l : (ctxAt s c).lost = true
  · unfold loseCtx; rw [if_pos l]
    exact ⟨l, id, rfl, fun _ _ => rfl⟩
  · obtain ⟨_, _, dropped⟩ := dropAct_ctxAt s h
    have lost : ctxAt (loseCtx s c) c = { ctxAt (dropAct s c) c with status := setBit (ctxAt (dropAct s c) c).status 7 true } := by
      unfold loseCtx; rw [if_neg l]; dsimp only
      split
      · exact (ctxAt_escalate ..).trans ((ctxAt_recCtx ..).trans (ctxAt_updCtx_same _ _ h))
      · exact (ctxAt_recCtx ..).trans (ctxAt_updCtx_same _ _ h)
    rw [lost, dropped]
    refine ⟨by simp [Ctx.lost, bit_setBit], fun _ => rfl, rfl, fun k hk => by simp [bit_setBit, hk]⟩

/-- The deadline of an activation under way: it ends, is counted and recorded, and the context is lost after a second period in a row. -/
theorem exec_watchdogDeadline {c : Fin 160} (act : (ctxAt s c).act ≠ none) : ∃ u, lossOnly s u ∧ u.drv = s.drv ∧
    u.io.lastFault = 0x5005 ∧ (ctxAt u c).act = none ∧ bit (ctxAt u c).status 1 = true ∧ (ctxAt u c).overran = true ∧
    exec (.watchdogDeadline c) s = .next (if (ctxAt s c).overran then loseCtx u c else u) := by
  let v := updCtx (updCtx s c fun x => { x.countSup with overran := true }) c fun x =>
    { x with status := incSat (setBit x.status 1 true) 31 24 }
  have vAt : ctxAt v c = { (ctxAt s c).countSup with
      overran := true, status := incSat (setBit (ctxAt s c).countSup.status 1 true) 31 24 } :=
    (ctxAt_updCtx_same _ _ c.isLt).trans (by rw [ctxAt_updCtx_same _ _ c.isLt])
  obtain ⟨_, _, dropped⟩ := dropAct_ctxAt v c.isLt
  refine ⟨recCtx (dropAct v c) c 0x5005, (lossOnly.trans ?loss (dropAct_lossOnly v c)).trans (recCtx_lossOnly ..), ?_,
    recCtx_lastFault .., ?_⟩
  case loss => exact (updCtx_lossOnly ..).trans (updCtx_lossOnly ..)
  · exact (recCtx_drv _ _ (by decide)).trans (dropAct_drv v c)
  · rw [ctxAt_recCtx, dropped, vAt]
    refine ⟨rfl, by simp [bit_incSat_out, bit_setBit], rfl, ?_⟩
    show execWatchdogDeadline c s = _
    rw [execWatchdogDeadline, if_neg (by simpa using act)]

/-- Settles O49: each event by the law of what it does to its context. A trigger that the divider swallows, or that comes while an
activation runs, is the model's (log entries 30 and 35). -/
theorem contextEventsTakeEffect : Obligations.ContextEventsTakeEffect := by
  intro s
  refine ⟨fun c late i img num src en run => ?trigger, fun c i a img num act => ⟨fun dn => ?waits, fun dn sup => ?suppressed,
    fun dn sup dep => ?completes⟩, fun c => ⟨fun act => ?idle, fun act => ?watchdog⟩, fun h q => ?preemption⟩
  case trigger =>
    have e := exec_contextRelease late img src
    have lt : i.num < 160 := num ▸ c.isLt
    rw [← num] at en run ⊢
    have z := ctxAt_updCtx_same s (c := i.num) (fun x => { x with divCount := 0 }) lt
    refine ⟨fun d => ?_, fun d r => ?_, fun d r act => ?_, fun d r act => ?_⟩
    · rw [e, trigger_counts late en run d]
    · rw [e, trigger_fires late en run d lt rfl, if_pos r]
    · rw [trigger_fires late en run d lt rfl, if_neg (by simp [r]), if_pos act] at e
      refine ⟨_, e, ?_, ?_⟩
      · rw [dropTrigger_frame]; rfl
      · rw [dropTrigger_ctxAt _ lt, z]
        exact ⟨rfl, rfl, by simp [bit_incSat_out, bit_setBit], recCtx_lastFault ..⟩
    · rw [trigger_fires late en run d lt rfl, if_neg (by simp [r]), if_neg (by simp [act])] at e
      obtain ⟨a, under, pos, started, ended, sup, primed, r⟩ :=
        release_begins (updCtx s i.num fun x => { x with divCount := 0 }) late lt
      exact ⟨_, a, e, under, pos, started, ended, sup, r.divCount.trans (by rw [z]), primed, r.nv, r.clk, r.pending⟩
  case waits => rw [exec_contextCompletion img act, if_pos dn]
  case suppressed =>
    have z := ctxAt_updCtx_same s (fun x => { x with overran := false }) c.isLt
    obtain ⟨_, _, dropped⟩ := dropAct_ctxAt (updCtx s c fun x => { x with overran := false }) c.isLt
    refine ⟨_, by rw [exec_contextCompletion img act, if_neg (by simp [dn]), if_pos sup], ?_, ?_⟩
    · rw [dropAct_frame]; rfl
    · rw [dropped, z]; exact ⟨rfl, rfl, rfl⟩
  case completes =>
    obtain ⟨clk, pending, ended, acts, bank, lap⟩ := finishAct_ends s i a (num ▸ c.isLt)
    rw [num] at ended acts bank lap
    exact ⟨_, by rw [exec_contextCompletion img act, if_neg (by simp [dn]), if_neg (by simp [sup]), dep]; rfl, ended, acts, bank, lap,
      clk, pending⟩
  case idle =>
    show execWatchdogDeadline c s = _
    rw [execWatchdogDeadline, if_pos (by simp [act])]
  case watchdog =>
    obtain ⟨u, only, drv, fault, ended, stat, lap, e⟩ := exec_watchdogDeadline act
    cases o : (ctxAt s c).overran with
    | false => exact ⟨u, by rw [e, o]; rfl, only, ended, stat, lap, fun _ => ⟨fault, drv⟩, nofun⟩
    | true =>
      obtain ⟨lost, ended', lap', stat'⟩ := loseCtx_ctxAt u c.isLt
      exact ⟨loseCtx u c, by rw [e, o]; rfl, only.trans (loseCtx_lossOnly ..), ended' ended, (stat' 1 (by decide)).trans stat,
        lap'.trans lap, nofun, fun _ => lost⟩
  case preemption =>
    intro a hi cell released running region rank hpos hended hstarted apos astarted aended app free
    have opened (x : Activation) (p : (x.pos.lookup cell).isSome = true) (e : x.ended.contains cell = false) : x.open_ cell = true := by
      rw [Activation.open_, p, e]; rfl
    refine if_pos ?_
    simp only [Bool.and_eq_true, Bool.not_eq_true', beq_iff_eq, and_assoc]
    exact ⟨released, running, region, rank, opened hi hpos hended, hstarted, opened a apos aended, astarted, app, free⟩

end Sys2Proof.Machine
end

section
/-! Every step keeps the canonical form of the memories (R50, R135, R136): the laws of the commands, put together over the table. -/

namespace Sys2Proof.Machine

/-- Every command answers a next state and keeps the queue, the fuses and the form of the memories; only a row of MNT_FUSE may change a fuse
(R657, R658), and keeps the rest. -/
theorem exec_answers (c : Instr) (s : State) :
    Answers false s (exec c s) ∨ (∃ r, jobOpcode c = some (0x5010, r)) ∧ ∃ t, exec c s = .next t ∧ Formed s t :=
  have hk : ∀ {b : Bool}, Kept b s s := Kept.refl s
  match c with
  | .hostWriteFrame .. => .inl (execHostWriteFrame_kept hk)
  | .hostReadFrame .. => .inl (execHostReadFrame_kept hk)
  | .directRegisterWrite .. => .inl (execDirectRegisterWrite_kept hk)
  | .portRst => .inl (execPortRst_kept hk)
  | .doorbellWrite .. => .inl (execDoorbellWrite_kept hk)
  | .hpTimeNsRead => .inl (execHpTimeNsRead_kept hk)
  | .descriptorTake => .inl (execDescriptorTake_kept hk)
  | .irqTimeExpiry .. => .inl (execIrqTimeExpiry_kept hk)
  | .faultLogCopy => .inl (execFaultLogCopy_kept hk)
  | .hostSilenceTimeout => .inl (execHostSilenceTimeout_kept hk)
  | .stateEventEvaluation => .inl (execStateEventEvaluation_kept hk)
  | .cfgQueue .. => .inl (execCfgQueue_kept hk)
  | .cfgEvents .. => .inl (execCfgEvents_kept hk)
  | .cfgDrive .. => .inl (execCfgDrive_kept hk)
  | .cfgImageBegin .. => .inl (execCfgImageBegin_kept hk)
  | .cfgImageData .. => .inl (execCfgImageData_kept hk)
  | .cfgImageFromFlash .. => .inl (execCfgImageFromFlash_kept hk)
  | .cfgImageToFlash .. => .inl (execCfgImageToFlash_kept hk)
  | .cfgCommit .. => .inl (execCfgCommit_kept hk)
  | .cfgRelease .. => .inl (execCfgRelease_kept hk)
  | .cfgContextCtrl .. => .inl (execCfgContextCtrl_kept hk)
  | .cfgContextPeriod .. => .inl (execCfgContextPeriod_kept hk)
  | .cfgContextParam .. => .inl (execCfgContextParam_kept hk)
  | .cfgContextStatusClr .. => .inl (execCfgContextStatusClr_kept hk)
  | .cfgAcqGroup .. => .inl (execCfgAcqGroup_kept hk)
  | .cfgAcqSeq .. => .inl (execCfgAcqSeq_kept hk)
  | .cfgAcqScale .. => .inl (execCfgAcqScale_kept hk)
  | .cfgAcqCal .. => .inl (execCfgAcqCal_kept hk)
  | .cfgAcqStatusClr .. => .inl (execCfgAcqStatusClr_kept hk)
  | .cfgAcqSwtrig .. => .inl (execCfgAcqSwtrig_kept hk)
  | .cfgDsmClocks .. => .inl (execCfgDsmClocks_kept hk)
  | .cfgDsmInput .. => .inl (execCfgDsmInput_kept hk)
  | .cfgDsmStatusClr .. => .inl (execCfgDsmStatusClr_kept hk)
  | .cfgPosRsv .. => .inl (execCfgPosRsv_kept hk)
  | .cfgPosEnc .. => .inl (execCfgPosEnc_kept hk)
  | .cfgPosCmp .. => .inl (execCfgPosCmp_kept hk)
  | .cfgPosHal .. => .inl (execCfgPosHal_kept hk)
  | .cfgPosObs .. => .inl (execCfgPosObs_kept hk)
  | .cfgPosPla .. => .inl (execCfgPosPla_kept hk)
  | .cfgPosStatusClr .. => .inl (execCfgPosStatusClr_kept hk)
  | .cfgPwmUnit .. => .inl (execCfgPwmUnit_kept hk)
  | .cfgPwmAux .. => .inl (execCfgPwmAux_kept hk)
  | .cfgPwmStatusClr .. => .inl (execCfgPwmStatusClr_kept hk)
  | .pwmUnitRestart .. => .inl (execPwmUnitRestart_kept hk)
  | .cfgGdvChannel .. => .inl (execCfgGdvChannel_kept hk)
  | .cfgGdvInd .. => .inl (execCfgGdvInd_kept hk)
  | .cfgGdvTable .. => .inl (execCfgGdvTable_kept hk)
  | .cfgGdvTcool .. => .inl (execCfgGdvTcool_kept hk)
  | .cfgGdvStatusClr .. => .inl (execCfgGdvStatusClr_kept hk)
  | .cfgPrtCtl .. => .inl (execCfgPrtCtl_kept hk)
  | .cfgPrtDcl .. => .inl (execCfgPrtDcl_kept hk)
  | .cfgPrtChop .. => .inl (execCfgPrtChop_kept hk)
  | .cfgPrtTrip .. => .inl (execCfgPrtTrip_kept hk)
  | .cfgPrtCbc .. => .inl (execCfgPrtCbc_kept hk)
  | .cfgPrtStatusClr .. => .inl (execCfgPrtStatusClr_kept hk)
  | .cfgCurve .. => .inl (execCfgCurve_kept hk)
  | .cfgThmWarn .. => .inl (execCfgThmWarn_kept hk)
  | .cfgThmStatusClr .. => .inl (execCfgThmStatusClr_kept hk)
  | .cfgChkUnit .. => .inl (execCfgChkUnit_kept hk)
  | .cfgChkStatusClr .. => .inl (execCfgChkStatusClr_kept hk)
  | .cfgCanCtrl .. => .inl (execCfgCanCtrl_kept hk)
  | .cfgCanMobj .. => .inl (execCfgCanMobj_kept hk)
  | .cfgCanTxdata .. => .inl (execCfgCanTxdata_kept hk)
  | .cfgCanRecover .. => .inl (execCfgCanRecover_kept hk)
  | .cfgCanStatusClr .. => .inl (execCfgCanStatusClr_kept hk)
  | .cfgAdxCtrl .. => .inl (execCfgAdxCtrl_kept hk)
  | .cfgAdxMw .. => .inl (execCfgAdxMw_kept hk)
  | .cfgAdxTimeCfg .. => .inl (execCfgAdxTimeCfg_kept hk)
  | .cfgAdxTimeSet .. => .inl (execCfgAdxTimeSet_kept hk)
  | .cfgAdxTimeAdj .. => .inl (execCfgAdxTimeAdj_kept hk)
  | .cfgAdxStatusClr .. => .inl (execCfgAdxStatusClr_kept hk)
  | .cfgCrdCfg .. => .inl (execCfgCrdCfg_kept hk)
  | .cfgCrdPar .. => .inl (execCfgCrdPar_kept hk)
  | .cfgCrdStatusClr .. => .inl (execCfgCrdStatusClr_kept hk)
  | .cfgLimit .. => .inl (execCfgLimit_kept hk)
  | .ctlArm .. => .inl (execCtlArm_kept hk)
  | .ctlDisarm .. => .inl (execCtlDisarm_kept hk)
  | .ctlRun .. => .inl (execCtlRun_kept hk)
  | .ctlStop .. => .inl (execCtlStop_kept hk)
  | .ctlMode .. => .inl (execCtlMode_kept hk)
  | .ctlSetpoint .. => .inl (execCtlSetpoint_kept hk)
  | .ctlForceRelease .. => .inl (execCtlForceRelease_kept hk)
  | .ctlForceBothOff .. => .inl (execCtlForceBothOff_kept hk)
  | .ctlForceLowerOn .. => .inl (execCtlForceLowerOn_kept hk)
  | .ctlForceUpperOn .. => .inl (execCtlForceUpperOn_kept hk)
  | .ctlForceShadowWrite .. => .inl (execCtlForceShadowWrite_kept hk)
  | .ctlDischarge .. => .inl (execCtlDischarge_kept hk)
  | .ctlSplit .. => .inl (execCtlSplit_kept hk)
  | .ctlJoin .. => .inl (execCtlJoin_kept hk)
  | .joinStopTimeout => .inl (execJoinStopTimeout_kept hk)
  | .qryState .. => .inl (execQryState_kept hk)
  | .qryStatus .. => .inl (execQryStatus_kept hk)
  | .qryConfig .. => .inl (execQryConfig_kept hk)
  | .qryTelemetry .. => .inl (execQryTelemetry_kept hk)
  | .qryCapacity .. => .inl (execQryCapacity_kept hk)
  | .qryCmdCost .. => .inl (execQryCmdCost_kept hk)
  | .qryFaultLog .. => .inl (execQryFaultLog_kept hk)
  | .qryAttestReport .. => .inl (execQryAttestReport_kept hk)
  | .qryAttestEndorse .. => .inl (execQryAttestEndorse_kept hk)
  | .safStop .. => .inl (execSafStop_kept hk)
  | .safRelease .. => .inl (execSafRelease_kept hk)
  | .blackthornReleaseTimeout .. => .inl (execBlackthornReleaseTimeout_kept hk)
  | .safAck .. => .inl (execSafAck_kept hk)
  | .safTest .. => .inl (execSafTest_kept hk)
  | .mntFwWriteErase .. => .inl (execMntFwWriteErase_kept hk)
  | .mntFwWriteData .. => .inl (execMntFwWriteData_kept hk)
  | .mntFwVerify .. => .inl (execMntFwVerify_kept hk)
  | .mntFwActivate .. => .inl (execMntFwActivate_kept hk)
  | .mntFuseIdent .. => .inr ⟨⟨_, rfl⟩, execMntFuseIdent_formed⟩
  | .mntFuseKey .. => .inr ⟨⟨_, rfl⟩, execMntFuseKey_formed⟩
  | .mntFuseRevoke .. => .inr ⟨⟨_, rfl⟩, execMntFuseRevoke_formed⟩
  | .mntFusePolicy .. => .inr ⟨⟨_, rfl⟩, execMntFusePolicy_formed⟩
  | .mntFuseSafety .. => .inr ⟨⟨_, rfl⟩, execMntFuseSafety_formed⟩
  | .mntFuseRollback .. => .inr ⟨⟨_, rfl⟩, execMntFuseRollback_formed⟩
  | .mntLogClearRecords .. => .inl (execMntLogClearRecords_kept hk)
  | .mntLogClearStartFailures .. => .inl (execMntLogClearStartFailures_kept hk)
  | .mntLogClearWear .. => .inl (execMntLogClearWear_kept hk)
  | .mntLogClearAgeing .. => .inl (execMntLogClearAgeing_kept hk)
  | .mntReset .. => .inl (execMntReset_kept hk)
  | .diaSelftestQuery .. => .inl (execDiaSelftestQuery_kept hk)
  | .diaSelftestRun .. => .inl (execDiaSelftestRun_kept hk)
  | .diaSelftestStatusClr .. => .inl (execDiaSelftestStatusClr_kept hk)
  | .diaTraceArm .. => .inl (execDiaTraceArm_kept hk)
  | .diaTraceStop .. => .inl (execDiaTraceStop_kept hk)
  | .diaTraceRead .. => .inl (execDiaTraceRead_kept hk)
  | .diaTraceStatus .. => .inl (execDiaTraceStatus_kept hk)
  | .diaInject .. => .inl (execDiaInject_kept hk)
  | .diaAgeingQuery .. => .inl (execDiaAgeingQuery_kept hk)
  | .diaAgeingReplan .. => .inl (execDiaAgeingReplan_kept hk)
  | .diaAgeingHistory .. => .inl (execDiaAgeingHistory_kept hk)
  | .diaAgeingStatusClr .. => .inl (execDiaAgeingStatusClr_kept hk)
  | .resetRelease => .inl (execResetRelease_kept hk)
  | .nodeIdDelayExpiry => .inl (execNodeIdDelayExpiry_kept hk)
  | .startSequencerStep .. => .inl (execStartSequencerStep_kept hk)
  | .pllLockDeadline .. => .inl (execPllLockDeadline_kept hk)
  | .bootRomStart .. => .inl (execBootRomStart_kept hk)
  | .standbyEntry => .inl (execStandbyEntry_kept hk)
  | .startTimeout => .inl (execStartTimeout_kept hk)
  | .resetInput .. => .inl (execResetInput_kept hk)
  | .supplyLoss .. => .inl (execSupplyLoss_kept hk)
  | .stopRampComplete => .inl (execStopRampComplete_kept hk)
  | .stopOverdue => .inl (execStopOverdue_kept hk)
  | .opNop .. => .inl (execOpNop_kept hk)
  | .opWait .. => .inl (execOpWait_kept hk)
  | .opEnd .. => .inl (execOpEnd_kept hk)
  | .opLdacc .. => .inl (execOpLdacc_kept hk)
  | .opMul .. => .inl (execOpMul_kept hk)
  | .opMac .. => .inl (execOpMac_kept hk)
  | .opMsu .. => .inl (execOpMsu_kept hk)
  | .opRnd .. => .inl (execOpRnd_kept hk)
  | .opAdd .. => .inl (execOpAdd_kept hk)
  | .opSub .. => .inl (execOpSub_kept hk)
  | .opNeg .. => .inl (execOpNeg_kept hk)
  | .opAbs .. => .inl (execOpAbs_kept hk)
  | .opMin .. => .inl (execOpMin_kept hk)
  | .opMax .. => .inl (execOpMax_kept hk)
  | .opLim .. => .inl (execOpLim_kept hk)
  | .opShl .. => .inl (execOpShl_kept hk)
  | .opShr .. => .inl (execOpShr_kept hk)
  | .opCmplt .. => .inl (execOpCmplt_kept hk)
  | .opCmpge .. => .inl (execOpCmpge_kept hk)
  | .opCmpeq .. => .inl (execOpCmpeq_kept hk)
  | .opSel .. => .inl (execOpSel_kept hk)
  | .opAnd .. => .inl (execOpAnd_kept hk)
  | .opOr .. => .inl (execOpOr_kept hk)
  | .opXor .. => .inl (execOpXor_kept hk)
  | .opSincos .. => .inl (execOpSincos_kept hk)
  | .opAtan2 .. => .inl (execOpAtan2_kept hk)
  | .opDiv .. => .inl (execOpDiv_kept hk)
  | .opSqrt .. => .inl (execOpSqrt_kept hk)
  | .opLut .. => .inl (execOpLut_kept hk)
  | .opLdc .. => .inl (execOpLdc_kept hk)
  | .opLd .. => .inl (execOpLd_kept hk)
  | .opSt .. => .inl (execOpSt_kept hk)
  | .opPut .. => .inl (execOpPut_kept hk)
  | .opGet .. => .inl (execOpGet_kept hk)
  | .opWcmp .. => .inl (execOpWcmp_kept hk)
  | .opLdall .. => .inl (execOpLdall_kept hk)
  | .opFlag .. => .inl (execOpFlag_kept hk)
  | .contextRelease .. => .inl (execContextRelease_kept hk)
  | .preemption .. => .inl (execPreemption_kept hk)
  | .contextCompletion .. => .inl (execContextCompletion_kept hk)
  | .watchdogDeadline .. => .inl (execWatchdogDeadline_kept hk)
  | .cellParityError .. => .inl (execCellParityError_kept hk)
  | .coefEccError .. => .inl (execCoefEccError_kept hk)
  | .opmemEccError .. => .inl (execOpmemEccError_kept hk)
  | .regionMemoryEccError .. => .inl (execRegionMemoryEccError_kept hk)
  | .cellSwitch .. => .inl (execCellSwitch_kept hk)
  | .cellSwitchAbandon .. => .inl (execCellSwitchAbandon_kept hk)
  | .catchDetectEnd .. => .inl (execCatchDetectEnd_kept hk)
  | .alignEnd .. => .inl (execAlignEnd_kept hk)
  | .sequenceTrigger .. => .inl (execSequenceTrigger_kept hk)
  | .injectedTrigger .. => .inl (execInjectedTrigger_kept hk)
  | .runHold .. => .inl (execRunHold_kept hk)
  | .conversionComplete .. => .inl (execConversionComplete_kept hk)
  | .calibrationStart .. => .inl (execCalibrationStart_kept hk)
  | .calibrationComplete .. => .inl (execCalibrationComplete_kept hk)
  | .dsmResult .. => .inl (execDsmResult_kept hk)
  | .dsmDelivery .. => .inl (execDsmDelivery_kept hk)
  | .dsmFastTrip .. => .inl (execDsmFastTrip_kept hk)
  | .dsmStuck .. => .inl (execDsmStuck_kept hk)
  | .resolverSample .. => .inl (execResolverSample_kept hk)
  | .encoderCountStep .. => .inl (execEncoderCountStep_kept hk)
  | .indexEdge .. => .inl (execIndexEdge_kept hk)
  | .encLine .. => .inl (execEncLine_kept hk)
  | .hallChange .. => .inl (execHallChange_kept hk)
  | .observerUpdate .. => .inl (execObserverUpdate_kept hk)
  | .observerLatch .. => .inl (execObserverLatch_kept hk)
  | .plausibilityCheck .. => .inl (execPlausibilityCheck_kept hk)
  | .pwmReload .. => .inl (execPwmReload_kept hk)
  | .sampleTrigger .. => .inl (execSampleTrigger_kept hk)
  | .auxEvent .. => .inl (execAuxEvent_kept hk)
  | .overlapLockout .. => .inl (execOverlapLockout_kept hk)
  | .cbcCutoff .. => .inl (execCbcCutoff_kept hk)
  | .debugHalt => .inl (execDebugHalt_kept hk)
  | .debugResume => .inl (execDebugResume_kept hk)
  | .debugRequest .. => .inl (execDebugRequest_kept hk)
  | .scanEntry => .inl (execScanEntry_kept hk)
  | .driverLockout .. => .inl (execDriverLockout_kept hk)
  | .lockoutRelease .. => .inl (execLockoutRelease_kept hk)
  | .earlyWarning .. => .inl (execEarlyWarning_kept hk)
  | .desaturation .. => .inl (execDesaturation_kept hk)
  | .softTurnoffEnd .. => .inl (execSoftTurnoffEnd_kept hk)
  | .crosscheckRefusal .. => .inl (execCrosscheckRefusal_kept hk)
  | .driverLinkSilence .. => .inl (execDriverLinkSilence_kept hk)
  | .gdvLink .. => .inl (execGdvLink_kept hk)
  | .onStateSample .. => .inl (execOnStateSample_kept hk)
  | .indicatorUpdate .. => .inl (execIndicatorUpdate_kept hk)
  | .overvoltageTrip .. => .inl (execOvervoltageTrip_kept hk)
  | .undervoltageTrip .. => .inl (execUndervoltageTrip_kept hk)
  | .legRejoin .. => .inl (execLegRejoin_kept hk)
  | .chopperSwitching .. => .inl (execChopperSwitching_kept hk)
  | .chopperFault .. => .inl (execChopperFault_kept hk)
  | .dischargeSwitchOn => .inl (execDischargeSwitchOn_kept hk)
  | .dischargeDone .. => .inl (execDischargeDone_kept hk)
  | .dischargeTimeout => .inl (execDischargeTimeout_kept hk)
  | .dischargeNotFalling => .inl (execDischargeNotFalling_kept hk)
  | .safetyInputChange .. => .inl (execSafetyInputChange_kept hk)
  | .discrepancyTimeout .. => .inl (execDiscrepancyTimeout_kept hk)
  | .speedCounterSample .. => .inl (execSpeedCounterSample_kept hk)
  | .speedSourceIllegal .. => .inl (execSpeedSourceIllegal_kept hk)
  | .speedCrossCheck .. => .inl (execSpeedCrossCheck_kept hk)
  | .smaxSoftwareCheck .. => .inl (execSmaxSoftwareCheck_kept hk)
  | .blackthornComparatorTrip .. => .inl (execBlackthornComparatorTrip_kept hk)
  | .latchSelfClear .. => .inl (execLatchSelfClear_kept hk)
  | .torqueMonitorCheck .. => .inl (execTorqueMonitorCheck_kept hk)
  | .monitorStopTimeout => .inl (execMonitorStopTimeout_kept hk)
  | .qaQuestion .. => .inl (execQaQuestion_kept hk)
  | .qaAnswer .. => .inl (execQaAnswer_kept hk)
  | .qaWindowExpiry => .inl (execQaWindowExpiry_kept hk)
  | .sackPulse .. => .inl (execSackPulse_kept hk)
  | .referenceClockWindow .. => .inl (execReferenceClockWindow_kept hk)
  | .lockstepMismatch .. => .inl (execLockstepMismatch_kept hk)
  | .checkpointRestart => .inl (execCheckpointRestart_kept hk)
  | .checkpointSeal => .inl (execCheckpointSeal_kept hk)
  | .core1PartitionViolation .. => .inl (execCore1PartitionViolation_kept hk)
  | .prunerSliceStart .. => .inl (execPrunerSliceStart_kept hk)
  | .prunerSliceAbort .. => .inl (execPrunerSliceAbort_kept hk)
  | .prunerSliceComplete .. => .inl (execPrunerSliceComplete_kept hk)
  | .prnOverdue .. => .inl (execPrnOverdue_kept hk)
  | .sensorWindow .. => .inl (execSensorWindow_kept hk)
  | .thermalLineRelease => .inl (execThermalLineRelease_kept hk)
  | .throttleEvaluation => .inl (execThrottleEvaluation_kept hk)
  | .railOutOfWindow .. => .inl (execRailOutOfWindow_kept hk)
  | .droopDetect .. => .inl (execDroopDetect_kept hk)
  | .droopEnd => .inl (execDroopEnd_kept hk)
  | .droopBudgetExhausted => .inl (execDroopBudgetExhausted_kept hk)
  | .pllLockLoss => .inl (execPllLockLoss_kept hk)
  | .referenceCountWindow .. => .inl (execReferenceCountWindow_kept hk)
  | .canaryMeasurement .. => .inl (execCanaryMeasurement_kept hk)
  | .dailyReplan => .inl (execDailyReplan_kept hk)
  | .operatingHoursSave => .inl (execOperatingHoursSave_kept hk)
  | .canFrameReceived .. => .inl (execCanFrameReceived_kept hk)
  | .canLockRelease .. => .inl (execCanLockRelease_kept hk)
  | .canLockTimeout .. => .inl (execCanLockTimeout_kept hk)
  | .canTxAttemptEnd .. => .inl (execCanTxAttemptEnd_kept hk)
  | .canPeriodRequest .. => .inl (execCanPeriodRequest_kept hk)
  | .canErrorDetected .. => .inl (execCanErrorDetected_kept hk)
  | .canBusoffRecovery .. => .inl (execCanBusoffRecovery_kept hk)
  | .canMessageWordTimeout .. => .inl (execCanMessageWordTimeout_kept hk)
  | .canCompletionSend .. => .inl (execCanCompletionSend_kept hk)
  | .canCompletionRetry .. => .inl (execCanCompletionRetry_kept hk)
  | .adexiaFrameReceived .. => .inl (execAdexiaFrameReceived_kept hk)
  | .missingDuplicateTimeout .. => .inl (execMissingDuplicateTimeout_kept hk)
  | .adexiaMsgTimeout .. => .inl (execAdexiaMsgTimeout_kept hk)
  | .cplFrameSend => .inl (execCplFrameSend_kept hk)
  | .supervisionSend => .inl (execSupervisionSend_kept hk)
  | .portLinkChange .. => .inl (execPortLinkChange_kept hk)
  | .ptpSyncMeasurement .. => .inl (execPtpSyncMeasurement_kept hk)
  | .syncTimeout .. => .inl (execSyncTimeout_kept hk)
  | .oneShotOffsetApply => .inl (execOneShotOffsetApply_kept hk)
  | .allocCycleInstant => .inl (execAllocCycleInstant_kept hk)
  | .allocLatch => .inl (execAllocLatch_kept hk)
  | .stateCopySend => .inl (execStateCopySend_kept hk)
  | .stateCopyReceived .. => .inl (execStateCopyReceived_kept hk)
  | .pairLinkTimeout => .inl (execPairLinkTimeout_kept hk)
  | .arbiterStartupAppoint => .inl (execArbiterStartupAppoint_kept hk)
  | .carrierValley .. => .inl (execCarrierValley_kept hk)
  | .linkActivityResumed .. => .inl (execLinkActivityResumed_kept hk)
  | .encLineClear .. => .inl (execEncLineClear_kept hk)
  | .earlyWarningClear .. => .inl (execEarlyWarningClear_kept hk)
  | .protocolException .. => .inl (execProtocolException_kept hk)
  | .ptpSyncInterval .. => .inl (execPtpSyncInterval_kept hk)

/-- From `s` the memories keep their form. -/
theorem exec_keeps_memoriesWf {c : Instr} {s t : State} (m : memoriesWf s) (e : exec c s = .next t) : memoriesWf t := by
  rcases exec_answers c s with ⟨u, eu, k⟩ | ⟨-, u, eu, k⟩
  all_goals
    cases eu.symm.trans e
    exact k.mem m

/-- Settles O54: the front command by the law of its row, an idle step by that of the tick. The canonical form is the model's way to hold
a memory (log entry 4). -/
theorem everyStepKeepsTheMemoryForm : Obligations.EveryStepKeepsTheMemoryForm := by
  intro s t m e
  unfold step at e
  split at e
  case h_1 => cases e; exact (tick_kept (b := false) (Kept.refl s)).mem m
  case h_2 c rest _ => exact exec_keeps_memoriesWf (s := { s with pending := rest }) m e

end Sys2Proof.Machine
end

section
/-! Jobs that are not applied: where Icsis does not serve, and where R78 marks the opcode illegal in the present state (R65, R70, R77). -/

namespace Sys2Proof.Machine

/-- A job that is not legal in the present state ends with ST_PREEMPTED where it was accepted before, and with ST_STATE and the state code
else (R65, R70). -/
def illegalEnd (op : Nat) (r : Req) (s : State) : State :=
  if (jobOf s op r).isSome then complete s op r stPreempted [] else complete s op r stState [BitVec.ofNat 8 s.drv.st.code]

/-- It changes the port and the pair's checkpoint, and nothing else. -/
theorem illegalEnd_frame (op : Nat) (r : Req) (s : State) :
    illegalEnd op r s = { s with io := (illegalEnd op r s).io, icp := (illegalEnd op r s).icp } := by
  unfold illegalEnd; split <;> exact complete_frame ..

/-- What a meaning answers that applies a job only where Icsis serves and the opcode is legal. -/
structure AppliesJob (op : Nat) (r : Req) (s : State) (o : Host.Outcome State Fault Refusal) : Prop where
  idle : serving s = false → o = .next s
  illegal : serving s = true → legal s.drv.st op = false → o = .next (illegalEnd op r s)

section
variable {op : Nat} {r : Req} {s : State} {o : Host.Outcome State Fault Refusal}

theorem AppliesJob.runJob {body : Done} : AppliesJob op r s (.next (runJob op r s body)) :=
  ⟨fun h => by rw [runJob_idle h], fun h l => by rw [runJob_illegal h l]; rfl⟩

theorem AppliesJob.runStateJob {dst : Mode} {check : Option (W16 × List Byte)} {f : State → State} :
    AppliesJob op r s (.next (runStateJob op r s dst check f)) :=
  ⟨fun h => by rw [runStateJob_idle h], fun h l => by rw [runStateJob_illegal h l]; rfl⟩

/-- A meaning that does more only where its job runs need be looked at only where it does not. -/
theorem AppliesJob.of_not_runs (h : jobRuns s op r = false → AppliesJob op r s o) : AppliesJob op r s o :=
  ⟨fun i => (h (by simp [jobRuns, i])).idle i, fun i l => (h (by simp [jobRuns, l])).illegal i l⟩

theorem AppliesJob.ite {c : Prop} [Decidable c] {x y : Host.Outcome State Fault Refusal} (hx : AppliesJob op r s x)
    (hy : AppliesJob op r s y) : AppliesJob op r s (if c then x else y) := by split <;> assumption

end

section
variable (r : Req) (s : State)

theorem execCfgCurve_appliesJob : AppliesJob 0x1026 r s (execCfgCurve r s) := by
  unfold execCfgCurve; dsimp only; split <;> exact .runJob

theorem execCtlSetpoint_appliesJob : AppliesJob 0x2011 r s (execCtlSetpoint r s) := by
  unfold execCtlSetpoint; dsimp only; split <;> exact .runJob

theorem execCtlDischarge_appliesJob : AppliesJob 0x2021 r s (execCtlDischarge r s) :=
  .of_not_runs fun n => by simp only [execCtlDischarge, n, Bool.false_and]; exact .runJob

theorem execCtlJoin_appliesJob (k : Bool) : AppliesJob 0x2031 r s (execCtlJoin r k s) :=
  .of_not_runs fun n => by simp only [execCtlJoin, n, Bool.false_and]; exact .runJob

theorem execSafStop_appliesJob : AppliesJob 0x4001 r s (execSafStop r s) := by
  refine .of_not_runs fun n => ?_
  simp only [execSafStop, n, Bool.false_and]
  refine .ite .runJob ?_
  split <;> exact .runStateJob

theorem execSafAck_appliesJob (c : BitVec 16) (d : Byte) : AppliesJob 0x4003 r s (execSafAck r c d s) := .ite .runJob .runStateJob

theorem execMntFwActivate_appliesJob : AppliesJob 0x5003 r s (execMntFwActivate r s) := by
  refine .of_not_runs fun n => ?_
  simp only [execMntFwActivate, n, Bool.false_eq_true, if_false]
  split <;> exact .runJob

theorem execMntReset_appliesJob : AppliesJob 0x5012 r s (execMntReset r s) :=
  .of_not_runs fun n => by simp only [execMntReset, n, Bool.false_and, Bool.false_eq_true, if_false]; exact .runJob

theorem execDiaInject_appliesJob (ns : W32) : AppliesJob 0x6003 r s (execDiaInject r ns s) :=
  .of_not_runs fun n => by simp only [execDiaInject, n, Bool.and_false]; exact .runJob

end

/-- Every command of R78 applies its job only where Icsis serves and the opcode is legal: the rows with a condition of their own by their
own laws, the commands that change the state by that of `runStateJob`, and every other row by that of `runJob`. -/
theorem exec_appliesJob {c : Instr} {op : Nat} {r : Req} (h : jobOpcode c = some (op, r)) (s : State) : AppliesJob op r s (exec c s) := by
  cases c
  case cfgCurve => cases h; exact execCfgCurve_appliesJob ..
  case ctlSetpoint => cases h; exact execCtlSetpoint_appliesJob ..
  case ctlDischarge => cases h; exact execCtlDischarge_appliesJob ..
  case ctlJoin => cases h; exact execCtlJoin_appliesJob ..
  case safStop => cases h; exact execSafStop_appliesJob ..
  case safAck => cases h; exact execSafAck_appliesJob ..
  case mntFwActivate => cases h; exact execMntFwActivate_appliesJob ..
  case mntReset => cases h; exact execMntReset_appliesJob ..
  case diaInject => cases h; exact execDiaInject_appliesJob ..
  case cfgAdxTimeAdj => cases h; exact .ite .runJob .runJob
  case diaSelftestRun => cases h; exact .ite .runJob .runJob
  case cfgCommit | cfgRelease | ctlArm | ctlDisarm | ctlRun | safRelease => cases h; exact .runStateJob
  all_goals cases h
  all_goals exact .runJob

/-- Settles O3: whether the job was accepted before is what `illegalEnd` tells apart. -/
theorem jobsAreAppliedOnlyWhereLegalAndServed : Obligations.JobsAreAppliedOnlyWhereLegalAndServed :=
  ⟨fun _ op r s h serves l => ⟨illegalEnd op r s, (exec_appliesJob h s).illegal serves l, illegalEnd_frame op r s, rfl⟩,
    fun _ _ _ s h => (exec_appliesJob h s).idle⟩

end Sys2Proof.Machine
end

section
/-! The step of a queue with commands, and the queues after a reset (R50). -/

namespace Sys2Proof.Machine

/-- Settles O1: `step` takes the front of the queue, which is the model's (log entry 23). -/
theorem stepRunsTheFrontCommand : Obligations.StepRunsTheFrontCommand := fun _ _ _ => rfl

theorem resetQueues_pointers : ∀ n < 64, (resetQueues.at n).hostPtr = 0 ∧ (resetQueues.at n).icsisPtr = 0 := by decide +kernel

/-- The queues that R50's table does not list are disabled. -/
theorem resetQueues_disabled : ∀ n < 64, n < 8 ∨ 14 ≤ n → (resetQueues.at n).dir = 0 := by decide +kernel

/-- Settles O51: power-up and any reset leave the same queues, of which each clause is a finite fact. -/
theorem resetConfiguresTheQueues : Obligations.ResetConfiguresTheQueues := by
  intro s t h
  obtain ⟨sram, queues⟩ : t.io.qsram = [] ∧ t.io.q = resetQueues.at := by rcases h with rfl | rfl <;> exact ⟨rfl, rfl⟩
  rw [queues]
  refine ⟨sram, resetQueues_pointers, fun n => ⟨fun m => ?listed, ?rows⟩, fun n => ⟨fun m => ?listed', ?rows'⟩,
    fun n o lt => resetQueues_disabled n lt o⟩
  case listed | listed' =>
    simp only [List.mem_cons, Prod.mk.injEq, List.not_mem_nil, or_false] at m
    exact m.imp And.left (Or.imp And.left And.left)
  case rows | rows' => rintro (rfl | rfl | rfl) <;> decide

end Sys2Proof.Machine
end

section
/-! A completion of one entry (R49, R58, R59): what the paired ring and queue SRAM hold after it. -/

namespace Sys2Proof.Machine

/-- Reading across two neighbouring ranges. -/
theorem memRead_add {n : Nat} (m : Mem n) (a j k : Nat) : memRead m a (j + k) = memRead m a j ++ memRead m (a + j) k := by
  simp [memRead, List.range_add, Function.comp_def, Nat.add_assoc]

/-- An entry stands in its slot: its head with PHASE of the present pass and CONT, then its body (R58, R59). -/
theorem Io.memRead_putEntry (io : Io) (n : Nat) {head body : List Byte} (cont : Bool) (hm : Memory.wf io.qsram) (hh : head.length = 7)
    (hb : body.length = 56) : memRead (io.putEntry n head cont body).qsram (slotAddr n (io.q n).icsisPtr) 64 =
      head ++ [BitVec.ofNat 8 (b2n (io.q n).phase + 2 * b2n cont)] ++ body := by
  have ph : padTo 7 head = head := by simp [padTo, hh]
  have pb : padTo 56 body = body := by simp [padTo, hb]
  unfold Io.putEntry; dsimp only
  rw [Io.updQ_qsram, ph, pb, memRead_add _ _ 8 56]
  generalize slotAddr n (io.q n).icsisPtr = a
  generalize hf : head ++ [BitVec.ofNat 8 (b2n (io.q n).phase + 2 * b2n cont)] = first
  have lf : first.length = 8 := by simp [← hf, hh]
  congr 1
  · have read := memRead_memWrite (memWrite io.qsram (a + 8) body) a first (memWrite_wf _ hm)
    rwa [lf] at read
  · have read := memRead_memWrite io.qsram (a + 8) body hm
    rw [hb] at read
    exact (memRead_memWrite_of_out _ _ (by omega)).trans read

@[simp] theorem Io.notify_jobs (io : Io) (n : Nat) (irq : Bool) : (io.notify n irq).jobs = io.jobs := by
  unfold Io.notify; dsimp only; split <;> rfl

/-- A descriptor that asks for it has the interrupt bit of its ring set (R73). -/
theorem Io.notify_irq (io : Io) {n : Nat} (h : n < 64) : bit (io.notify n true).irqStat n = true := by
  simp [Io.notify, Io.raise, bit_setBit, h]

/-- A ring in use is one of the 64. -/
theorem Io.lt_of_isCpl {io : Io} {n : Nat} (h : (io.q n).isCpl = true) : n < 64 := by
  refine Nat.lt_of_not_le fun le => ?_
  rw [Io.q, Vector.at_of_le _ le] at h
  exact absurd h (by decide)

/-- A completion whose result fits one entry, in a ring with room for it (R58, R60). -/
theorem Io.complete_one {io : Io} {n : Nat} (op seq status sq : Nat) (tAcc tDone : W64) {result : List Byte} (irq : Bool)
    (hc : (io.q n).isCpl = true) (hr : result.length ≤ 40) (room : 1 ≤ io.freeSlots n) :
    io.complete n op seq status sq tAcc tDone result irq =
      (io.putEntry n (leBytes 2 op ++ leBytes 2 seq ++ leBytes 2 status ++ leBytes 1 sq) false
        (leBytes 8 tAcc.toNat ++ leBytes 8 tDone.toNat ++ padTo 40 result)).notify n irq := by
  have none : (result.length - 40 + 55) / 56 = 0 := by omega
  simp [Io.complete, entriesOf, none, hc, room, entryBodies, Io.putEntries, List.take_of_length_le hr]

/-- The port when a job is outstanding no longer. -/
def jobEnded (s : State) (op : Nat) (r : Req) : Io :=
  { s.io with jobs := match jobOf s op r with | some j => s.io.jobs.erase j | none => s.io.jobs }

/-- The port after a completion, where its submission ring is one (R58). -/
theorem complete_io_of_isSub {s : State} (op : Nat) {r : Req} (st : W16) (result : List Byte) (h : (s.io.q r.ring).isSub = true) :
    (complete s op r st result).io = (jobEnded s op r).complete (s.io.q r.ring).pairRing op r.seq.toNat st.toNat r.ring
      (((jobOf s op r).map Job.tAcc).getD (now s)) (now s) result (bit r.flags 1) := by
  refine (complete_io ..).trans ((if_pos h).trans ?_)
  unfold jobEnded
  cases jobOf s op r <;> rfl

/-- Settles O53: the port after the completion is one entry put in the paired ring, and what is read of it is what `putEntry` says. The
address of a slot is the model's `slotAddr`. -/
theorem completionEntryIsWritten : Obligations.CompletionEntryIsWritten := by
  intro s op r st result n c a p sub cpl len room wf
  have lt : n < 64 := Io.lt_of_isCpl cpl
  let head := leBytes 2 op ++ leBytes 2 r.seq.toNat ++ leBytes 2 st.toNat ++ leBytes 1 r.ring
  let body := leBytes 8 (((jobOf s op r).map Job.tAcc).getD (now s)).toNat ++ leBytes 8 (now s).toNat ++ padTo 40 result
  have hh : head.length = 7 := by simp [head, leBytes_length]
  have hb : body.length = 56 := by simp [body, leBytes_length, padTo_length len]
  have io : (complete s op r st result).io = ((jobEnded s op r).putEntry n head false body).notify n (bit r.flags 1) :=
    (complete_io_of_isSub op st result sub).trans (Io.complete_one (io := jobEnded s op r) _ _ _ _ _ _ _ cpl len room)
  refine ⟨_, rfl, ?_⟩
  rw [io, Io.notify_qsram, Io.notify_jobs]
  simp only [Io.notify_q, Io.putEntry_q _ _ _ _ lt]
  refine ⟨?entry, fun b out => Io.putEntry_mem _ hh.le hb.le out, rfl, rfl, rfl, fun k ne => Io.putEntry_q_ne _ _ _ _ ne, rfl,
    fun irq _ => by rw [irq]; exact Io.notify_irq _ lt⟩
  exact (Io.memRead_putEntry (jobEnded s op r) n false wf hh hb).trans (by simp only [head, body, List.append_assoc]; rfl)

end Sys2Proof.Machine
end

section
/-! The frames of the host port (R42 to R48, R689, R690): when a write frame is well formed and what its words do, and what a read frame
delivers from the queue windows and from a register. -/

namespace Sys2Proof.Machine

section
variable {instr : Byte} {addr : BitVec 24} {ws : List W32} {crc : Option W16} {clocks : Nat} {s : State}

/-! Write frames. -/

/-- The range of a frame stays on one side of 0x10_0000 and below 2^24 (R44). -/
theorem rangeOk_iff (a k : Nat) :
    rangeOk a k = true ↔ (0x100000 ≤ a ∨ a + 4 * k ≤ 0x100000) ∧ a + 4 * k ≤ 0x1000000 := by
  simp only [rangeOk, Bool.and_eq_true, Bool.not_eq_true', Bool.and_eq_false_iff, decide_eq_false_iff_not, decide_eq_true_eq, Nat.not_lt]

theorem execHostWriteFrame_formed (instr : Byte) (addr : BitVec 24) (ws : List W32) (crc : Option W16) (clocks : Nat) (s : State) :
    (instr == 0x38 && decide (1 ≤ ws.length) && decide (ws.length ≤ 64) && crc.isSome == s.io.crcEn &&
      clocks == 8 + 8 * ws.length + (if s.io.crcEn then 4 else 0) && addr.toNat % 4 == 0 && rangeOk addr.toNat ws.length) = true ↔
    writeFormed instr addr ws crc clocks s := by
  simp only [Bool.and_eq_true, beq_iff_eq, decide_eq_true_eq, rangeOk_iff, writeFormed, Io.crcEn]
  tauto

theorem exec_hostWriteFrame_malformed (up : portUp s = true) (f : ¬writeFormed instr addr ws crc clocks s) :
    exec (.hostWriteFrame instr addr ws crc clocks) s = .next { s with io := s.io.err 0 } := by
  show execHostWriteFrame instr addr ws crc clocks s = _
  rw [← execHostWriteFrame_formed] at f
  unfold execHostWriteFrame; dsimp only
  rw [if_neg (by simp [up]), if_pos (by rw [Bool.not_eq_true']; exact Bool.eq_false_iff.2 f)]

/-- A well-formed frame carries a CRC just where CRC_EN = 1, which decides between the two ends of R43. -/
theorem exec_hostWriteFrame_formed (up : portUp s = true) (f : writeFormed instr addr ws crc clocks s) :
    exec (.hostWriteFrame instr addr ws crc clocks) s =
      if ∃ c, crc = some c ∧ c ≠ crc16 (frameBytes 0x38 addr ws) then .next { s with io := s.io.err 1 }
      else .next (snoop (writeWords (hostAlive s) addr.toNat ws) 0x30 (frameItems addr.toNat ws) true) := by
  show execHostWriteFrame instr addr ws crc clocks s = _
  have formed := (execHostWriteFrame_formed ..).2 f
  obtain ⟨rfl, -, -, -, -, -, some, -⟩ := f
  unfold execHostWriteFrame; dsimp only
  rw [formed, if_neg (by simp [up]), if_neg (by decide)]
  refine if_congr ?_ rfl rfl
  rw [Io.crcEn, ← some]
  cases crc <;> simp

/-- Where a frame's word goes (R45, R46). -/
theorem writeWord_eq (s : State) (a : Nat) (w : W32) : writeWord s a w =
    if 0x100000 ≤ a then writeReg s a w
    else if hostSub s.io (a / 0x4000) then { s with io := { s.io with qsram := memWrite s.io.qsram a (leBytes 4 w.toNat) } }
    else { s with io := s.io.err 3 } := by
  unfold writeWord windowOf
  by_cases h : 0x100000 ≤ a
  · rw [if_neg (by omega), if_pos h]
  · rw [if_pos (by omega), if_neg h]

/-! Read frames. -/

/-- The clocks of R689 for `k` words are those of `k` words. -/
theorem wordsOfClocks {per k : Nat} (h : 0 < per) : (16 + per * k - 16) / per = k ∧ (16 + per * k - 16 + per - 1) / per = k := by
  rw [Nat.add_sub_cancel_left, Nat.mul_div_cancel_left _ h]
  refine ⟨rfl, ?_⟩
  rw [Nat.add_sub_assoc h, Nat.mul_add_div h, Nat.div_eq_of_lt (by omega), Nat.add_zero]

/-- Below the end of the range every CRC is sent as it is. -/
theorem map_crcs_of_le {a lim : Nat} (l : List W16) (h : a + 4 * l.length ≤ lim) :
    (l.zipIdx.map fun p => if lim ≤ a + 4 * p.2 then 0 else p.1) = l := by
  refine List.ext_getElem (by simp) fun i h1 h2 => ?_
  simp only [List.getElem_map, List.getElem_zipIdx]
  rw [if_neg (by omega)]

/-- What the port drives in a frame, and the CRCs after the words where CRC_EN = 1 (R43). -/
def driven (s : State) (addr : BitVec 24) (ws : List W32) : State :=
  { s with io := { s.io with silent := false, readData := ws, readCrcs := if s.io.crcEn then readCrcs 0xEB addr ws else [] } }

theorem readCrcs_length (instr : Byte) (addr : BitVec 24) (ws : List W32) : (readCrcs instr addr ws).length = ws.length := by
  simp [readCrcs]

/-- A well-formed read frame of `k` words (R42, R44, R689). -/
theorem exec_hostReadFrame_formed {k lim : Nat} {ws : List W32} {t : State} (up : portUp s = true) (al : addr.toNat % 4 = 0)
    (pos : 1 ≤ k) (le : k ≤ 64) (hl : lim = if addr.toNat < 0x100000 then 0x100000 else 0x1000000)
    (range : addr.toNat + 4 * k ≤ lim) (read : readWords addr.toNat lim k s = (ws, t)) (len : ws.length = k)
    (ctrl : t.io.hpCtrl = s.io.hpCtrl) :
    exec (.hostReadFrame 0xEB addr (16 + (if bit s.io.hpCtrl 1 then 12 else 8) * k)) s = .next (driven t addr ws) := by
  show execHostReadFrame _ _ _ s = _
  have en : s.io.crcEn = bit s.io.hpCtrl 1 := rfl
  have per : 0 < if bit s.io.hpCtrl 1 then 12 else 8 := by split <;> omega
  have ok : rangeOk addr.toNat k = true := (rangeOk_iff ..).2 (by split at hl <;> omega)
  obtain ⟨words, sent⟩ := wordsOfClocks (k := k) per
  unfold execHostReadFrame; dsimp only
  rw [en, words, sent, Nat.min_eq_right le, ← hl, read, if_neg (by simp [up]), if_neg (by simp [al]), if_pos (by simp [pos, le, ok]),
    map_crcs_of_le _ (by rw [readCrcs_length, len]; exact range)]
  simp only [hostAlive, driven, Io.crcEn, ctrl]

/-- The words of the queue windows are the little-endian words of queue SRAM (R49). -/
theorem readWords_windows (s : State) (a k : Nat) (h : a + 4 * k ≤ 0x100000) : readWords a 0x100000 k s =
    ((List.range k).map fun i => BitVec.ofNat 32 (leNat (memRead s.io.qsram (a + 4 * i) 4) 0 4), s) := by
  induction k generalizing a with
  | zero => rfl
  | succ k ih =>
    have word : readWord s a = some (BitVec.ofNat 32 (leNat (memRead s.io.qsram a 4) 0 4)) := if_pos (by omega)
    have addr (i : Nat) : a + 4 + 4 * i = a + 4 * (i + 1) := by omega
    rw [readWords, if_neg (by omega), word]; dsimp only
    rw [if_neg (by omega), ih _ (by omega), List.range_succ_eq_map]
    simp [addr]

/-- One word of a register; that of HP_TIME_NS latches the seconds (R44, R48). -/
theorem readWords_register (s : State) {a : Nat} (h : a < 0x1000000) : readWords a 0x1000000 1 s =
    match readWord s a with
    | some w => ([w], if a = 0x100020 then latchSec s else s)
    | none => ([0], { s with io := s.io.err 4 }) := by
  rw [readWords, if_neg (by omega)]
  cases readWord s a <;> rfl

theorem Io.err_hpCtrl (io : Io) (i : Nat) : (io.err i).hpCtrl = io.hpCtrl := by unfold Io.err; split <;> rfl

/-- A malformed read frame drives zeros and sets HP_ERR.FRAME (R42, R44). -/
theorem exec_hostReadFrame_malformed (clocks : Nat) (up : portUp s = true) (bad : instr ≠ 0xEB ∨ addr.toNat % 4 ≠ 0) :
    ∃ t, exec (.hostReadFrame instr addr clocks) s = .next t ∧ (∀ w ∈ t.io.readData, w = 0) ∧ (∀ w ∈ t.io.readCrcs, w = 0) ∧
      t = { s with io := { s.io.err 0 with readData := t.io.readData, readCrcs := t.io.readCrcs } } := by
  have run : ∃ n, exec (.hostReadFrame instr addr clocks) s = .next { s with io := { s.io.err 0 with
      readData := List.replicate n 0, readCrcs := if s.io.crcEn then List.replicate n 0 else [] } } :=
    ⟨_, (if_neg (by simp [up])).trans (if_pos (by simpa using bad))⟩
  obtain ⟨n, e⟩ := run
  refine ⟨_, e, fun w hw => List.eq_of_mem_replicate hw, fun w hw => ?_, rfl⟩
  dsimp only at hw
  split at hw
  · exact List.eq_of_mem_replicate hw
  · exact absurd hw (by simp)

end

/-- Settles O4: a write frame by its two laws, a read frame by the words that `readWords` gives for its range. -/
theorem hostFramesWriteAndRead : Obligations.HostFramesWriteAndRead := by
  refine ⟨fun instr addr ws crc clocks s => ⟨fun up => ?down, exec_hostWriteFrame_malformed, fun up f c => ?crc, fun up f c => ?good,
    fun a w rest s' => ⟨rfl, by rw [writeWords, writeWord_eq]⟩⟩, fun addr k s up pos le => ⟨fun al range => ?windows, fun al reg => ?register,
    fun instr clocks bad => exec_hostReadFrame_malformed clocks up bad, ?time⟩⟩
  case down =>
    show execHostWriteFrame instr addr ws crc clocks s = _
    unfold execHostWriteFrame; dsimp only
    rw [if_pos (by simp [up])]
  case crc => rw [exec_hostWriteFrame_formed up f, if_pos c]
  case good => rw [exec_hostWriteFrame_formed up f, if_neg fun ⟨v, e, ne⟩ => ne (c v e)]
  case windows =>
    have e := exec_hostReadFrame_formed up al pos le (by rw [if_pos (by omega)]) range (readWords_windows s _ k range) (by simp) rfl
    exact ⟨_, e, rfl, rfl, rfl⟩
  case register =>
    have lt : addr.toNat < 0x1000000 := addr.isLt
    have frame {ws : List W32} {t : State} (read : readWords addr.toNat 0x1000000 1 s = (ws, t)) (len : ws.length = 1)
        (ctrl : t.io.hpCtrl = s.io.hpCtrl) :=
      exec_hostReadFrame_formed up al (Nat.le_refl 1) (by decide) (by rw [if_neg (by omega)]) (by omega) read len ctrl
    simp only [Nat.mul_one] at frame
    have words := readWords_register s lt
    cases h : readWord s addr.toNat with
    | some w =>
      rw [h] at words
      refine ⟨_, frame words rfl (by split <;> rfl), fun v hv => ?_, nofun⟩
      cases hv
      by_cases time : addr.toNat = 0x100020 <;> simp [driven, latchSec, time]
    | none =>
      rw [h] at words
      refine ⟨_, frame words rfl (Io.err_hpCtrl ..), nofun, fun _ => ⟨rfl, ?_⟩⟩
      simp [driven]
  case time =>
    show execHpTimeNsRead s = _
    rw [execHpTimeNsRead, if_neg (by simp [up])]; rfl

end Sys2Proof.Machine
end

section
/-! The commands of the interface itself and its timers (R47, R51, R52, R73, R81, R82, R96). -/

namespace Sys2Proof.Machine

section
variable {r : Req} {s : State}

/-- CFG_QUEUE behind its two checks (R51, R52). -/
theorem exec_cfgQueue_parsed {c : QueueCfg} (p : parseQueue r s.io = some c) : exec (.cfgQueue r) s = .next (runJob 0x1001 r s
    (guardSt (!queueBusy s.io c.qnum r.ring) stBusy (ok { s with io := { s.io with queues := s.io.queues.put c.qnum c.cfg } }))) := by
  show execCfgQueue r s = _
  rw [execCfgQueue, p]; rfl

theorem exec_cfgQueue_unparsed (p : parseQueue r s.io = none) : exec (.cfgQueue r) s = .next (runJob 0x1001 r s (.refuse stRange)) := by
  show execCfgQueue r s = _
  rw [execCfgQueue, p]

/-- The fields that a payload of CFG_QUEUE gives its queue (R51). -/
theorem parseQueue_fields {io : Io} {c : QueueCfg} (p : parseQueue r io = some c) : c.qnum = fieldAt r 8 1 ∧
    c.cfg = { dir := fieldAt r 9 1, depth := fieldAt r 10 1, source := fieldAt r 11 1, pairRing := fieldAt r 12 1,
              irqCount := fieldAt r 13 1, irqTime := fieldAt r 14 2, hostPtr := 0, icsisPtr := 0, phase := true, timed := false } := by
  obtain ⟨-, e⟩ := Option.ite_none_right_eq_some.1 p
  cases e
  exact ⟨rfl, rfl⟩

/-- A ring whose oldest completion has waited IRQ_TIME has its interrupt bit set, once (R73). -/
theorem exec_irqTimeExpiry {n : Fin 64} (cpl : (s.io.q n).isCpl = true) (time : (s.io.q n).irqTime ≠ 0) (held : (s.io.q n).held ≠ 0)
    (new : (s.io.q n).timed = false) :
    exec (.irqTimeExpiry n) s = .next { s with io := (s.io.updQ n fun q => { q with timed := true }).raise n } := by
  show execIrqTimeExpiry n s = _
  simp [execIrqTimeExpiry, cpl, time, held, new]

theorem exec_faultLogCopy (serves : serving s = true) (flash : bit s.sup.railOut 4 = false) :
    exec .faultLogCopy s = .next (copyLog s) := by
  show execFaultLogCopy s = _
  simp [execFaultLogCopy, serves, flash]

/-- A silent spell is recorded once, and stops the drive where SAF_STOP would (R47, R96). -/
theorem exec_hostSilenceTimeout (serves : serving s = true) (st : fromStandbyOn s.drv.st = true) (wd : s.io.hostWd ≠ 0)
    (new : s.io.silent = false) : exec .hostSilenceTimeout s = .next
      (let t := record { s with io := { s.io with silent := true } } 0x3010 noUnit 0
       if s.drv.st = .safeStop ∨ s.drv.st = .fault then t else arrive t .stopReq 0x3010) := by
  show execHostSilenceTimeout s = _
  have st' : (record { s with io := { s.io with silent := true } } 0x3010 noUnit 0).drv.st = s.drv.st := by
    rw [record_quiet _ _ _ (by decide)]
  rw [execHostSilenceTimeout, if_pos (by simp [serves, st, wd, new])]
  simp only [st', Bool.or_eq_true, beq_iff_eq]

end

/-- Settles O6: CFG_QUEUE by what its payload parses to, CFG_EVENTS by its one check, each timer by its own law. -/
theorem queueConfigurationAndInterfaceTimers : Obligations.QueueConfigurationAndInterfaceTimers := by
  refine ⟨fun r s => ⟨fun h => ⟨fun p => ?range, fun c p busy => ?busy, fun c p idle => ?queue⟩, fun h => ?events⟩,
    fun s => ⟨fun n cpl time held new => ?irq, exec_faultLogCopy, fun serves st wd new => ⟨exec_hostSilenceTimeout serves st wd new, ?silent⟩⟩⟩
  case range => rw [exec_cfgQueue_unparsed p, runJob_refuse h]
  case busy => rw [exec_cfgQueue_parsed p, busy]; exact congrArg _ (runJob_refuse h)
  case queue =>
    obtain ⟨qnum, cfg⟩ := parseQueue_fields p
    exact ⟨qnum, cfg, by rw [exec_cfgQueue_parsed p, idle]; exact congrArg _ (runJob_done h)⟩
  case events =>
    intro good
    have ends : exec (.cfgEvents r) s = .next (runJob 0x1002 r s (guardSt good stRange _)) := rfl
    refine ⟨fun g => ?_, fun g => ?_⟩ <;> rw [ends, g]
    · exact congrArg _ (runJob_refuse h)
    · exact congrArg _ (runJob_done h)
  case irq =>
    refine ⟨_, exec_irqTimeExpiry cpl time held new, rfl, by simp [Io.raise, bit_setBit], rfl, fun m => ?_⟩
    refine (Vector.at_upd ..).trans (if_congr ?_ rfl rfl)
    simp
  case silent =>
    show execHostSilenceTimeout _ = _
    rw [execHostSilenceTimeout, if_neg (by simp)]

end Sys2Proof.Machine
end

section
/-! The take of a descriptor (R57, R61, R63, R64): its ends, by what stands at the head of the ring whose turn it is. -/

namespace Sys2Proof.Machine

section
variable {s : State} {n : Nat} {es : List (List Byte)}

/-- The job that the whole chain `es` at the head of ring `n` would be (R63, R67, R87). -/
def jobTaken (s : State) (n : Nat) (es : List (List Byte)) : Job :=
  { opcode := BitVec.ofNat 16 (leNat (es.headD []) 0 2), req := reqOf n es, tAcc := now s
    cost := costOf (leNat (es.headD []) 0 2) (reqOf n es), entries := longest (leNat (es.headD []) 0 2) (reqOf n es)
    due := s.clk.tb + 4 * classBound (reqOf n es).cls, demands := demandsNow s }

theorem exec_descriptorTake_bad (h : serving s = true) (next : nextRing s = some n) (head : headChain s.io n = .bad es) :
    exec .descriptorTake s =
      .next (refuseTake (advance s n es.length) (leNat (es.headD []) 0 2) (reqOf n es) stFormat []) := by
  show execDescriptorTake s = _
  rw [execDescriptorTake, h, next]; dsimp only
  rw [head]; rfl

theorem exec_descriptorTake_refused (h : serving s = true) (next : nextRing s = some n) (head : headChain s.io n = .whole es) {st : W16}
    (check : takeCheck s n (leNat (es.headD []) 0 2) (reqOf n es) (tailZero es) (jobTaken s n es) = some st) :
    exec .descriptorTake s = .next
      (refuseTake (advance s n es.length) (leNat (es.headD []) 0 2) (reqOf n es) st (refusalResult s st (jobTaken s n es))) := by
  show execDescriptorTake s = _
  rw [execDescriptorTake, h, next]; dsimp only
  rw [head]; dsimp only
  unfold jobTaken at check
  rw [check]; rfl

theorem exec_descriptorTake_accepted (h : serving s = true) (next : nextRing s = some n) (head : headChain s.io n = .whole es)
    (check : takeCheck s n (leNat (es.headD []) 0 2) (reqOf n es) (tailZero es) (jobTaken s n es) = none) :
    exec .descriptorTake s = .next
      { s with io := { (advance s n es.length).io with jobs := s.io.jobs ++ [jobTaken s n es] } } := by
  show execDescriptorTake s = _
  rw [execDescriptorTake, h, next]; dsimp only
  rw [head]; dsimp only
  unfold jobTaken at check
  rw [check]; rfl

theorem advance_q_same (s : State) {n : Nat} (k : Nat) (h : n < 64) :
    ((advance s n k).io.q n).icsisPtr = ((s.io.q n).icsisPtr + k) % (s.io.q n).n := by
  have at_n : (advance s n k).io.q n = { s.io.q n with icsisPtr := ((s.io.q n).icsisPtr + k) % (s.io.q n).n } := Io.updQ_q_same _ _ h
  rw [at_n]

theorem advance_q_ne (s : State) {n m : Nat} (k : Nat) (h : m ≠ n) : (advance s n k).io.q m = s.io.q m := Io.updQ_q_ne _ _ h

end

/-- Settles O7: each end of the take by its own law; the queues of an accepted job are those of `advance`. -/
theorem descriptorTakeAcceptsOrRefuses : Obligations.DescriptorTakeAcceptsOrRefuses := by
  refine fun s serves => ⟨fun next => ?nothing, fun n es next head => exec_descriptorTake_bad serves next head, fun n es next head =>
    ⟨fun st check => exec_descriptorTake_refused serves next head check, fun check => ?accepted⟩⟩
  case nothing =>
    show execDescriptorTake s = _
    rw [execDescriptorTake, serves, next]; rfl
  case accepted =>
    exact ⟨_, exec_descriptorTake_accepted serves next head check, rfl, rfl, advance_q_same s _, fun m => advance_q_ne s _⟩

end Sys2Proof.Machine
end

section
/-! The demand commands (R92, R108, R109, R230 to R233, R237 to R239): what a stop asks for, and the checks of each payload. -/

namespace Sys2Proof.Machine

/-! The stop ramp (R108, R109, R246). -/

/-- A stop ramp that begins looks at the drive and the contexts only. -/
theorem startRamp_frame (s : State) (k : RampKind) (ms : Nat) : startRamp s k ms =
    { s with drv := { s.drv with ramp := some { kind := k, ms := ms, startAt := s.clk.tb, endsAt := s.clk.tb + 4000000 * ms } }
             thk := (startRamp s k ms).thk } := by
  have fold (l : List CtxImg) (u : State) : l.foldl (fun s i => updCtx s i.num fun x => { x with zeroDone := false }) u =
      { u with thk := (l.foldl (fun s i => updCtx s i.num fun x => { x with zeroDone := false }) u).thk } := by
    induction l generalizing u with
    | nil => rfl
    | cons i l ih => exact (ih _).trans rfl
  exact fold ..

theorem askRamp_dmd (s : State) (k : RampKind) (ms : Nat) : (askRamp s k ms).dmd = s.dmd := by
  unfold askRamp; split
  · rw [startRamp_frame]
  · dsimp only; split <;> rfl

/-- A further ramp takes effect only where it would end earlier, and CTL_STOP leaves the kind of the ramp under way (R109). -/
theorem askRamp_command (s : State) (ms : Nat) : ∃ p, (askRamp s .command ms).drv.ramp = some p ∧
    p.endsAt = s.drv.ramp.elim (s.clk.tb + 4000000 * ms) (fun q => min q.endsAt (s.clk.tb + 4000000 * ms)) ∧
    p.kind = s.drv.ramp.elim .command (·.kind) := by
  unfold askRamp
  cases s.drv.ramp with
  | none => exact ⟨_, by rw [startRamp_frame], rfl, rfl⟩
  | some q =>
    have kind : (if q.kind == .monitor then RampKind.monitor else if RampKind.command == .thermal then .thermal else q.kind) = q.kind := by
      cases q.kind <;> rfl
    dsimp only
    split
    next earlier => exact ⟨_, rfl, (Nat.min_eq_right earlier.le).symm, kind⟩
    next later => exact ⟨_, rfl, (Nat.min_eq_left (Nat.le_of_not_lt later)).symm, kind⟩

/-- In stages 1 to 3 of a catch a stop waits for the end of the stage (R246). -/
theorem askStop_waits (s : State) (k : RampKind) (ms : Nat) (m : Fin 2) (h : (s.dmd.catch_.at m).early = true) :
    ((askStop s k ms).dmd.catch_.at m).stop = true := by
  have dmd (c : Bool) : (if c then askRamp s k ms else s).dmd = s.dmd := by
    split
    · exact askRamp_dmd ..
    · rfl
  unfold askStop; dsimp only
  rw [Vector.at_map _ _ m.isLt, dmd, stopCatch, if_pos h]

/-- Past those stages the ramp begins at once. -/
theorem askStop_drv (s : State) (k : RampKind) (ms : Nat) (h : catchEarly s = false) : (askStop s k ms).drv = (askRamp s k ms).drv := by
  simp [askStop, h]

section
variable {r : Req} {s : State}

/-- A job with one check of its operands, which holds (R69). -/
theorem runJob_guard_true {op : Nat} {good : Bool} {st st' : W16} {t : State} {result : List Byte} (h : applies op r s) (g : good = true) :
    runJob op r s (guardSt good st (.done t st' result)) = complete t op r st' result := by rw [g]; exact runJob_done h

theorem runJob_guard_false {op : Nat} {good : Bool} {st : W16} {body : Done} (h : applies op r s) (g : good = false) :
    runJob op r s (guardSt good st body) = complete s op r st [] := by rw [g]; exact runJob_refuse h

/-- The two ends of such a job, where the check is read as a proposition. -/
theorem runJob_guard_iff {op : Nat} (h : applies op r s) {g : Bool} {good : Prop} (iff : g = true ↔ good) (t : State) (st : W16) :
    (¬good → runJob op r s (guardSt g stRange (.done t st [])) = complete s op r stRange []) ∧
    (good → runJob op r s (guardSt g stRange (.done t st [])) = complete t op r st []) :=
  ⟨fun n => runJob_guard_false h (Bool.eq_false_iff.2 (mt iff.1 n)), fun y => runJob_guard_true h (iff.2 y)⟩

/-- What CTL_MODE may name (R230 to R232, R611). -/
def modeGood (s : State) (r : Req) : Prop :=
  formOk r 4 = true ∧ zeroAt r 11 1 = true ∧ fieldAt r 8 1 ≤ 1 ∧
    ((fieldAt r 9 1 = 0 ∧ fieldAt r 10 1 ≤ 7) ∨ (fieldAt r 9 1 = 1 ∧ fieldAt r 10 1 ≤ 3 ∧ curveFits s (fieldAt r 10 1) (fieldAt r 8 1) = true) ∨
      (fieldAt r 9 1 = 2 ∧ fieldAt r 10 1 = 0 ∧ fieldAt r 8 1 = 0 ∧ crdMember s = true))

theorem exec_ctlMode (h : applies 0x2010 r s) :
    (¬modeGood s r → exec (.ctlMode r) s = .next (complete s 0x2010 r stRange [])) ∧
    (modeGood s r → exec (.ctlMode r) s = .next (complete
      { s with dmd := { s.dmd with mode := fieldAt r 8 1, src := fieldAt r 9 1, srcArg := fieldAt r 10 1 } } 0x2010 r stOk [])) := by
  have iff : (formOk r 4 && decide (fieldAt r 8 1 ≤ 1) && decide (fieldAt r 9 1 ≤ 2) &&
      (if fieldAt r 9 1 = 0 then decide (fieldAt r 10 1 ≤ 7)
        else if fieldAt r 9 1 = 1 then decide (fieldAt r 10 1 ≤ 3) && curveFits s (fieldAt r 10 1) (fieldAt r 8 1)
        else fieldAt r 10 1 == 0 && fieldAt r 8 1 == 0 && bit s.crd.cfg 63 && bit s.crd.cfg 62) && zeroAt r 11 1) = true ↔ modeGood s r := by
    unfold modeGood crdMember
    generalize fieldAt r 9 1 = src
    rcases src with _ | _ | _ | src <;> simp <;> tauto
  have ends := runJob_guard_iff h iff
    { s with dmd := { s.dmd with mode := fieldAt r 8 1, src := fieldAt r 9 1, srcArg := fieldAt r 10 1 } } stOk
  exact ⟨fun n => congrArg _ (ends.1 n), fun y => congrArg _ (ends.2 y)⟩

/-- ST_CLAMPED says that a message word lies outside the limits in force (R92). -/
def setpointStatus (s : State) (k : Nat) (v : Int) : W16 :=
  if (setpointLimits s k).any fun l => decide (v < l.1) || decide (l.2 < v) then stClamped else stOk

theorem setpointStatus_clamped {k : Nat} {v : Int} (h : ∃ l ∈ setpointLimits s k, v < l.1 ∨ l.2 < v) : setpointStatus s k v = stClamped :=
  if_pos (by simpa using h)

theorem setpointStatus_ok {k : Nat} {v : Int} (h : ∀ l ∈ setpointLimits s k, l.1 ≤ v ∧ v ≤ l.2) : setpointStatus s k v = stOk :=
  if_neg (by simpa using h)

theorem exec_ctlSetpoint_none (h : applies 0x2011 r s) (w : sext18? (fieldAt r 12 4) = none) :
    exec (.ctlSetpoint r) s = .next (complete s 0x2011 r stRange []) := by
  show execCtlSetpoint r s = _
  rw [execCtlSetpoint, w]
  exact congrArg _ (runJob_refuse h)

theorem exec_ctlSetpoint_some (h : applies 0x2011 r s) {v : W18} (w : sext18? (fieldAt r 12 4) = some v) :
    (¬(formOk r 8 = true ∧ fieldAt r 8 1 ≤ 7 ∧ zeroAt r 9 3 = true) →
      exec (.ctlSetpoint r) s = .next (complete s 0x2011 r stRange [])) ∧
    (formOk r 8 = true ∧ fieldAt r 8 1 ≤ 7 ∧ zeroAt r 9 3 = true → exec (.ctlSetpoint r) s = .next (complete
      { s with dmd := { s.dmd with msg := s.dmd.msg.put (fieldAt r 8 1) v } } 0x2011 r (setpointStatus s (fieldAt r 8 1) (s18 v)) [])) := by
  have iff : (formOk r 8 && decide (fieldAt r 8 1 ≤ 7) && zeroAt r 9 3) = true ↔
      formOk r 8 = true ∧ fieldAt r 8 1 ≤ 7 ∧ zeroAt r 9 3 = true := by simp [and_assoc]
  obtain ⟨bad, good⟩ := runJob_guard_iff h iff { s with dmd := { s.dmd with msg := s.dmd.msg.put (fieldAt r 8 1) v } }
    (setpointStatus s (fieldAt r 8 1) (s18 v))
  have ends : exec (.ctlSetpoint r) s = .next (runJob 0x2011 r s (guardSt (formOk r 8 && decide (fieldAt r 8 1 ≤ 7) && zeroAt r 9 3) stRange
      (.done { s with dmd := { s.dmd with msg := s.dmd.msg.put (fieldAt r 8 1) v } } (setpointStatus s (fieldAt r 8 1) (s18 v)) []))) := by
    show execCtlSetpoint r s = _
    rw [execCtlSetpoint, w]; rfl
  exact ⟨fun n => ends.trans (congrArg _ (bad n)), fun y => ends.trans (congrArg _ (good y))⟩

/-- The curve that a payload of CFG_CURVE gives, its words being `on`, `hyst`, `xs` and `ys` (R237). -/
def curveOf (r : Req) (on hyst : Int) (xs ys : List Int) : Curve :=
  { written := true, insel := (fieldAt r 9 1).testBit 0, outkind := (fieldAt r 9 1).testBit 1, inarg := fieldAt r 10 2, on := on
    hyst := hyst, xs := xs, ys := ys }

/-- The ranges of such a curve (R237, R238). -/
def curveInRange (r : Req) (on hyst : Int) (xs : List Int) : Bool :=
  formOk r 276 && decide (fieldAt r 8 1 ≤ 3) && decide (fieldAt r 9 1 < 4) &&
    decide (fieldAt r 10 2 < (if (fieldAt r 9 1).testBit 0 then 8 else 512)) && decide (0 ≤ hyst) && decide (hyst ≤ 65536) &&
    ascending xs && decide (-131072 ≤ on - hyst)

theorem curveInRange_iff (r : Req) (on hyst : Int) (xs : List Int) : curveInRange r on hyst xs = true ↔
    formOk r 276 = true ∧ fieldAt r 8 1 ≤ 3 ∧ fieldAt r 9 1 < 4 ∧ fieldAt r 10 2 < (if (fieldAt r 9 1).testBit 0 then 8 else 512) ∧
      0 ≤ hyst ∧ hyst ≤ 65536 ∧ ascending xs = true ∧ -131072 ≤ on - hyst := by
  simp only [Bool.and_eq_true, decide_eq_true_eq, and_assoc, curveInRange]

theorem exec_cfgCurve {on hyst : Int} {xs ys : List Int} (head : curveWords r 12 2 = some [on, hyst])
    (hx : curveWords r 20 33 = some xs) (hy : curveWords r 152 33 = some ys) : exec (.cfgCurve r) s = .next (runJob 0x1026 r s
      (guardSt (curveInRange r on hyst xs) stRange
        (ok { s with dmd := { s.dmd with pend := s.dmd.pend.put (fieldAt r 8 1) (some (curveOf r on hyst xs ys)) } }))) := by
  show execCfgCurve r s = _
  rw [execCfgCurve, head, hx, hy]; rfl

end
end Sys2Proof.Machine
end

section
/-! How a stop and the stages of a catch end (R109, R110, R241, R242, R245, R246, R469, R533). -/

namespace Sys2Proof.Machine

section
variable {s : State} {p : Ramp}

theorem exec_stopRampComplete (run : s.drv.st = .running) (ramp : s.drv.ramp = some p) (kind : p.kind ≠ .monitor)
    (early : catchEarly s = false) (zero : torqueZero s = true) : exec .stopRampComplete s =
      .next (if p.kind = .thermal then arrive s .thermal 0x9013 else arrive s .runEnd 0x2004) := by
  show execStopRampComplete s = _
  rw [execStopRampComplete, ramp]; dsimp only
  rw [if_neg (by simp [run, early, zero, kind])]
  cases e : p.kind with
  | monitor => exact absurd e kind
  | command | thermal => rfl

theorem exec_stopRampComplete_monitor (run : s.drv.st = .running) (ramp : s.drv.ramp = some p) (kind : p.kind = .monitor)
    (zero : rampZero s = true) : exec .stopRampComplete s = .next (arrive s .runStop 0x3030) := by
  show execStopRampComplete s = _
  rw [execStopRampComplete, ramp]; dsimp only
  rw [if_neg (by simp [run, kind, zero]), kind]

theorem exec_stopOverdue (run : s.drv.st = .running) (ramp : s.drv.ramp = some p) (kind : p.kind ≠ .monitor)
    (early : catchEarly s = false) (zero : torqueZero s = false) :
    exec .stopOverdue s = .next (arrive (record s 0x3020 noUnit 0) .runStop 0x3020) := by
  show execStopOverdue s = _
  rw [execStopOverdue, ramp]; dsimp only
  rw [if_pos (by simp [run, early, zero, kind])]

theorem exec_monitorStopTimeout (run : s.drv.st = .running) (ramp : s.drv.ramp = some p) (kind : p.kind = .monitor) :
    exec .monitorStopTimeout s = .next (arrive (recBlk s noUnit 0x3031) .runStop 0x3031) := by
  show execMonitorStopTimeout s = _
  rw [execMonitorStopTimeout, ramp]; dsimp only
  rw [if_pos (by simp [run, kind])]

/-- A stop that has waited for the end of a stage, with no ramp under way (R246). -/
theorem leaveStage_stopped {m : Fin 2} (stop : (s.dmd.catch_.at m).stop = true) (ramp : s.drv.ramp = none) (w : Int) :
    ∃ t, leaveStage s m w = t ∧ t = { s with dmd := t.dmd, drv := t.drv } ∧
      t.drv.events = s.drv.events ++ [if (s.dmd.catch_.at m).stopThermal then ⟨.thermal, 0x9013⟩ else ⟨.runEnd, 0x2004⟩] ∧
      (t.dmd.catch_.at m).stage = 0 := by
  refine ⟨_, rfl, ?_⟩
  have stage (c : Catch) (h : c.stage = 0) : ((s.dmd.catch_.put m c).at m).stage = 0 := by rwa [Vector.at_put_same _ _ m.isLt]
  rw [leaveStage, if_pos stop, endStopped, if_neg (by simp [ramp])]
  cases (s.dmd.catch_.at m).stopThermal <;> exact ⟨rfl, rfl, stage _ rfl⟩

/-- An alignment sets ABS of the observer that serves ANG_SRC (R323). -/
theorem alignObs_aligned {l : LawInst} {o : Nat} (theta : Int) (h : angObs s l = some o) (lt : o < 4) :
    ((alignObs s l theta).pos.obs.at o).aligned = true ∧ ((alignObs s l theta).pos.obs.at o).abs = true := by
  rw [alignObs, h]; dsimp only [updObs]
  rw [Vector.at_upd_same _ _ lt]; exact ⟨rfl, rfl⟩

section
variable {m : Fin 2} {ns : Nat} {i : CtxImg} {l : LawInst} {y : LawRun}

theorem exec_alignEnd (run : s.drv.st = .running) (law : dmdRun s m = some (i, l, y)) (stage : (s.dmd.catch_.at m).stage = 2) :
    exec (.alignEnd m) s = .next (leaveStage (alignObs s l 0) m 0) := by
  show execAlignEnd m s = _
  rw [execAlignEnd, law]; dsimp only
  rw [if_neg (by simp [run, stage])]

theorem exec_catchDetectEnd_early (law : dmdRun s m = some (i, l, y)) (due : detectDue s m l ns = false) :
    exec (.catchDetectEnd m ns) s = .next s := by
  show execCatchDetectEnd m ns s = _
  rw [execCatchDetectEnd, law]; dsimp only
  rw [if_pos (by simp [due])]

/-- A catch whose speed has been found, with DMD_REV (R248). -/
def found (s : State) (m : Nat) (i : CtxImg) (l : LawInst) (y : LawRun) (w : Int) : State :=
  updCatch s m fun k => { k with rev := catchRev s i l y w }

/-- The end of stage 1 with back-EMF detection whose angle has not turned both ways: the machine stands, and stage 2 begins or a stop that
waits ends the catch, or it turns, and the observer is aligned to its angle (R241, R242, R246). -/
def emfEnd (s : State) (m : Nat) (i : CtxImg) (l : LawInst) (y : LawRun) : State :=
  if emfWeak (s.dmd.catch_.at m) (s18 (paramAt s i.num 9)) then
    if (s.dmd.catch_.at m).stop then endStopped (found s m i l y (emfSpeed s m l.catchWin)) m
    else updCatch (found s m i l y (emfSpeed s m l.catchWin)) m fun k => { k with stage := 2, still := true }
  else leaveStage (alignObs (found s m i l y (emfSpeed s m l.catchWin)) l (emfAngle (s.dmd.catch_.at m) (emfSpeed s m l.catchWin))) m
    (emfSpeed s m l.catchWin)

/-- The end of stage 1, by whether back-EMF detection is in use and what it has found (R241, R245). -/
theorem exec_catchDetectEnd (run : s.drv.st = .running) (law : dmdRun s m = some (i, l, y)) (stage : (s.dmd.catch_.at m).stage = 1)
    (due : detectDue s m l ns = true) : exec (.catchDetectEnd m ns) s = .next
      (if (s.dmd.catch_.at m).bemf = false then leaveStage (found s m i l y (wordNow s i l.spdSrc)) m (wordNow s i l.spdSrc)
       else if (s.dmd.catch_.at m).fwd = true ∧ (s.dmd.catch_.at m).bwd = true then catchAbort s m
       else emfEnd s m i l y) := by
  show execCatchDetectEnd m ns s = _
  rw [execCatchDetectEnd, law]; dsimp only
  rw [if_neg (by simp [run, stage, due])]
  simp only [Bool.not_eq_true', Bool.and_eq_true, emfEnd, apply_ite Host.Outcome.next]
  rfl

/-- The mean magnitude lies below BEMF_MIN, or the window held no sample (R242; log entry 37). -/
theorem emfWeak_iff (k : Catch) (b : Int) : emfWeak k b = true ↔ k.samples = 0 ∨ (k.sumV : Int) < b * k.samples := by simp [emfWeak]

end
end

theorem updCatch_updCatch_at (s : State) (m : Fin 2) (f g : Catch → Catch) :
    (updCatch (updCatch s m f) m g).dmd.catch_.at m = g (f (s.dmd.catch_.at m)) := by
  simp [updCatch, Vector.at_put_same _ _ m.isLt]

/-- Settles O12: each command by the law of its checks, each end of a stop or of a stage by its own law. That a window without samples counts
as weak, and the kind of a ramp that CTL_STOP meets, are the model's (log entry 37). -/
theorem demandCommandsAndTheEndOfAStopTakeEffect : Obligations.DemandCommandsAndTheEndOfAStopTakeEffect := by
  refine ⟨fun r s => ⟨fun h => ⟨fun g => ?stopRange, fun g => ⟨?stop, askStop_waits s .command _, fun early => ?ramp⟩⟩, exec_ctlMode,
    fun h => ⟨fun bad => ?setpointRange, fun v w good => ?setpoint⟩, fun h on hyst xs ys head hx hy => ?curve⟩,
    fun s run => ⟨fun p ramp => ⟨exec_stopRampComplete run ramp, exec_stopRampComplete_monitor run ramp, exec_stopOverdue run ramp,
      exec_monitorStopTimeout run ramp⟩, fun m ns i l y law => ?stages⟩⟩
  case stopRange =>
    show execCtlStop r s = _
    rw [execCtlStop, g]; exact congrArg _ (runJob_refuse h)
  case stop =>
    show execCtlStop r s = _
    rw [execCtlStop, g]; exact congrArg _ (runJob_done h)
  case ramp =>
    obtain ⟨p, e, ends, kind⟩ := askRamp_command s (if fieldAt r 8 2 = 0 then s.drv.stopT else fieldAt r 8 2)
    refine ⟨p, (congrArg Drive.ramp (askStop_drv _ _ _ early)).trans e, ?_, ?_⟩
    · rw [ends]; cases s.drv.ramp <;> rfl
    · rw [kind]; cases s.drv.ramp <;> rfl
  case setpointRange =>
    cases w : sext18? (fieldAt r 12 4) with
    | none => exact exec_ctlSetpoint_none h w
    | some v => exact (exec_ctlSetpoint_some h w).1 (bad.resolve_left (by simp [w]))
  case setpoint => exact ⟨_, (exec_ctlSetpoint_some h w).2 good, setpointStatus_clamped, setpointStatus_ok⟩
  case curve =>
    have ends := runJob_guard_iff h (curveInRange_iff r on hyst xs)
      { s with dmd := { s.dmd with pend := s.dmd.pend.put (fieldAt r 8 1) (some (curveOf r on hyst xs ys)) } } stOk
    rw [exec_cfgCurve head hx hy]
    exact ⟨fun n => congrArg _ (ends.1 n), fun y => congrArg _ (ends.2 y)⟩
  case stages =>
    refine ⟨fun stage due => ⟨fun off => ?undetected, fun bemf f b => ?both, fun bemf one => ⟨fun weak => ⟨fun stop => ?stopped, fun on => ?still⟩,
      fun sampled strong => ?turns⟩⟩, fun stage => exec_catchDetectEnd_early law, fun stop ramp w => leaveStage_stopped stop ramp w,
      fun stage => ⟨exec_alignEnd run law stage, fun o => alignObs_aligned 0⟩⟩
    case undetected => exact (exec_catchDetectEnd run law stage due).trans (congrArg _ (if_pos off))
    case both => rw [exec_catchDetectEnd run law stage due, if_neg (by simp [bemf]), if_pos ⟨f, b⟩]
    all_goals
      have turned : ¬((s.dmd.catch_.at m).fwd = true ∧ (s.dmd.catch_.at m).bwd = true) := by
        rintro ⟨f, b⟩; simp [f, b] at one
      have e := exec_catchDetectEnd run law stage due
      rw [if_neg (by simp [bemf]), if_neg turned] at e
    case stopped => exact e.trans (congrArg _ ((if_pos ((emfWeak_iff ..).2 weak)).trans (if_pos stop)))
    case still =>
      refine ⟨_, e.trans (congrArg _ ((if_pos ((emfWeak_iff ..).2 weak)).trans (if_neg (by simp [on])))), rfl, ?_⟩
      rw [found, updCatch_updCatch_at]; exact ⟨rfl, rfl, rfl⟩
    case turns =>
      refine e.trans (congrArg _ (if_neg fun weak => ?_))
      rcases (emfWeak_iff ..).1 weak with n | n
      · exact sampled n
      · exact absurd n (not_lt.2 strong)

end Sys2Proof.Machine
end

section
/-! What the queries answer, and what reading leaves alone (R60, R83, R85 to R89, R107, R569, R577, R646, R660, R686). -/

namespace Sys2Proof.Machine

/-! Reading a CAN controller leaves the other three alone (R569, R577). -/

/-- From `s` to `t` the CAN controllers other than `c` are unchanged. -/
structure OtherCans (c : Nat) (s t : State) : Prop where
  can : ∀ k, k ≠ c → t.can.at k = s.can.at k

section
variable {c : Nat} {s t u : State}

theorem OtherCans.trans (h : OtherCans c s t) (k : OtherCans c t u) : OtherCans c s u := ⟨fun i hi => (k.can i hi).trans (h.can i hi)⟩

theorem OtherCans.ite {p : Prop} [Decidable p] (ht : OtherCans c s t) (hu : OtherCans c s u) : OtherCans c s (if p then t else u) := by
  split <;> assumption

theorem OtherCans.refl (s : State) : OtherCans c s s := ⟨fun _ _ => rfl⟩

theorem updCan_otherCans (s : State) (f : Can → Can) : OtherCans c s (updCan s c f) := ⟨fun _ hk => Vector.at_upd_ne _ _ hk⟩

theorem canFlag_otherCans (s : State) (i : Nat) (code : W16) : OtherCans c s (canFlag s c i code) :=
  .ite (.refl s) ⟨fun k hk => by rw [recCan, record_can]; exact (updCan_otherCans s _).can k hk⟩

theorem msgPath_otherCans (s : State) (o : Nat) : OtherCans c s (msgPath s c o) := by
  unfold msgPath; dsimp only
  split
  · exact .refl s
  · refine .ite (.refl s) ?_
    refine .ite ((updCan_otherCans s _).trans (updCan_otherCans ..)) ?_
    split
    · exact (updCan_otherCans s _).trans ⟨fun _ _ => rfl⟩
    · exact (updCan_otherCans s _).trans (updCan_otherCans ..)

theorem putFrame_otherCans (s : State) (o : Nat) (f : CanFrame) (lost : Bool) : OtherCans c s (putFrame s c o f lost) :=
  ((updCan_otherCans s _).trans (.ite (canFlag_otherCans ..) (.refl _))).trans (msgPath_otherCans ..)

theorem unlock_otherCans (s : State) (o : Nat) (clears : Bool) : OtherCans c s (unlock s c o clears) := by
  unfold unlock; dsimp only
  split
  · exact (updCan_otherCans s _).trans (putFrame_otherCans ..)
  · exact updCan_otherCans s _

theorem readObj_otherCans (s : State) (o : Nat) : OtherCans c s (readObj s c o).2 := by
  unfold readObj
  exact (OtherCans.ite (unlock_otherCans ..) (.refl s)).trans (unlock_otherCans ..)

theorem readObjs_otherCans (s : State) (first n : Nat) : OtherCans c s (readObjs s c first n).2 := by
  induction n with
  | zero => exact .refl s
  | succ n ih => exact ih.trans (readObj_otherCans ..)

end

theorem length_padTo (n : Nat) (l : List Byte) : (padTo n l).length = n := by simp [padTo]; omega

/-- An object is 19 words (R568). -/
theorem objBytes_length (x : CanObj) : (objBytes x).length = 76 := by
  unfold objBytes; split
  · exact List.length_replicate
  · simp [leBytes_length, length_padTo]

theorem readObjs_length (s : State) (c first n : Nat) : (readObjs s c first n).1.length = 76 * n := by
  induction n with
  | zero => rfl
  | succ n ih =>
    rw [readObjs]; dsimp only
    rw [List.length_append, ih, readObj, objBytes_length]; omega

theorem telCan_length (s : State) (c first n : Nat) : (telCan s c first n).1.length = 40 + 76 * n := by
  simp [telCan, word4, leBytes_length, readObjs_length]; omega

/-- SEL 0xB0 to 0xB3 name the CAN controllers (R686). -/
theorem telemetry_can (s : State) {sel : Nat} (first n : Nat) (lo : 0xB0 ≤ sel) (hi : sel ≤ 0xB3) :
    telemetry s sel first n = some (telCan s (sel - 0xB0) first n) := by
  have : sel = 0xB0 ∨ sel = 0xB1 ∨ sel = 0xB2 ∨ sel = 0xB3 := by omega
  rcases this with rfl | rfl | rfl | rfl <;> rfl

/-! Reading anything else (R646, R686). -/

/-- A check unit changed changes the check units and, where it records a mismatch, the log and the trace (R642). -/
theorem putChk_frame (s : State) (k : Nat) (u : Chk) :
    putChk s k u = { s with chk := (putChk s k u).chk, io := (putChk s k u).io, trc := (putChk s k u).trc } := by
  unfold putChk; dsimp only; split
  · rw [record_quiet _ _ _ (by decide)]
  · rfl

theorem readChks_frame (s : State) :
    readChks s = { s with chk := (readChks s).chk, io := (readChks s).io, trc := (readChks s).trc } := by
  unfold readChks
  generalize List.range 8 = l
  induction l generalizing s with
  | nil => rfl
  | cons k l ih => rw [List.foldl_cons, ih, putChk_frame]

/-- Reading telemetry of anything but a CAN controller takes free values or reads the check units, and changes nothing else. -/
theorem telemetry_other {s t : State} {sel first n : Nat} {l : List Byte} (out : sel < 0xB0 ∨ 0xB3 < sel)
    (e : telemetry s sel first n = some (l, t)) : t = { s with free := t.free } ∨ sel = 0xD0 ∧ t = readChks s := by
  unfold telemetry at e
  split at e
  case h_15 | h_16 | h_17 | h_18 => omega
  case h_19 => cases e; exact .inr ⟨rfl, rfl⟩
  case h_20 => cases e
  all_goals cases e; exact .inl rfl

/-! The queries themselves. -/

section
variable {r : Req} {s : State}

/-- QRY_CONFIG where its arguments name something: in COPPICE only WHAT 0 and 1 answer, with zeros (R86). -/
theorem exec_qryConfig_some {l : List Byte} (h : applies 0x3003 r s)
    (e : configBytes s (fieldAt r 8 1) (fieldAt r 9 1) (fieldAt r 10 1) (fieldAt r 11 1) (fieldAt r 12 1) = some l) :
    exec (.qryConfig r) s = .next
      (if formOk r 5 = false then complete s 0x3003 r stRange []
       else if s.drv.st = .coppice then
         if fieldAt r 8 1 ≤ 1 then complete s 0x3003 r stOk (List.replicate l.length 0) else complete s 0x3003 r stBusy []
       else complete (if fieldAt r 8 1 = 4 then lawConstsTaken s (fieldAt r 9 1) else if fieldAt r 8 1 = 2 then freeTaken s else s)
         0x3003 r stOk l) := by
  show execQryConfig r s = _
  rw [execQryConfig, e]; dsimp only
  congr 1
  cases f : formOk r 5
  · exact runJob_refuse h
  · by_cases co : s.drv.st = .coppice
    · by_cases w : fieldAt r 8 1 ≤ 1
      · simp [co, w, runJob_done h]
      · simp [co, w, runJob_refuse h]
    · simp [co, runJob_done h]

/-- QRY_TELEMETRY of anything but a CAN controller (R686). -/
theorem exec_qryTelemetry_other {l : List Byte} {t : State} (h : applies 0x3004 r s) (out : fieldAt r 8 1 < 0xB0 ∨ 0xB3 < fieldAt r 8 1)
    (form : formOk r 1 = true) (e : telemetry s (fieldAt r 8 1) 0 0 = some (l, t)) :
    exec (.qryTelemetry r) s = .next (complete t 0x3004 r stOk l) := by
  have can : (decide (0xB0 ≤ fieldAt r 8 1) && decide (fieldAt r 8 1 ≤ 0xB3)) = false := by simp; omega
  show execQryTelemetry r s = _
  unfold execQryTelemetry; dsimp only
  rw [can]; simp only [Bool.false_eq_true, if_false]
  rw [e]; exact congrArg _ (runJob_guard_true h (by simp [form]))

/-- QRY_TELEMETRY of a CAN controller: FIRST and N name objects (R577). -/
theorem exec_qryTelemetry_can (h : applies 0x3004 r s) (lo : 0xB0 ≤ fieldAt r 8 1) (hi : fieldAt r 8 1 ≤ 0xB3)
    (form : formOk r 3 = true) (n16 : fieldAt r 10 1 ≤ 16) (n128 : fieldAt r 9 1 + fieldAt r 10 1 ≤ 128) {l : List Byte} {t : State}
    (e : telemetry s (fieldAt r 8 1) (fieldAt r 9 1) (fieldAt r 10 1) = some (l, t)) :
    exec (.qryTelemetry r) s = .next (complete t 0x3004 r stOk l) := by
  show execQryTelemetry r s = _
  unfold execQryTelemetry; dsimp only
  simp only [lo, hi, decide_true, Bool.and_self, if_true]
  rw [e]; exact congrArg _ (runJob_guard_true h (by simp [form, n16, n128]))

end

/-- Settles O45: each query by its one check and what its result is read from. That an outstanding QRY_CAPACITY answers the demands of its
take is the model's (log entries 21 and 58). -/
theorem queriesAnswerTheirResults : Obligations.QueriesAnswerTheirResults := by
  refine fun r s => ⟨fun h => ⟨fun g => ?state, fun g => ?stateRange⟩, fun h => ⟨fun g => ?status, fun g => ?statusRange⟩,
    fun h => ⟨fun bad => ?configRange, fun l e g => ⟨fun co => ?config, fun co w => ?zeros, fun co w => ?busy⟩⟩,
    fun h => ⟨fun l t out g e => ⟨exec_qryTelemetry_other h out g e, ?reads⟩, fun l t lo hi g n16 n128 e => ⟨?canRead, ?canLength, ?canOthers⟩⟩,
    fun h g => ?capacity, fun h g op len z => ?cost, fun h g src lo hi z => ?log, fun h => ⟨fun g z => ?report, fun g z => ?endorse⟩⟩
  case state | status => exact congrArg _ (runJob_guard_true h g)
  case stateRange | statusRange => exact congrArg _ (runJob_guard_false h g)
  case configRange =>
    cases e : configBytes s (fieldAt r 8 1) (fieldAt r 9 1) (fieldAt r 10 1) (fieldAt r 11 1) (fieldAt r 12 1) with
    | none =>
      show execQryConfig r s = _
      rw [execQryConfig, e]; exact congrArg _ (runJob_refuse h)
    | some l => rw [exec_qryConfig_some h e, if_pos (bad.resolve_left (by simp [e]))]
  case config => rw [exec_qryConfig_some h e, if_neg (by simp [g]), if_neg co]
  case zeros => rw [exec_qryConfig_some h e, if_neg (by simp [g]), if_pos co, if_pos w]
  case busy => rw [exec_qryConfig_some h e, if_neg (by simp [g]), if_pos co, if_neg (by omega)]
  case reads =>
    rcases telemetry_other out e with free | ⟨d0, chks⟩
    · rw [free]; exact ⟨rfl, fun _ => ⟨rfl, rfl⟩⟩
    · rw [chks]; exact ⟨by rw [readChks_frame], fun ne => absurd d0 ne⟩
  case canRead => exact exec_qryTelemetry_can h lo hi g n16 n128 e
  case canLength =>
    cases (telemetry_can s _ _ lo hi).symm.trans e
    exact telCan_length ..
  case canOthers =>
    cases (telemetry_can s _ _ lo hi).symm.trans e
    exact (readObjs_otherCans ..).can
  case capacity => exact congrArg _ (runJob_guard_true h g)
  case cost => exact ⟨_, congrArg _ (runJob_guard_true h (by simp [g, op, len, z]))⟩
  case log =>
    refine (congrArg _ (runJob_guard_true h (by simp [g, src, lo, hi, z]))).trans ?_
    unfold logResult logFrom logOf; dsimp only
    split <;> rfl
  case report => exact congrArg _ (runJob_guard_true h (by simp [g, z]))
  case endorse => exact congrArg _ (runJob_guard_true h (by simp [g, z]))

end Sys2Proof.Machine
end

section
/-! The diagnostic commands (R89, R90, R552, R553): the trace, injections and the ageing records. -/

namespace Sys2Proof.Machine

/-! What an injection leaves alone: flash and the clocks (R90). -/

/-- From `s` to `t` neither flash nor the clocks have changed. -/
structure SameFlashClock (s t : State) : Prop where
  nv : t.nv = s.nv
  clk : t.clk = s.clk

section
variable {s t u : State}

namespace SameFlashClock

theorem refl (s : State) : SameFlashClock s s := ⟨rfl, rfl⟩

theorem trans (h : SameFlashClock s t) (k : SameFlashClock t u) : SameFlashClock s u := ⟨k.nv.trans h.nv, k.clk.trans h.clk⟩

theorem ite {c : Prop} [Decidable c] (ht : SameFlashClock s t) (hu : SameFlashClock s u) : SameFlashClock s (if c then t else u) := by
  split <;> assumption

theorem foldl {α : Type} {f : State → α → State} {l : List α} (hf : ∀ u x, SameFlashClock u (f u x)) : SameFlashClock s (l.foldl f s) := by
  induction l generalizing s with
  | nil => exact refl s
  | cons x l ih => exact (hf s x).trans ih

/-- A change of other fields. -/
theorem same (h : SameFlashClock s t) (hn : u.nv = t.nv) (hc : u.clk = t.clk) : SameFlashClock s u := h.trans ⟨hn, hc⟩

theorem wrote (h : SameFlashClock s t) (w : Machine.wroteOut t u) : SameFlashClock s u := h.same w.nv w.clk

theorem record {code : W16} {unit : Nat} {data0 : W32} (h : SameFlashClock s t) : SameFlashClock s (record t code unit data0) :=
  h.same (record_nv ..) (record_clk ..)

theorem arrive {k : EvKind} {cause : W16} (h : SameFlashClock s t) : SameFlashClock s (arrive t k cause) := h.same rfl rfl

theorem updPrt {f : Prt → Prt} (h : SameFlashClock s t) : SameFlashClock s (updPrt t f) := h.same rfl rfl

theorem updGdv {ch : Nat} {f : GdvChan → GdvChan} (h : SameFlashClock s t) : SameFlashClock s (updGdv t ch f) := h.same rfl rfl

theorem noteUnits (h : SameFlashClock s t) : SameFlashClock s (noteUnits t) := h.same rfl rfl

end SameFlashClock

theorem chopperFault_sameFlashClock (h : SameFlashClock s t) : SameFlashClock s (chopperFault t) := by
  unfold chopperFault; exact .ite h (.wrote h.updPrt.record (publishRegen_wroteOut _))

theorem legFault_sameFlashClock {ch : Nat} {code : W16} (h : SameFlashClock s t) : SameFlashClock s (legFault t ch code) := by
  have held : SameFlashClock s (updUnit (noteUnits t) (ch / 2) fun u => { u with legHold := true }) := h.noteUnits.same rfl rfl
  unfold legFault
  exact .arrive (.same held.record rfl rfl)

theorem channelLost_sameFlashClock {ch : Nat} {code : W16} (h : SameFlashClock s t) : SameFlashClock s (channelLost t ch code) := by
  unfold channelLost dischargeFail auxFault
  exact .ite (.ite (legFault_sameFlashClock h) h) (.ite (.ite (chopperFault_sameFlashClock h) h)
    (.ite (.ite h h.updPrt.record) h.updPrt.record))

theorem actPattern_sameFlashClock {m : Nat} (h : SameFlashClock s t) : SameFlashClock s (actPattern t m) := h.noteUnits.updPrt

theorem legTrip_sameFlashClock {k : Nat} {code : W16} (h : SameFlashClock s t) : SameFlashClock s (legTrip t k code) := by
  unfold legTrip
  exact .arrive (.ite (.record h.noteUnits.updPrt) h.noteUnits.updPrt)

theorem phaseDesat_sameFlashClock {ch : Nat} (h : SameFlashClock s t) : SameFlashClock s (phaseDesat t ch) := by
  unfold phaseDesat
  exact .ite (actPattern_sameFlashClock (.updPrt (.noteUnits (legTrip_sameFlashClock h)))) h

theorem assertTrip_sameFlashClock {i : Nat} (h : SameFlashClock s t) : SameFlashClock s (assertTrip t i) := by
  unfold assertTrip
  exact .ite h.updPrt (.ite (actPattern_sameFlashClock (legTrip_sameFlashClock (.record (.updPrt (.noteUnits h.updPrt)))))
    (.ite (chopperFault_sameFlashClock (.updPrt h.updPrt)) h.updPrt))

theorem ovReact_sameFlashClock (h : SameFlashClock s t) : SameFlashClock s (ovReact t) := by
  unfold ovReact
  exact .arrive (actPattern_sameFlashClock (actPattern_sameFlashClock (.record h.updPrt)))

theorem uvReact_sameFlashClock (h : SameFlashClock s t) : SameFlashClock s (uvReact t) := by
  unfold uvReact
  exact .arrive (actPattern_sameFlashClock (actPattern_sameFlashClock (.record h.updPrt)))

theorem rmemDouble_sameFlashClock {g a : Nat} {readers : List Nat} (h : SameFlashClock s t) :
    SameFlashClock s (rmemDouble t g a readers) := by
  have read : SameFlashClock s (readers.foldl rmemReader t) := h.trans (.foldl fun _ _ => ⟨rfl, rfl⟩)
  have word {u : State} (k : SameFlashClock s u) : SameFlashClock s (afterRmemError u g a) := by
    unfold afterRmemError
    exact .ite (.wrote (k.same rfl rfl) (putBank_wroteOut ..)) (k.wrote (putState_wroteOut ..))
  unfold rmemDouble
  exact .ite (.arrive (.same (word read.record) rfl rfl)) (word read.record)

theorem injectAt_sameFlashClock {target inst arg : Nat} (h : SameFlashClock s t) : SameFlashClock s (injectAt t target inst arg) := by
  unfold injectAt
  split
  · unfold injectLockout
    exact .ite h (.updGdv (channelLost_sameFlashClock h.updGdv))
  · unfold injectDesat
    exact .ite h (.ite (phaseDesat_sameFlashClock h.updGdv.record) (.ite (chopperFault_sameFlashClock h.updGdv.record) h.updGdv.record))
  · unfold injectTrip
    exact assertTrip_sameFlashClock (.record (h.same rfl rfl))
  · exact .ite h (ovReact_sameFlashClock h)
  · exact .ite h (uvReact_sameFlashClock h)
  · exact rmemDouble_sameFlashClock h
  · exact h.same rfl rfl

/-- An injection ends with the mark INJ, and TARGET 1 to 5 with the lines of the trip path, as they were before it (R90). -/
theorem inject_ends (s : State) (target inst arg : Nat) : (inject s target inst arg).io.inj = s.io.inj ∧
    (target ≤ 5 → (inject s target inst arg).prt.tripLine = s.prt.tripLine ∧ (inject s target inst arg).prt.act = s.prt.act ∧
      (inject s target inst arg).prt.legOff = s.prt.legOff) ∧ SameFlashClock s (inject s target inst arg) := by
  have same : SameFlashClock s (injectAt { s with io := { s.io with inj := true } } target inst arg) :=
    injectAt_sameFlashClock ⟨rfl, rfl⟩
  unfold inject; dsimp only
  split
  next lines => exact ⟨rfl, fun _ => ⟨rfl, rfl, rfl⟩, same.trans ⟨rfl, rfl⟩⟩
  next other => exact ⟨rfl, fun le => absurd le other, same.trans ⟨rfl, rfl⟩⟩

end

section
variable {r : Req} {s : State}

/-! DIA_INJECT (R90, R501). -/

/-- The ends of DIA_INJECT without an injection. -/
theorem exec_diaInject_refused (h : applies 0x6003 r s) (ns : W32) (st : W16)
    (bad : injectOk r = false ∧ st = stRange ∨ injectOk r = true ∧ s.icp.split = true ∧ st = stBusy) :
    exec (.diaInject r ns) s = .next (complete s 0x6003 r st []) := by
  show execDiaInject r ns s = _
  unfold execDiaInject; dsimp only
  rcases bad with ⟨range, rfl⟩ | ⟨range, split, rfl⟩
  · simp only [range, Bool.and_false, Bool.false_and, Bool.false_eq_true, if_false]
    exact congrArg _ (runJob_guard_false h rfl)
  · simp only [range, split, Bool.not_true, Bool.and_false, Bool.false_and, Bool.false_eq_true, if_false]
    exact congrArg _ (runJob_refuse h)

theorem exec_diaInject_reacts (h : applies 0x6003 r s) (ns : W32) (range : injectOk r = true) (split : s.icp.split = false)
    (target : fieldAt r 8 1 ≠ 7) : exec (.diaInject r ns) s = .next (complete (inject s (fieldAt r 8 1) (fieldAt r 9 1) (fieldAt r 12 4))
      0x6003 r stOk (leBytes 2 (firstCode s.io (inject s (fieldAt r 8 1) (fieldAt r 9 1) (fieldAt r 12 4)).io) ++ [0, 0] ++
        leBytes 4 ns.toNat)) := by
  show execDiaInject r ns s = _
  unfold execDiaInject; dsimp only
  simp only [target, range, split, decide_false, Bool.false_and, Bool.false_eq_true, if_false]
  exact congrArg _ (runJob_done h)

/-- TARGET 7 completes the job and has the pair differ (R501). -/
theorem exec_diaInject_mismatch (h : applies 0x6003 r s) (ns : W32) (range : injectOk r = true) (split : s.icp.split = false)
    (target : fieldAt r 8 1 = 7) :
    exec (.diaInject r ns) s = .next (injectMismatch (complete s 0x6003 r stOk []) (fieldAt r 9 1)) := by
  show execDiaInject r ns s = _
  have runs : jobRuns s 0x6003 r = true := by simp [jobRuns, h.1, h.2.1, h.2.2]
  unfold execDiaInject; dsimp only
  simp only [target, range, split, runs, decide_true, Bool.not_false, Bool.and_self, if_true]
  exact congrArg (fun t => Host.Outcome.next (injectMismatch t _)) (runJob_done h)

theorem complete_icp (s : State) (op : Nat) (r : Req) (st : W16) (result : List Byte) : (complete s op r st result).icp = (sealCp s).icp := by
  simp only [complete, completeRaw, writeDone_icp, jobGone_icp]

/-- A mismatch that is injected is counted in MCNT and not in REC (R90). -/
theorem injectMismatch_pair (s : State) (group : Nat) : (injectMismatch s group).icp = { s.icp with held := true, mismatchLine := true } ∧
    (injectMismatch s group).aon.mcnt.toNat = satInc 255 s.aon.mcnt.toNat := by
  have le : satInc 255 s.aon.mcnt.toNat < 256 := by
    have := s.aon.mcnt.isLt
    unfold satInc; split <;> omega
  unfold injectMismatch
  rw [blkStep_frame]
  exact ⟨rfl, (BitVec.toNat_ofNat ..).trans (Nat.mod_eq_of_lt le)⟩

/-! DIA_TRACE (R89). -/

/-- TRC_STAT of an armed capture: ARMED, and the trigger not yet seen. -/
theorem armedStat_bits {n : Nat} (h : n < 256) : bit (BitVec.ofNat 32 (2 ^ 31 + n * 2 ^ 17)) 31 = true ∧
    bit (BitVec.ofNat 32 (2 ^ 31 + n * 2 ^ 17)) 30 = false := by
  have low : n * 2 ^ 17 < 2 ^ 30 := by omega
  have top : (2 ^ 31 + n * 2 ^ 17).testBit 31 = true := by
    rw [Nat.testBit_two_pow_add_eq, Nat.testBit_lt_two_pow (by omega)]; rfl
  have next : (2 ^ 31 + n * 2 ^ 17).testBit 30 = false := by
    rw [Nat.testBit_two_pow_add_gt (by decide), Nat.testBit_lt_two_pow low]
  simp only [bit, BitVec.getLsbD_ofNat, top, next]
  decide

theorem fieldAt_one_lt (r : Req) (o : Nat) : fieldAt r o 1 < 256 := by
  have byte := (r.pay.getD (o - 8) 0).isLt
  simp [fieldAt, leNat, byteAt]
  omega

/-! DIA_AGEING (R552). -/

/-- The state of STATUS_CLR: the sites of the mask with their flag cleared. -/
def sitesCleared (s : State) (m : Nat) (l : List Nat) : State :=
  l.foldl (fun s k => if m.testBit k then updSite s k fun a => { a with word := setBit a.word 18 false } else s) s

theorem sitesCleared_frame (s : State) (m : Nat) (l : List Nat) :
    sitesCleared s m l = { s with nv := { s.nv with age := (sitesCleared s m l).nv.age } } := by
  induction l generalizing s with
  | nil => rfl
  | cons k l ih =>
    rw [sitesCleared, List.foldl_cons]
    refine (ih _).trans ?_
    split <;> rfl

/-- Every site that the mask and the list name has its flag cleared, once, and any other is as before. -/
theorem sitesCleared_at (s : State) (m : Nat) {l : List Nat} (nd : l.Nodup) {i : Nat} (lt : i < 10) : (sitesCleared s m l).nv.age.at i =
    if i ∈ l ∧ m.testBit i = true then { s.nv.age.at i with word := setBit (s.nv.age.at i).word 18 false } else s.nv.age.at i := by
  induction l generalizing s with
  | nil => simp [sitesCleared]
  | cons k l ih =>
    obtain ⟨fresh, nd⟩ := List.nodup_cons.1 nd
    rw [sitesCleared, List.foldl_cons]
    refine (ih _ nd).trans ?_
    by_cases e : i = k
    · subst e
      cases b : m.testBit i <;> simp [fresh, updSite, Vector.at_upd_same _ _ lt]
    · cases b : m.testBit k <;> simp [e, updSite, Vector.at_upd_ne _ _ e]

end

/-- Settles O46: each command by its checks and what its result is read from; an injection by what `inject` leaves alone. That the trip lines
are as before an injection, and the words of a capture, are the model's (log entries 22 and 52). -/
theorem diagnosticCommandsTakeEffect : Obligations.DiagnosticCommandsTakeEffect := by
  refine fun r s => ⟨fun h => ⟨⟨_, congrArg _ (runJob_guards h), ?arm⟩, congrArg _ (runJob_guard h), fun f op z z' n le fits => ?read,
    fun f op => ?status⟩, fun h ns => ⟨fun range => exec_diaInject_refused h ns _ (.inl ⟨range, rfl⟩),
      fun range split => exec_diaInject_refused h ns _ (.inr ⟨range, split, rfl⟩), fun range split target => ?inject,
      fun range split target => ?mismatch⟩,
    fun h => ⟨fun g => congrArg _ (runJob_guard_true h g), congrArg _ (runJob_guards h), fun g le => ?history,
      ⟨sitesCleared s (fieldAt r 9 2) (List.range 10), congrArg _ (runJob_guard h), sitesCleared_frame .., fun i lt => ?clear⟩⟩⟩
  case arm =>
    obtain ⟨armed, untriggered⟩ := armedStat_bits (fieldAt_one_lt r 9)
    exact ⟨rfl, armed, untriggered, rfl, rfl, rfl, rfl, rfl, rfl, rfl⟩
  case read => exact congrArg _ (runJob_guard_true h (by simp [traceUnused, captureOf, f, op, z, z', n, le, fits]))
  case status => exact congrArg _ (runJob_guard_true h (by simp [f, op]))
  case inject =>
    obtain ⟨inj, lines, same⟩ := inject_ends s (fieldAt r 8 1) (fieldAt r 9 1) (fieldAt r 12 4)
    exact ⟨_, exec_diaInject_reacts h ns range split target, inj, lines, same.nv, same.clk⟩
  case mismatch =>
    obtain ⟨pair, count⟩ := injectMismatch_pair (complete s 0x6003 r stOk []) (fieldAt r 9 1)
    rw [complete_icp] at pair
    rw [complete_aon] at count
    exact ⟨_, exec_diaInject_mismatch h ns range split target, by rw [pair], by rw [pair], by rw [pair], count⟩
  case history => exact congrArg _ (runJob_guard_true h (by simp [g, le]))
  case clear =>
    rw [sitesCleared_at s _ List.nodup_range lt]
    simp [lt]

end Sys2Proof.Machine
end

section
/-! The state table of R95, over every command: the laws of the commands that can change the state, and of those that keep it. -/

namespace Sys2Proof.Machine

/-- A meaning that keeps the module state is none that changes it along another row. -/
theorem Answers.movesOut {s : State} {o : Host.Outcome State Fault Refusal} : Answers true s o → MovesOut s o
  | ⟨t, e, k⟩ => ⟨t, e, k.moves⟩

theorem MovesOut.of_formed {s : State} {o : Host.Outcome State Fault Refusal} : (∃ t, o = .next t ∧ Formed s t) → MovesOut s o
  | ⟨t, e, f⟩ => ⟨t, e, .inl f.st⟩

/-- Every command answers a next state whose module state stays or changes along a row of R95, or of R494 in BOOT. -/
theorem exec_moves (c : Instr) (s : State) : MovesOut s (exec c s) :=
  have hk : Kept true s s := Kept.refl s
  match c with
  | .hostWriteFrame .. => (execHostWriteFrame_kept hk).movesOut
  | .hostReadFrame .. => (execHostReadFrame_kept hk).movesOut
  | .directRegisterWrite .. => (execDirectRegisterWrite_kept hk).movesOut
  | .portRst => (execPortRst_kept hk).movesOut
  | .doorbellWrite .. => (execDoorbellWrite_kept hk).movesOut
  | .hpTimeNsRead => (execHpTimeNsRead_kept hk).movesOut
  | .descriptorTake => (execDescriptorTake_kept hk).movesOut
  | .irqTimeExpiry .. => (execIrqTimeExpiry_kept hk).movesOut
  | .faultLogCopy => (execFaultLogCopy_kept hk).movesOut
  | .hostSilenceTimeout => (execHostSilenceTimeout_kept hk).movesOut
  | .stateEventEvaluation => execStateEventEvaluation_moves ..
  | .cfgQueue .. => (execCfgQueue_kept hk).movesOut
  | .cfgEvents .. => (execCfgEvents_kept hk).movesOut
  | .cfgDrive .. => (execCfgDrive_kept hk).movesOut
  | .cfgImageBegin .. => (execCfgImageBegin_kept hk).movesOut
  | .cfgImageData .. => (execCfgImageData_kept hk).movesOut
  | .cfgImageFromFlash .. => (execCfgImageFromFlash_kept hk).movesOut
  | .cfgImageToFlash .. => (execCfgImageToFlash_kept hk).movesOut
  | .cfgCommit .. => execCfgCommit_moves ..
  | .cfgRelease .. => execCfgRelease_moves ..
  | .cfgContextCtrl .. => (execCfgContextCtrl_kept hk).movesOut
  | .cfgContextPeriod .. => (execCfgContextPeriod_kept hk).movesOut
  | .cfgContextParam .. => (execCfgContextParam_kept hk).movesOut
  | .cfgContextStatusClr .. => (execCfgContextStatusClr_kept hk).movesOut
  | .cfgAcqGroup .. => (execCfgAcqGroup_kept hk).movesOut
  | .cfgAcqSeq .. => (execCfgAcqSeq_kept hk).movesOut
  | .cfgAcqScale .. => (execCfgAcqScale_kept hk).movesOut
  | .cfgAcqCal .. => (execCfgAcqCal_kept hk).movesOut
  | .cfgAcqStatusClr .. => (execCfgAcqStatusClr_kept hk).movesOut
  | .cfgAcqSwtrig .. => (execCfgAcqSwtrig_kept hk).movesOut
  | .cfgDsmClocks .. => (execCfgDsmClocks_kept hk).movesOut
  | .cfgDsmInput .. => (execCfgDsmInput_kept hk).movesOut
  | .cfgDsmStatusClr .. => (execCfgDsmStatusClr_kept hk).movesOut
  | .cfgPosRsv .. => (execCfgPosRsv_kept hk).movesOut
  | .cfgPosEnc .. => (execCfgPosEnc_kept hk).movesOut
  | .cfgPosCmp .. => (execCfgPosCmp_kept hk).movesOut
  | .cfgPosHal .. => (execCfgPosHal_kept hk).movesOut
  | .cfgPosObs .. => (execCfgPosObs_kept hk).movesOut
  | .cfgPosPla .. => (execCfgPosPla_kept hk).movesOut
  | .cfgPosStatusClr .. => (execCfgPosStatusClr_kept hk).movesOut
  | .cfgPwmUnit .. => (execCfgPwmUnit_kept hk).movesOut
  | .cfgPwmAux .. => (execCfgPwmAux_kept hk).movesOut
  | .cfgPwmStatusClr .. => (execCfgPwmStatusClr_kept hk).movesOut
  | .pwmUnitRestart .. => (execPwmUnitRestart_kept hk).movesOut
  | .cfgGdvChannel .. => (execCfgGdvChannel_kept hk).movesOut
  | .cfgGdvInd .. => (execCfgGdvInd_kept hk).movesOut
  | .cfgGdvTable .. => (execCfgGdvTable_kept hk).movesOut
  | .cfgGdvTcool .. => (execCfgGdvTcool_kept hk).movesOut
  | .cfgGdvStatusClr .. => (execCfgGdvStatusClr_kept hk).movesOut
  | .cfgPrtCtl .. => (execCfgPrtCtl_kept hk).movesOut
  | .cfgPrtDcl .. => (execCfgPrtDcl_kept hk).movesOut
  | .cfgPrtChop .. => (execCfgPrtChop_kept hk).movesOut
  | .cfgPrtTrip .. => (execCfgPrtTrip_kept hk).movesOut
  | .cfgPrtCbc .. => (execCfgPrtCbc_kept hk).movesOut
  | .cfgPrtStatusClr .. => (execCfgPrtStatusClr_kept hk).movesOut
  | .cfgCurve .. => (execCfgCurve_kept hk).movesOut
  | .cfgThmWarn .. => (execCfgThmWarn_kept hk).movesOut
  | .cfgThmStatusClr .. => (execCfgThmStatusClr_kept hk).movesOut
  | .cfgChkUnit .. => (execCfgChkUnit_kept hk).movesOut
  | .cfgChkStatusClr .. => (execCfgChkStatusClr_kept hk).movesOut
  | .cfgCanCtrl .. => (execCfgCanCtrl_kept hk).movesOut
  | .cfgCanMobj .. => (execCfgCanMobj_kept hk).movesOut
  | .cfgCanTxdata .. => (execCfgCanTxdata_kept hk).movesOut
  | .cfgCanRecover .. => (execCfgCanRecover_kept hk).movesOut
  | .cfgCanStatusClr .. => (execCfgCanStatusClr_kept hk).movesOut
  | .cfgAdxCtrl .. => (execCfgAdxCtrl_kept hk).movesOut
  | .cfgAdxMw .. => (execCfgAdxMw_kept hk).movesOut
  | .cfgAdxTimeCfg .. => (execCfgAdxTimeCfg_kept hk).movesOut
  | .cfgAdxTimeSet .. => (execCfgAdxTimeSet_kept hk).movesOut
  | .cfgAdxTimeAdj .. => (execCfgAdxTimeAdj_kept hk).movesOut
  | .cfgAdxStatusClr .. => (execCfgAdxStatusClr_kept hk).movesOut
  | .cfgCrdCfg .. => (execCfgCrdCfg_kept hk).movesOut
  | .cfgCrdPar .. => (execCfgCrdPar_kept hk).movesOut
  | .cfgCrdStatusClr .. => (execCfgCrdStatusClr_kept hk).movesOut
  | .cfgLimit .. => (execCfgLimit_kept hk).movesOut
  | .ctlArm .. => execCtlArm_moves ..
  | .ctlDisarm .. => execCtlDisarm_moves ..
  | .ctlRun .. => execCtlRun_moves ..
  | .ctlStop .. => (execCtlStop_kept hk).movesOut
  | .ctlMode .. => (execCtlMode_kept hk).movesOut
  | .ctlSetpoint .. => (execCtlSetpoint_kept hk).movesOut
  | .ctlForceRelease .. => (execCtlForceRelease_kept hk).movesOut
  | .ctlForceBothOff .. => (execCtlForceBothOff_kept hk).movesOut
  | .ctlForceLowerOn .. => (execCtlForceLowerOn_kept hk).movesOut
  | .ctlForceUpperOn .. => (execCtlForceUpperOn_kept hk).movesOut
  | .ctlForceShadowWrite .. => (execCtlForceShadowWrite_kept hk).movesOut
  | .ctlDischarge .. => (execCtlDischarge_kept hk).movesOut
  | .ctlSplit .. => (execCtlSplit_kept hk).movesOut
  | .ctlJoin .. => execCtlJoin_moves ..
  | .joinStopTimeout => (execJoinStopTimeout_kept hk).movesOut
  | .qryState .. => (execQryState_kept hk).movesOut
  | .qryStatus .. => (execQryStatus_kept hk).movesOut
  | .qryConfig .. => (execQryConfig_kept hk).movesOut
  | .qryTelemetry .. => (execQryTelemetry_kept hk).movesOut
  | .qryCapacity .. => (execQryCapacity_kept hk).movesOut
  | .qryCmdCost .. => (execQryCmdCost_kept hk).movesOut
  | .qryFaultLog .. => (execQryFaultLog_kept hk).movesOut
  | .qryAttestReport .. => (execQryAttestReport_kept hk).movesOut
  | .qryAttestEndorse .. => (execQryAttestEndorse_kept hk).movesOut
  | .safStop .. => execSafStop_moves ..
  | .safRelease .. => execSafRelease_moves ..
  | .blackthornReleaseTimeout .. => (execBlackthornReleaseTimeout_kept hk).movesOut
  | .safAck .. => execSafAck_moves ..
  | .safTest .. => (execSafTest_kept hk).movesOut
  | .mntFwWriteErase .. => (execMntFwWriteErase_kept hk).movesOut
  | .mntFwWriteData .. => (execMntFwWriteData_kept hk).movesOut
  | .mntFwVerify .. => (execMntFwVerify_kept hk).movesOut
  | .mntFwActivate .. => execMntFwActivate_moves ..
  | .mntFuseIdent .. => .of_formed execMntFuseIdent_formed
  | .mntFuseKey .. => .of_formed execMntFuseKey_formed
  | .mntFuseRevoke .. => .of_formed execMntFuseRevoke_formed
  | .mntFusePolicy .. => .of_formed execMntFusePolicy_formed
  | .mntFuseSafety .. => .of_formed execMntFuseSafety_formed
  | .mntFuseRollback .. => .of_formed execMntFuseRollback_formed
  | .mntLogClearRecords .. => (execMntLogClearRecords_kept hk).movesOut
  | .mntLogClearStartFailures .. => (execMntLogClearStartFailures_kept hk).movesOut
  | .mntLogClearWear .. => (execMntLogClearWear_kept hk).movesOut
  | .mntLogClearAgeing .. => (execMntLogClearAgeing_kept hk).movesOut
  | .mntReset .. => execMntReset_moves ..
  | .diaSelftestQuery .. => (execDiaSelftestQuery_kept hk).movesOut
  | .diaSelftestRun .. => execDiaSelftestRun_moves ..
  | .diaSelftestStatusClr .. => (execDiaSelftestStatusClr_kept hk).movesOut
  | .diaTraceArm .. => (execDiaTraceArm_kept hk).movesOut
  | .diaTraceStop .. => (execDiaTraceStop_kept hk).movesOut
  | .diaTraceRead .. => (execDiaTraceRead_kept hk).movesOut
  | .diaTraceStatus .. => (execDiaTraceStatus_kept hk).movesOut
  | .diaInject .. => (execDiaInject_kept hk).movesOut
  | .diaAgeingQuery .. => (execDiaAgeingQuery_kept hk).movesOut
  | .diaAgeingReplan .. => (execDiaAgeingReplan_kept hk).movesOut
  | .diaAgeingHistory .. => (execDiaAgeingHistory_kept hk).movesOut
  | .diaAgeingStatusClr .. => (execDiaAgeingStatusClr_kept hk).movesOut
  | .resetRelease => (execResetRelease_kept hk).movesOut
  | .nodeIdDelayExpiry => (execNodeIdDelayExpiry_kept hk).movesOut
  | .startSequencerStep .. => execStartSequencerStep_moves ..
  | .pllLockDeadline .. => execPllLockDeadline_moves ..
  | .bootRomStart .. => execBootRomStart_moves ..
  | .standbyEntry => execStandbyEntry_moves ..
  | .startTimeout => execStartTimeout_moves ..
  | .resetInput .. => execResetInput_moves ..
  | .supplyLoss .. => execSupplyLoss_moves ..
  | .stopRampComplete => (execStopRampComplete_kept hk).movesOut
  | .stopOverdue => (execStopOverdue_kept hk).movesOut
  | .opNop .. => (execOpNop_kept hk).movesOut
  | .opWait .. => (execOpWait_kept hk).movesOut
  | .opEnd .. => (execOpEnd_kept hk).movesOut
  | .opLdacc .. => (execOpLdacc_kept hk).movesOut
  | .opMul .. => (execOpMul_kept hk).movesOut
  | .opMac .. => (execOpMac_kept hk).movesOut
  | .opMsu .. => (execOpMsu_kept hk).movesOut
  | .opRnd .. => (execOpRnd_kept hk).movesOut
  | .opAdd .. => (execOpAdd_kept hk).movesOut
  | .opSub .. => (execOpSub_kept hk).movesOut
  | .opNeg .. => (execOpNeg_kept hk).movesOut
  | .opAbs .. => (execOpAbs_kept hk).movesOut
  | .opMin .. => (execOpMin_kept hk).movesOut
  | .opMax .. => (execOpMax_kept hk).movesOut
  | .opLim .. => (execOpLim_kept hk).movesOut
  | .opShl .. => (execOpShl_kept hk).movesOut
  | .opShr .. => (execOpShr_kept hk).movesOut
  | .opCmplt .. => (execOpCmplt_kept hk).movesOut
  | .opCmpge .. => (execOpCmpge_kept hk).movesOut
  | .opCmpeq .. => (execOpCmpeq_kept hk).movesOut
  | .opSel .. => (execOpSel_kept hk).movesOut
  | .opAnd .. => (execOpAnd_kept hk).movesOut
  | .opOr .. => (execOpOr_kept hk).movesOut
  | .opXor .. => (execOpXor_kept hk).movesOut
  | .opSincos .. => (execOpSincos_kept hk).movesOut
  | .opAtan2 .. => (execOpAtan2_kept hk).movesOut
  | .opDiv .. => (execOpDiv_kept hk).movesOut
  | .opSqrt .. => (execOpSqrt_kept hk).movesOut
  | .opLut .. => (execOpLut_kept hk).movesOut
  | .opLdc .. => (execOpLdc_kept hk).movesOut
  | .opLd .. => (execOpLd_kept hk).movesOut
  | .opSt .. => (execOpSt_kept hk).movesOut
  | .opPut .. => (execOpPut_kept hk).movesOut
  | .opGet .. => (execOpGet_kept hk).movesOut
  | .opWcmp .. => (execOpWcmp_kept hk).movesOut
  | .opLdall .. => (execOpLdall_kept hk).movesOut
  | .opFlag .. => (execOpFlag_kept hk).movesOut
  | .contextRelease .. => (execContextRelease_kept hk).movesOut
  | .preemption .. => (execPreemption_kept hk).movesOut
  | .contextCompletion .. => (execContextCompletion_kept hk).movesOut
  | .watchdogDeadline .. => (execWatchdogDeadline_kept hk).movesOut
  | .cellParityError .. => (execCellParityError_kept hk).movesOut
  | .coefEccError .. => (execCoefEccError_kept hk).movesOut
  | .opmemEccError .. => (execOpmemEccError_kept hk).movesOut
  | .regionMemoryEccError .. => (execRegionMemoryEccError_kept hk).movesOut
  | .cellSwitch .. => (execCellSwitch_kept hk).movesOut
  | .cellSwitchAbandon .. => (execCellSwitchAbandon_kept hk).movesOut
  | .catchDetectEnd .. => (execCatchDetectEnd_kept hk).movesOut
  | .alignEnd .. => (execAlignEnd_kept hk).movesOut
  | .sequenceTrigger .. => (execSequenceTrigger_kept hk).movesOut
  | .injectedTrigger .. => (execInjectedTrigger_kept hk).movesOut
  | .runHold .. => (execRunHold_kept hk).movesOut
  | .conversionComplete .. => (execConversionComplete_kept hk).movesOut
  | .calibrationStart .. => (execCalibrationStart_kept hk).movesOut
  | .calibrationComplete .. => (execCalibrationComplete_kept hk).movesOut
  | .dsmResult .. => (execDsmResult_kept hk).movesOut
  | .dsmDelivery .. => (execDsmDelivery_kept hk).movesOut
  | .dsmFastTrip .. => (execDsmFastTrip_kept hk).movesOut
  | .dsmStuck .. => (execDsmStuck_kept hk).movesOut
  | .resolverSample .. => (execResolverSample_kept hk).movesOut
  | .encoderCountStep .. => (execEncoderCountStep_kept hk).movesOut
  | .indexEdge .. => (execIndexEdge_kept hk).movesOut
  | .encLine .. => (execEncLine_kept hk).movesOut
  | .hallChange .. => (execHallChange_kept hk).movesOut
  | .observerUpdate .. => (execObserverUpdate_kept hk).movesOut
  | .observerLatch .. => (execObserverLatch_kept hk).movesOut
  | .plausibilityCheck .. => (execPlausibilityCheck_kept hk).movesOut
  | .pwmReload .. => (execPwmReload_kept hk).movesOut
  | .sampleTrigger .. => (execSampleTrigger_kept hk).movesOut
  | .auxEvent .. => (execAuxEvent_kept hk).movesOut
  | .overlapLockout .. => (execOverlapLockout_kept hk).movesOut
  | .cbcCutoff .. => (execCbcCutoff_kept hk).movesOut
  | .debugHalt => (execDebugHalt_kept hk).movesOut
  | .debugResume => (execDebugResume_kept hk).movesOut
  | .debugRequest .. => (execDebugRequest_kept hk).movesOut
  | .scanEntry => (execScanEntry_kept hk).movesOut
  | .driverLockout .. => (execDriverLockout_kept hk).movesOut
  | .lockoutRelease .. => (execLockoutRelease_kept hk).movesOut
  | .earlyWarning .. => (execEarlyWarning_kept hk).movesOut
  | .desaturation .. => (execDesaturation_kept hk).movesOut
  | .softTurnoffEnd .. => (execSoftTurnoffEnd_kept hk).movesOut
  | .crosscheckRefusal .. => (execCrosscheckRefusal_kept hk).movesOut
  | .driverLinkSilence .. => (execDriverLinkSilence_kept hk).movesOut
  | .gdvLink .. => (execGdvLink_kept hk).movesOut
  | .onStateSample .. => (execOnStateSample_kept hk).movesOut
  | .indicatorUpdate .. => (execIndicatorUpdate_kept hk).movesOut
  | .overvoltageTrip .. => (execOvervoltageTrip_kept hk).movesOut
  | .undervoltageTrip .. => (execUndervoltageTrip_kept hk).movesOut
  | .legRejoin .. => (execLegRejoin_kept hk).movesOut
  | .chopperSwitching .. => (execChopperSwitching_kept hk).movesOut
  | .chopperFault .. => (execChopperFault_kept hk).movesOut
  | .dischargeSwitchOn => (execDischargeSwitchOn_kept hk).movesOut
  | .dischargeDone .. => (execDischargeDone_kept hk).movesOut
  | .dischargeTimeout => (execDischargeTimeout_kept hk).movesOut
  | .dischargeNotFalling => (execDischargeNotFalling_kept hk).movesOut
  | .safetyInputChange .. => (execSafetyInputChange_kept hk).movesOut
  | .discrepancyTimeout .. => (execDiscrepancyTimeout_kept hk).movesOut
  | .speedCounterSample .. => (execSpeedCounterSample_kept hk).movesOut
  | .speedSourceIllegal .. => (execSpeedSourceIllegal_kept hk).movesOut
  | .speedCrossCheck .. => (execSpeedCrossCheck_kept hk).movesOut
  | .smaxSoftwareCheck .. => (execSmaxSoftwareCheck_kept hk).movesOut
  | .blackthornComparatorTrip .. => (execBlackthornComparatorTrip_kept hk).movesOut
  | .latchSelfClear .. => (execLatchSelfClear_kept hk).movesOut
  | .torqueMonitorCheck .. => (execTorqueMonitorCheck_kept hk).movesOut
  | .monitorStopTimeout => (execMonitorStopTimeout_kept hk).movesOut
  | .qaQuestion .. => (execQaQuestion_kept hk).movesOut
  | .qaAnswer .. => (execQaAnswer_kept hk).movesOut
  | .qaWindowExpiry => (execQaWindowExpiry_kept hk).movesOut
  | .sackPulse .. => (execSackPulse_kept hk).movesOut
  | .referenceClockWindow .. => (execReferenceClockWindow_kept hk).movesOut
  | .lockstepMismatch .. => execLockstepMismatch_moves ..
  | .checkpointRestart => (execCheckpointRestart_kept hk).movesOut
  | .checkpointSeal => (execCheckpointSeal_kept hk).movesOut
  | .core1PartitionViolation .. => (execCore1PartitionViolation_kept hk).movesOut
  | .prunerSliceStart .. => (execPrunerSliceStart_kept hk).movesOut
  | .prunerSliceAbort .. => (execPrunerSliceAbort_kept hk).movesOut
  | .prunerSliceComplete .. => execPrunerSliceComplete_moves ..
  | .prnOverdue .. => (execPrnOverdue_kept hk).movesOut
  | .sensorWindow .. => (execSensorWindow_kept hk).movesOut
  | .thermalLineRelease => (execThermalLineRelease_kept hk).movesOut
  | .throttleEvaluation => (execThrottleEvaluation_kept hk).movesOut
  | .railOutOfWindow .. => execRailOutOfWindow_moves ..
  | .droopDetect .. => (execDroopDetect_kept hk).movesOut
  | .droopEnd => (execDroopEnd_kept hk).movesOut
  | .droopBudgetExhausted => execDroopBudgetExhausted_moves ..
  | .pllLockLoss => execPllLockLoss_moves ..
  | .referenceCountWindow .. => (execReferenceCountWindow_kept hk).movesOut
  | .canaryMeasurement .. => (execCanaryMeasurement_kept hk).movesOut
  | .dailyReplan => (execDailyReplan_kept hk).movesOut
  | .operatingHoursSave => (execOperatingHoursSave_kept hk).movesOut
  | .canFrameReceived .. => (execCanFrameReceived_kept hk).movesOut
  | .canLockRelease .. => (execCanLockRelease_kept hk).movesOut
  | .canLockTimeout .. => (execCanLockTimeout_kept hk).movesOut
  | .canTxAttemptEnd .. => (execCanTxAttemptEnd_kept hk).movesOut
  | .canPeriodRequest .. => (execCanPeriodRequest_kept hk).movesOut
  | .canErrorDetected .. => (execCanErrorDetected_kept hk).movesOut
  | .canBusoffRecovery .. => (execCanBusoffRecovery_kept hk).movesOut
  | .canMessageWordTimeout .. => (execCanMessageWordTimeout_kept hk).movesOut
  | .canCompletionSend .. => (execCanCompletionSend_kept hk).movesOut
  | .canCompletionRetry .. => (execCanCompletionRetry_kept hk).movesOut
  | .adexiaFrameReceived .. => (execAdexiaFrameReceived_kept hk).movesOut
  | .missingDuplicateTimeout .. => (execMissingDuplicateTimeout_kept hk).movesOut
  | .adexiaMsgTimeout .. => (execAdexiaMsgTimeout_kept hk).movesOut
  | .cplFrameSend => (execCplFrameSend_kept hk).movesOut
  | .supervisionSend => (execSupervisionSend_kept hk).movesOut
  | .portLinkChange .. => (execPortLinkChange_kept hk).movesOut
  | .ptpSyncMeasurement .. => (execPtpSyncMeasurement_kept hk).movesOut
  | .syncTimeout .. => (execSyncTimeout_kept hk).movesOut
  | .oneShotOffsetApply => (execOneShotOffsetApply_kept hk).movesOut
  | .allocCycleInstant => (execAllocCycleInstant_kept hk).movesOut
  | .allocLatch => (execAllocLatch_kept hk).movesOut
  | .stateCopySend => (execStateCopySend_kept hk).movesOut
  | .stateCopyReceived .. => (execStateCopyReceived_kept hk).movesOut
  | .pairLinkTimeout => (execPairLinkTimeout_kept hk).movesOut
  | .arbiterStartupAppoint => (execArbiterStartupAppoint_kept hk).movesOut
  | .carrierValley .. => (execCarrierValley_kept hk).movesOut
  | .linkActivityResumed .. => (execLinkActivityResumed_kept hk).movesOut
  | .encLineClear .. => (execEncLineClear_kept hk).movesOut
  | .earlyWarningClear .. => (execEarlyWarningClear_kept hk).movesOut
  | .protocolException .. => (execProtocolException_kept hk).movesOut
  | .ptpSyncInterval .. => (execPtpSyncInterval_kept hk).movesOut

/-- Settles O56: each command by the law of what it can do to the state. Beside the rows of R95, the model lets a pair that degrades in
BOOT go to FAULT (R494, R495). -/
theorem stateChangesFollowTheTable : Obligations.StateChangesFollowTheTable := by
  intro c s t e
  obtain ⟨u, answer, moves⟩ := exec_moves c s
  cases answer.symm.trans e
  exact moves

end Sys2Proof.Machine
end

section
/-! The resolution of state events (R95, R96, R107): which event wins, and what its evaluation leaves. -/

namespace Sys2Proof.Machine

/-! The winner among waiting events, as one more arrives. -/

section
variable {m : Mode} {l : List StateEvent} {e : StateEvent}

theorem winner_concat_unjudged (h : judge m e.kind = none) : winner m (l ++ [e]) = winner m l := by
  simp [winner, List.foldl_append, h]

theorem winner_concat_first {n : Mode} (h : judge m e.kind = some n) (w : winner m l = none) : winner m (l ++ [e]) = some (n, e) := by
  unfold winner at w ⊢
  simp [List.foldl_append, h, w]

theorem winner_concat_later {n k : Mode} {b : StateEvent} (h : judge m e.kind = some n) (w : winner m l = some (k, b)) :
    winner m (l ++ [e]) = if rank b.kind < rank e.kind then some (n, e) else some (k, b) := by
  unfold winner at w ⊢
  simp [List.foldl_append, h, w]

/-- Where no event wins, R95 has a row for none. -/
theorem judge_of_winner_none (h : winner m l = none) : ∀ x ∈ l, judge m x.kind = none := by
  induction l using List.reverseRecOn with
  | nil => simp
  | append_singleton l x ih =>
    cases j : judge m x.kind with
    | none =>
      rw [winner_concat_unjudged j] at h
      exact List.forall_mem_append.2 ⟨ih h, List.forall_mem_singleton.2 j⟩
    | some n =>
      cases w : winner m l with
      | none => simp [winner_concat_first j w] at h
      | some p =>
        rw [winner_concat_later j w] at h
        split at h <;> cases h

/-- The winner is one of the events, and no event that R95 has a row for ranks above it. -/
theorem winner_best {n : Mode} (h : winner m l = some (n, e)) :
    e ∈ l ∧ ∀ x ∈ l, (judge m x.kind).isSome = true → rank x.kind ≤ rank e.kind := by
  induction l using List.reverseRecOn generalizing n e with
  | nil => cases h
  | append_singleton l x ih =>
    rw [List.forall_mem_append, List.forall_mem_singleton]
    cases j : judge m x.kind with
    | none =>
      rw [winner_concat_unjudged j] at h
      obtain ⟨mem, best⟩ := ih h
      exact ⟨List.mem_append_left _ mem, best, nofun⟩
    | some k =>
      cases w : winner m l with
      | none =>
        rw [winner_concat_first j w] at h
        cases h
        exact ⟨List.mem_append_right _ (List.mem_singleton_self _), fun y hy js => by simp [judge_of_winner_none w y hy] at js,
          fun _ => le_rfl⟩
      | some p =>
        obtain ⟨mem, best⟩ := ih w
        rw [winner_concat_later j w] at h
        split at h
        case isTrue above =>
          cases h
          exact ⟨List.mem_append_right _ (List.mem_singleton_self _), fun y hy js => (best y hy js).trans above.le, fun _ => le_rfl⟩
        case isFalse above =>
          cases h
          exact ⟨List.mem_append_left _ mem, best, fun _ => Nat.le_of_not_lt above⟩

end

/-- No state event leads to STANDBY or COPPICE (R95). -/
theorem judge_target {m n : Mode} {k : EvKind} (h : judge m k = some n) : ¬(n = .standby ∨ n = .coppice) := by
  revert h; cases k <;> simp only [judge] <;> split <;> simp +contextual [eq_comm]

theorem evaluate_none {s : State} (h : noEvent s) : evaluate s = quieted s := by
  have w : winner s.drv.st (s.drv.events ++ persistent s) = none := h
  unfold evaluate; simp only [w]; rfl

theorem evaluate_some {s : State} {m : Mode} {e : StateEvent} (h : winner s.drv.st (s.drv.events ++ persistent s) = some (m, e)) :
    evaluate s = preempt (enter (quieted s) m e.cause) := by
  unfold evaluate; simp only [h]; rfl

/-- Settles O8: `winner` takes the first event of the highest rank, and a transition leaves what `enter_entered` and `enter_moved` say.
Which conditions persist is the model's (log entry 31). -/
theorem stateEventsAreResolvedByRank : Obligations.StateEventsAreResolvedByRank := by
  intro s serves
  have run : exec .stateEventEvaluation s = .next (evaluate s) := by
    show execStateEventEvaluation s = _
    rw [execStateEventEvaluation, serves]; rfl
  refine ⟨_, run, evaluate_none, fun m e w => ?_⟩
  have judged := winner_judged w
  obtain ⟨mem, best⟩ := winner_best w
  obtain ⟨st, prev, cause, tState, events⟩ := enter_entered (quieted s) m e.cause rfl
  have moved := enter_moved (quieted s) m e.cause
  have nv : (enter (quieted s) m e.cause).nv = s.nv := moved.nv.trans (if_neg (judge_target judged))
  have net : (enter (quieted s) m e.cause).can = s.can ∧ (enter (quieted s) m e.cause).adx = s.adx ∧
      (enter (quieted s) m e.cause).crd = s.crd := by rw [enter_frame]; exact ⟨rfl, rfl, rfl⟩
  rw [evaluate_some w, preempt_frame]
  exact ⟨⟨mem, judged, best⟩, st, prev, cause, tState, events, moved.clk, nv, moved.boot, net⟩

end Sys2Proof.Machine
end

section
/-! Power-up (R95, R100 to R105, R672 to R674, R692): each event of the start where it applies, a failed start, and the resets by pins. -/

namespace Sys2Proof.Machine

/-! A failed start (R103, R104). -/

section
variable (s : State) (code : W16) (stage : Nat)

/-- Every domain but the always-on logic is reset, and what is kept is named (R103). -/
theorem startFail_frame : startFail s code stage =
    { State.reset with pending := s.pending, aon := (startFail s code stage).aon, nv := (startFail s code stage).nv, free := s.free
                       io := (startFail s code stage).io, sup := (startFail s code stage).sup } := rfl

theorem startFail_fails : (startFail s code stage).aon.fails =
    ({ code := code, stage := BitVec.ofNat 8 stage, secs := s.aon.secs } :: s.aon.fails).take 3 := by
  simp only [startFail, coldReset]; split <;> rfl

theorem startFail_sfail : (startFail s code stage).aon.sfail = s.aon.sfail := by
  simp only [startFail, coldReset]; split <;> rfl

theorem startFail_failCount : 1 ≤ (startFail s code stage).aon.failCount ∧ (startFail s code stage).aon.failCount ≤ 3 := by
  simp only [startFail, coldReset]; split <;> dsimp only <;> omega

/-- The third counted failure sets the COPPICE latch, where it was not set before (R105). -/
theorem startFail_coppice (h : (startFail s code stage).aon.failCount = 3) : (startFail s code stage).aon.coppice = true := by
  simp only [startFail, coldReset] at h ⊢
  split
  case isTrue => rfl
  case isFalse no =>
    rw [if_neg no] at h
    simpa [show min 3 _ = 3 from h] using no

end

/-! The start sequence (R100 to R102, R592, R692). -/

section
variable {s : State}

theorem exec_startSequencerStep (p : s.sup.powered ≠ 0) (d : s.sup.seqDone = false) (l : s.sup.powered = 2 → s.sup.locked = true)
    (ok : Bool) : exec (.startSequencerStep ok) s = .next
      (if ok && !railBad s then
        { s with sup := { s.sup with powered := s.sup.powered + 1
                                     stage := if s.sup.powered = 19 then 7 else stageOf (s.sup.powered + 1)
                                     seqDone := s.sup.powered == 19 } }
       else startFail s 0x9001 (stageOf s.sup.powered)) := by
  show execStartSequencerStep ok s = _
  have waits : (decide (s.sup.powered = 0) || s.sup.seqDone || (s.sup.powered == 2 && !s.sup.locked)) = false := by
    simpa [p, d] using l
  simp only [execStartSequencerStep, waits]
  cases ok <;> cases railBad s <;> simp [updSup, show (s.sup.powered + 1 == 20) = (s.sup.powered == 19) by simp]

theorem exec_pllLockDeadline (off : s.drv.st = .off) (p : s.sup.powered = 2) (l : s.sup.locked = false) (ok : Bool) :
    exec (.pllLockDeadline ok) s = .next
      (if ok then enter { s with sup := { s.sup with locked := true }, clk := { s.clk with sec := 0, ns := 0, frac := 0 } } .boot 0
       else startFail s 0x9002 3) := by
  show execPllLockDeadline ok s = _
  cases ok <;> simp [execPllLockDeadline, off, p, l, updSup]

end

/-- Settles O31: each event by its guard, a failed start by what its records hold. The level of XSEL is a free value (log entry
72), and so is the outcome of a low level of 200 ns to 1 µs (log entry 2); the stages with what the always-on logic keeps are the
model's (log entry 32). -/
theorem powerUpFollowsTheStartSequence : Obligations.PowerUpFollowsTheStartSequence := by
  intro s
  refine ⟨fun off => ⟨freeVal s % 2 == 1, ?release⟩, fun off released stage => ?delay, fun p d l => ⟨fun rails => ?step, ?rail⟩,
    fun off p l => ⟨?locks, ?unlocked⟩, fun released alive early => ?timeout, fun code stage => ?fails,
    fun ns => ⟨fun short => if_pos short, fun long => ?reset, fun lo hi => ?either⟩, fun aonToo => ?loss⟩
  case release => exact if_pos (by simp [off])
  case delay => exact if_pos (by simp [off, released, stage])
  case step => exact ⟨_, by rw [exec_startSequencerStep p d l, rails], rfl, rfl⟩
  case rail => exact exec_startSequencerStep p d l false
  case locks =>
    refine ⟨_, exec_pllLockDeadline off p l true, ?_⟩
    rw [if_pos rfl, enter_drv, enter_frame, enter_nv]
    exact ⟨rfl, off, rfl, rfl, rfl, rfl⟩
  case unlocked => exact exec_pllLockDeadline off p l false
  case timeout => exact if_pos (by simpa [released, alive] using early)
  case fails =>
    refine ⟨_, rfl, rfl, rfl, rfl, startFail_frame .., ?_, ?_, (startFail_failCount ..).1, (startFail_failCount ..).2,
      startFail_coppice s code stage⟩
    · rw [startFail_fails]; rfl
    · rw [startFail_fails]; exact List.length_take_le ..
  case reset =>
    refine ⟨pinReset s, ?_, rfl, rfl, rfl⟩
    show execResetInput ns s = _
    rw [execResetInput, if_neg (by omega), if_pos long]
  case either =>
    have run : exec (.resetInput ns) s = .next (if freeVal s % 2 = 1 then pinReset (freeTaken s) else freeTaken s) := by
      show execResetInput ns s = _
      rw [execResetInput, if_neg (by omega), if_neg (by omega)]
      split <;> rfl
    refine ⟨_, run, ?_⟩
    split
    · exact ⟨rfl, .inr ⟨rfl, rfl, rfl⟩⟩
    · exact ⟨rfl, .inl rfl⟩
  case loss =>
    refine ⟨_, rfl, rfl, rfl, ?_⟩
    cases aonToo <;> exact ⟨rfl, rfl, rfl⟩

end Sys2Proof.Machine
end

section
/-! The boot ROM and the entry into STANDBY (R104, R105, R509, R510, R648 to R653). -/

namespace Sys2Proof.Machine

/-! The boot control record (R651). -/

section
variable {t : Tab 2 BootRec}

theorem bcrIndex_lt {k : Nat} (h : bcrIndex t = some k) : k < 2 := by
  unfold bcrIndex at h
  cases h0 : (t.at 0).ok <;> cases h1 : (t.at 1).ok <;> simp [h0, h1] at h <;> grind

theorem bcrIndex_none (h : bcrIndex t = none) : (t.at 1).ok = false := by
  unfold bcrIndex at h
  cases h0 : (t.at 0).ok <;> cases h1 : (t.at 1).ok <;> simp [h0, h1] at h ⊢

/-- A valid copy is in force where the other one is not valid or not newer. -/
theorem bcrNow_put {i : Nat} {x : BootRec} (lt : i < 2) (ok : x.ok = true)
    (newest : (t.at (1 - i)).ok = true → (t.at (1 - i)).gen.toNat < x.gen.toNat) : bcrNow (t.put i x) = x := by
  have index : bcrIndex (t.put i x) = some i := by
    unfold bcrIndex
    obtain rfl | rfl : i = 0 ∨ i = 1 := by omega
    · rw [Vector.at_put_same _ _ lt, Vector.at_put_ne _ _ (by decide), ok]
      cases h : (t.at 1).ok
      · rfl
      · simp [(newest h).le]
    · rw [Vector.at_put_same _ _ lt, Vector.at_put_ne _ _ (by decide), ok]
      cases h : (t.at 0).ok
      · rfl
      · simp [newest h]
  simp only [bcrNow, index, Vector.at_put_same _ _ lt]

end

/-- An update of the record is the copy in force after it, unless GEN wraps. -/
theorem bcrNow_bcrUpdate (s : State) (f : BootRec → BootRec) (h : (bcrNow s.nv.bcr).gen ≠ 0xFFFFFFFF) :
    bcrNow (bcrUpdate s f).nv.bcr = { f (bcrNow s.nv.bcr) with gen := (bcrNow s.nv.bcr).gen + 1, ok := true } := by
  have later : (bcrNow s.nv.bcr).gen.toNat < ((bcrNow s.nv.bcr).gen + 1).toNat := by bv_omega
  unfold bcrUpdate
  dsimp only
  split
  case h_1 k w =>
    have lt := bcrIndex_lt w
    have now : bcrNow s.nv.bcr = s.nv.bcr.at k := by simp only [bcrNow, w]
    refine bcrNow_put (show 1 - k < 2 by omega) rfl fun _ => ?_
    rw [show 1 - (1 - k) = k by omega, ← now]
    exact later
  case h_2 w => exact bcrNow_put (by decide) rfl fun valid => by simp [bcrIndex_none w] at valid

/-! What the parts of a start leave alone. -/

/-- A fault record changes no more of the drive than the waiting events (R82, R95). -/
theorem record_drv_frame (s : State) (code : W16) (unit : Nat) (data0 : W32) :
    (record s code unit data0).drv = { s.drv with events := (record s code unit data0).drv.events } := by
  unfold record; rw [recordAt_drv]; split <;> rfl

/-- Of flash, the selection of a bank changes the boot control record alone (R651). -/
theorem selectBank_frame (s : State) : (selectBank s).1 =
    { s with nv := { s.nv with bcr := (selectBank s).1.nv.bcr }
             io := (selectBank s).1.io, trc := (selectBank s).1.trc, drv := (selectBank s).1.drv } := by
  unfold selectBank recSec; dsimp only; split
  · rfl
  · split
    · rw [record_quiet _ _ _ (by decide)]; rfl
    · rfl

/-- From `s` to `t` nothing has changed but Thicket. -/
def thkOnly (s t : State) : Prop := t = { s with thk := t.thk }

theorem thkOnly.trans {s t u : State} (h : thkOnly s t) (k : thkOnly t u) : thkOnly s u := Eq.trans k (by rw [h])

theorem thkOnly.foldl {α : Type} {f : State → α → State} (hf : ∀ u x, thkOnly u (f u x)) (l : List α) (s : State) :
    thkOnly s (l.foldl f s) := by
  induction l generalizing s with
  | nil => rfl
  | cons x l ih => exact (hf s x).trans (ih (f s x))

/-- Cells out of service are Thicket's own (R510). -/
theorem failCells_thkOnly (s : State) (bad : List (Nat × Nat)) : thkOnly s (failCells s bad) := by
  unfold failCells
  refine (thkOnly.foldl ?cells bad s).trans (thkOnly.foldl ?blocks ..)
  case cells => exact fun _ _ => rfl
  case blocks =>
    intro u k
    dsimp only
    split <;> rfl

/-- Which start self-test fails is judged by the fuses in force and by what is found (R473, R509). -/
theorem failingKind_congr {s t : State} (h : t.boot.fuses = s.boot.fuses) (f : BootFinds) : failingKind t f = failingKind s f := by
  simp only [failingKind, h]

theorem runBank_starts {s : State} {f : BootFinds} (h : failingKind s f = 0) (bank : Nat) (trial fallback : Bool) :
    ∃ t, runBank s bank trial fallback f = t ∧ t.drv = s.drv ∧ t.io = s.io ∧ t.sup.stage = 9 ∧ t.saf.qaStarted = true ∧
      t.boot = { s.boot with bank := some bank, trial := trial, fallback := fallback } := by
  refine ⟨_, rfl, ?_⟩
  unfold runBank
  dsimp only
  rw [if_neg (not_not.2 h), failCells_thkOnly]
  exact ⟨rfl, rfl, rfl, rfl, rfl⟩

theorem runBank_fails {s : State} {f : BootFinds} (h : failingKind s f ≠ 0) (bank : Nat) (trial fallback : Bool) :
    runBank s bank trial fallback f =
      startFail { s with aon := { s.aon with sfail := BitVec.ofNat 8 (failingKind s f) } } 0xC003 8 := if_pos h

/-- What both entries from BOOT record changes no more of the drive than the waiting events (R37, R539). -/
theorem entryRecords_frame (s : State) : entryRecords s =
    { s with aon := { s.aon with rstcNew := (entryRecords s).aon.rstcNew }
             saf := { s.saf with clkfPend := (entryRecords s).saf.clkfPend }
             drv := { s.drv with events := (entryRecords s).drv.events }
             io := (entryRecords s).io, trc := (entryRecords s).trc } := by
  have cause : recordRstc s = { s with
      aon := { s.aon with rstcNew := (recordRstc s).aon.rstcNew }, drv := { s.drv with events := (recordRstc s).drv.events }
      io := (recordRstc s).io, trc := (recordRstc s).trc } := by
    unfold recordRstc; dsimp only; split
    · rfl
    · rw [record_frame, record_drv_frame]
  unfold entryRecords; dsimp only; split
  · unfold recBlk; rw [record_frame, record_drv_frame, cause]; rfl
  · rw [cause]

/-- Of flash, a copy of the failure records changes the start-failure area alone (R104). -/
theorem copyStartLog_nv (s : State) : (copyStartLog s).nv =
    { s.nv with startLog := (copyStartLog s).nv.startLog, startNum := (copyStartLog s).nv.startNum } := by
  unfold copyStartLog; split
  · rfl
  · dsimp only
    generalize (s.aon.fails.filter fun f => !f.copied).reverse = l
    generalize s.nv = n
    induction l generalizing n with
    | nil => rfl
    | cons f l ih => exact ih _

theorem enter_failCount (s : State) (dst : Mode) (cause : W16) : (enter s dst cause).aon.failCount = s.aon.failCount := by
  have copied (u : State) : (copyStartLog u).aon.failCount = u.aon.failCount := by unfold copyStartLog; split <;> rfl
  unfold enter; dsimp only; split
  · rw [copied, sealCp_aon]; rfl
  · rw [sealCp_aon]; rfl

theorem confirmBank_frame (s : State) : confirmBank s = { s with nv := { s.nv with bcr := (confirmBank s).nv.bcr } } := by
  unfold confirmBank; split
  · split
    · rfl
    · split <;> rfl
  · rfl

section
variable {s : State} {b : Nat} (bank : s.boot.bank = some b)
include bank

theorem confirmBank_trial (trial : s.boot.trial = true) :
    confirmBank s = bcrUpdate s fun r => { r with conf := b, trial := 0xFF, tried := false } := by
  simp only [confirmBank, bank, trial, if_true]

theorem confirmBank_fallback (trial : s.boot.trial = false) (back : s.boot.fallback = true) :
    confirmBank s = bcrUpdate s fun r => { r with conf := b } := by
  simp only [confirmBank, bank, trial, back, Bool.false_eq_true, if_false, if_true]

theorem confirmBank_confirmed (trial : s.boot.trial = false) (back : s.boot.fallback = false) : confirmBank s = s := by
  simp only [confirmBank, bank, trial, back, Bool.false_eq_true, if_false]

end

/-! The boot ROM (R105, R509, R648 to R653). -/

/-- The bank of number `i` verifies under the fuses. -/
def verifies (s : State) (i : Nat) : Bool := verifyBank s.nv.fuses (s.nv.banks.at i) == 0

section
variable {s : State} {f : BootFinds}

theorem exec_bootRomStart_coppice (st : s.drv.st = .boot) (fresh : s.boot.bank = none) (held : s.icp.held = false)
    (alive : s.icp.dead = false) (latch : s.aon.coppice = true) :
    exec (.bootRomStart f) s = .next (enterCoppice (loadFuses s)) := by
  show execBootRomStart f s = _
  simp [execBootRomStart, st, fresh, held, alive, latch]

/-- Without the latch the selected bank runs where it verifies, else the other one, else the start fails. -/
theorem exec_bootRomStart_selects (st : s.drv.st = .boot) (fresh : s.boot.bank = none) (held : s.icp.held = false)
    (alive : s.icp.dead = false) (latch : s.aon.coppice = false) (done : s.sup.seqDone = true) :
    exec (.bootRomStart f) s = .next
      (let p := selectBank (loadFuses s)
       if verifies s p.2.1 then runBank p.1 p.2.1 p.2.2 false f
       else if verifies s (1 - p.2.1) then runBank (recSec p.1 0xC020) (1 - p.2.1) false true f
       else startFail (recSec p.1 0xC020) 0xC002 7) := by
  have e := selectBank_frame (loadFuses s)
  have fuses : (selectBank (loadFuses s)).1.boot.fuses = s.nv.fuses := by rw [e]; rfl
  have banks : (selectBank (loadFuses s)).1.nv.banks = s.nv.banks := by rw [e]; rfl
  have banks' : (recSec (selectBank (loadFuses s)).1 0xC020).nv.banks = s.nv.banks := by rw [recSec, record_nv, banks]
  have enters : (s.drv.st != .boot || s.boot.bank.isSome || s.icp.held || s.icp.dead) = false := by simp [st, fresh, held, alive]
  show execBootRomStart f s = _
  simp only [execBootRomStart, enters, latch, done, Bool.not_true, Bool.false_eq_true, if_false, fuses, banks, banks', verifies,
    beq_iff_eq]
  split
  · rfl
  · split <;> rfl

/-- The failed starts counted no longer, as STANDBY is reached (R104). -/
def failuresForgotten (s : State) : State := { s with aon := { s.aon with failCount := 0 } }

theorem exec_standbyEntry {b : Nat} (st : s.drv.st = .boot) (bank : s.boot.bank = some b) (stage : s.sup.stage = 9) :
    exec .standbyEntry s = .next (entryRecords (enter (confirmBank (failuresForgotten s)) .standby 0)) := by
  show execStandbyEntry s = _
  simp [execStandbyEntry, failuresForgotten, st, bank, stage]

end

/-- What the entry into COPPICE leaves (R105, R106). -/
theorem enterCoppice_ends (s : State) : (enterCoppice s).drv.st = .coppice ∧ (enterCoppice s).drv.cause = s.aon.coppiceReason ∧
    (enterCoppice s).saf.coppiceLine = true ∧ (enterCoppice s).boot = s.boot := by
  unfold enterCoppice
  rw [entryRecords_frame, updSaf_drv, enter_drv]
  exact ⟨rfl, rfl, rfl, by rw [updSaf_boot, enter_frame]; rfl⟩

/-- What the boot ROM has where it has read the fuses and selected a bank (R651, R658). -/
theorem selectBank_loadFuses (s : State) : (selectBank (loadFuses s)).1.drv.st = s.drv.st ∧ (selectBank (loadFuses s)).1.aon = s.aon ∧
    (selectBank (loadFuses s)).1.boot = { s.boot with fuses := s.nv.fuses } := by
  refine ⟨(selectBank_kept (loadFuses_kept (kb := true) (Kept.refl s))).st rfl, ?_, ?_⟩
  all_goals rw [selectBank_frame]; rfl

/-- What the entry into STANDBY leaves of a state in BOOT (R95, R104, R107). -/
theorem entersStandby (v : State) : ∃ t, entryRecords (enter v .standby 0) = t ∧ t.drv.st = .standby ∧ t.drv.prev = v.drv.st ∧
    t.aon.failCount = v.aon.failCount ∧ t.nv.banks = v.nv.banks ∧ t.nv.fuses = v.nv.fuses ∧ t.nv.bcr = v.nv.bcr ∧
      t.boot = v.boot := by
  have nv : (enter v .standby 0).nv = (copyStartLog v).nv := enter_nv ..
  refine ⟨_, rfl, ?_⟩
  rw [entryRecords_frame]
  dsimp only
  rw [enter_drv, enter_failCount, nv, copyStartLog_nv]
  exact ⟨rfl, rfl, rfl, rfl, rfl, rfl, by rw [enter_frame]; rfl⟩

/-- Settles O32: the boot ROM by `exec_bootRomStart_selects`, a bank that runs by its self-tests, the entry into STANDBY by the bank that
is confirmed. One step for the whole boot ROM, CAUSE of COPPICE, and what chapter 21 leaves open of banks and the boot control record are
the model's (log entries 32 and 33). -/
theorem bootRomSelectsVerifiesAndStarts : Obligations.BootRomSelectsVerifiesAndStarts := by
  intro s
  refine ⟨fun f st fresh held alive => ⟨fun latch => ?coppice, fun latch done => ?selects⟩, fun b st bank stage => ?standby⟩
  case coppice =>
    obtain ⟨mode, cause, line, boot⟩ := enterCoppice_ends (loadFuses s)
    exact ⟨_, exec_bootRomStart_coppice st fresh held alive latch, mode, cause, line, (congrArg Boot.bank boot).trans fresh⟩
  case selects =>
    have run := exec_bootRomStart_selects (f := f) st fresh held alive latch done
    obtain ⟨mode, aon, boot⟩ := selectBank_loadFuses s
    have kind := failingKind_congr (s := loadFuses s) (congrArg Boot.fuses boot) f
    generalize selectBank (loadFuses s) = p at run mode aon boot kind ⊢
    obtain ⟨u, b, trial⟩ := p
    dsimp only at run mode aon boot kind ⊢
    refine ⟨fun (good : verifies s b = true) pass => ?runs,
      fun (bad : verifies s b = false) (other : verifies s (1 - b) = true) pass => ?fallback,
      fun (bad : verifies s b = false) (bad' : verifies s (1 - b) = false) => ?noImage,
      fun (good : verifies s b = true) fails => ?testFails⟩
    case runs =>
      obtain ⟨t, e, drv, -, stage, qa, boot'⟩ := runBank_starts (kind.trans pass) b trial false
      rw [boot] at boot'
      refine ⟨t, by rw [run, if_pos good, e], by rw [drv, mode, st], ?_⟩
      rw [boot']
      exact ⟨rfl, rfl, rfl, rfl, stage, qa⟩
    case fallback =>
      have kind' : failingKind (recSec u 0xC020) f = failingKind u f := failingKind_congr (by rw [recSec, record_boot]) f
      obtain ⟨t, e, drv, io, stage, -, boot'⟩ := runBank_starts (kind'.trans (kind.trans pass)) (1 - b) false true
      refine ⟨t, by rw [run, if_neg (by simp [bad]), if_pos other, e], by rw [drv, recSec, record_st, mode, st], ?_⟩
      rw [boot', io, recSec, record_lastFault]
      exact ⟨rfl, rfl, rfl, stage⟩
    case noImage =>
      refine ⟨_, by rw [run, if_neg (by simp [bad]), if_neg (by simp [bad'])], rfl, ?_⟩
      rw [startFail_fails, recSec, record_aon, aon]; rfl
    case testFails =>
      refine ⟨_, by rw [run, if_pos good, runBank_fails (kind.trans_ne fails)], rfl, ?_, ?_⟩
      · rw [startFail_sfail, kind]
      · rw [startFail_fails, aon]; rfl
  case standby =>
    obtain ⟨t, e, mode, prev, count, banks, fuses, bcr, boot⟩ := entersStandby (confirmBank (failuresForgotten s))
    rw [confirmBank_frame] at prev count banks fuses boot
    refine ⟨t, by rw [exec_standbyEntry st bank stage, e], mode, prev.trans st, count, banks, fuses, boot, fun trial gen => ?_,
      fun trial back gen => ?_, fun trial back => ?_⟩
    · rw [bcr, confirmBank_trial (s := failuresForgotten s) bank trial, bcrNow_bcrUpdate (failuresForgotten s) _ gen]; exact ⟨rfl, rfl⟩
    · rw [bcr, confirmBank_fallback (s := failuresForgotten s) bank trial back, bcrNow_bcrUpdate (failuresForgotten s) _ gen]
    · rw [bcr, confirmBank_confirmed (s := failuresForgotten s) bank trial back]; rfl

end Sys2Proof.Machine
end

section
/-! The memory, link and output slots of the cells (R112, R118 to R127, R132, R135 to R140, R149): what each leaves where it runs, and
what of it reaches region memory and the PWM generator. -/

namespace Sys2Proof.Machine

section
variable {op : Nat} {c : CellSel} {w : W64} {s : State} {b p : Nat} {x : Cell}

/-- A slot runs only for an activation, on the block of its context's region (R118, R126). -/
theorem slotRuns_some {a : Activation} (h : slotRuns op c w s = some (b, p, a)) :
    (ctxAt s c.ctx).act = some a ∧ b = (ctxAt s c.ctx).region * 4 + c.block := by
  unfold slotRuns at h
  dsimp only at h
  split at h
  · cases h
  next act =>
    split at h
    · cases h
    · split at h
      · cases h; exact ⟨act, rfl⟩
      · cases h

theorem slotOn_act (h : slotOn op c w s b p x) : ∃ a, (ctxAt s c.ctx).act = some a :=
  h.1.imp fun _ run => (slotRuns_some run).1

theorem slotOn_block (h : slotOn op c w s b p x) : b = (ctxAt s c.ctx).region * 4 + c.block :=
  h.1.elim fun _ run => (slotRuns_some run).2

/-! A slot without operand B (R117, R121). -/

theorem slotA_met (f : Cell → Cell × Bool) (h : slotOn op c w s b p x) (m : condMet w x = true) :
    slotA op c w s f = slotGives c w s b p (f x) := by
  obtain ⟨⟨a, run⟩, rfl⟩ := h
  simp only [slotA, run, m, if_true]; rfl

theorem slotA_unmet (f : Cell → Cell × Bool) (h : slotOn op c w s b p x) (m : condMet w x = false) :
    slotA op c w s f = slotDone s c w false := by
  obtain ⟨⟨a, run⟩, rfl⟩ := h
  simp only [slotA, run, m, Bool.false_eq_true, if_false]

/-! The operations that are no such slot, each where it runs. -/

theorem exec_opSt (h : slotOn 0x26 c w s b p x) : exec (.opSt c w) s =
    .next (slotDone (if condMet w x then ctxStore s c.ctx (wordAddr w) (x.x.at (fld w 51 47)) else s) c w false) := by
  obtain ⟨⟨a, run⟩, rfl⟩ := h
  show execOpSt c w s = _
  simp only [execOpSt, run]; split <;> rfl

theorem exec_opWcmp (h : slotOn 0x2C c w s b p x) : exec (.opWcmp c w) s = .next
    (if condMet w x && pwmWrites s c.ctx then
      snoop (putShadow (slotDone s c w false) (fld w 32 25) (x.x.at (fld w 51 47))) 0x10
        [shadowItem (fld w 32 25) (x.x.at (fld w 51 47))] false
    else slotDone s c w false) := by
  obtain ⟨⟨a, run⟩, rfl⟩ := h
  show execOpWcmp c w s = _
  simp only [execOpWcmp, run]; split <;> rfl

theorem exec_opLdall (h : slotOn 0x2D c w s b p x) : exec (.opLdall c w) s = .next
    (if condMet w x && pwmWrites s c.ctx then snoop (setLda (slotDone s c w false) (fld w 7 0) true) 0x10 [] true
    else slotDone s c w false) := by
  obtain ⟨⟨a, run⟩, rfl⟩ := h
  show execOpLdall c w s = _
  simp only [execOpLdall, run]; split <;> rfl

theorem exec_opFlag (h : slotOn 0x2E c w s b p x) : exec (.opFlag c w) s = .next
    (if condMet w x then
      updCtx (slotDone s c w false) c.ctx fun y => { y with flagsPend := setBit y.flagsPend (fld w 23 20) (bit w 0) }
    else slotDone s c w false) := by
  obtain ⟨⟨a, run⟩, rfl⟩ := h
  show execOpFlag c w s = _
  simp only [execOpFlag, run]; split <;> rfl

/-- A context whose activation's part on a logical cell has ended (R149). -/
def endPart (c : CellSel) (y : Ctx) : Ctx :=
  { y with act := y.act.map fun a => { a with ended := (c.block.val, c.lcell.val) :: a.ended } }

/-- END has no condition (R121). -/
theorem exec_opEnd (h : slotOn 0x02 c w s b p x) : exec (.opEnd c w) s = .next
    (let t := updCtx (slotDone s c w false) c.ctx (endPart c)
     { t with thk := { t.thk with preempted := t.thk.preempted.filter fun q =>
      !(q.by_ == c.ctx.val && q.block == c.block.val && q.lcell == c.lcell.val) } }) := by
  obtain ⟨⟨a, run⟩, -⟩ := h
  show execOpEnd c w s = _
  simp only [execOpEnd, run]; rfl

/-- A slot's end leaves its context's flags alone and moves its activation on (R120, R122). -/
theorem ctxAt_slotDone (s : State) (c : CellSel) (w : W64) (sat : Bool) : ctxAt (slotDone s c w sat) c.ctx =
    { ctxAt s c.ctx with
      status := if sat then setBit (ctxAt s c.ctx).status 0 true else (ctxAt s c.ctx).status
      act := (ctxAt s c.ctx).act.map fun a => a.advance (c.block.val, c.lcell.val) (bit w 57) } :=
  ctxAt_updCtx_same s _ c.ctx.isLt

@[simp] theorem slotDone_pwm (s : State) (c : CellSel) (w : W64) (sat : Bool) : (slotDone s c w sat).pwm = s.pwm := rfl

theorem Activation.advance_started (a : Activation) (cell : Nat × Nat) (pp : Bool) : (a.advance cell pp).started.contains cell = true := by
  unfold Activation.advance; dsimp only
  split
  · assumption
  · simp

end

/-! Links (R112, R120, R127). -/

section
variable {c : CellSel} {w : W64} {s : State} {b p : Nat} {x : Cell}

/-- PUT waits where its queue is full, or the cell it leads to is not mapped. -/
theorem exec_opPut_waits {t : Nat × Nat × Nat} (h : slotOn 0x28 c w s b p x) (ht : t = linkTarget b c.lcell (fld w 21 20))
    (full : (s.thk.blocks.at t.1).mapped t.2.1 = false ∨
      2 ≤ (((s.thk.blocks.at t.1).cells.at ((s.thk.blocks.at t.1).phys t.2.1)).queue t.2.2).length) : exec (.opPut c w) s = .next s := by
  obtain ⟨⟨a, run⟩, rfl⟩ := h
  subst ht
  show execOpPut c w s = _
  simp only [execOpPut, run]
  exact if_pos (by simpa using full)

theorem exec_opPut_takes {t : Nat × Nat × Nat} {q : List W18} (h : slotOn 0x28 c w s b p x) (m : condMet w x = true)
    (ht : t = linkTarget b c.lcell (fld w 21 20)) (mapped : (s.thk.blocks.at t.1).mapped t.2.1 = true)
    (hq : q = ((s.thk.blocks.at t.1).cells.at ((s.thk.blocks.at t.1).phys t.2.1)).queue t.2.2) (room : q.length < 2) :
    exec (.opPut c w) s = .next (slotDone (updCell (useLink s c.ctx t) t.1 ((s.thk.blocks.at t.1).phys t.2.1) fun y =>
      y.setQueue t.2.2 (q ++ [x.x.at (fld w 51 47)])) c w false) := by
  obtain ⟨⟨a, run⟩, rfl⟩ := h
  subst ht hq
  show execOpPut c w s = _
  simp only [execOpPut, run, m, mapped, if_true]
  exact if_neg (by simpa using room)

theorem exec_opGet_waits (h : slotOn 0x29 c w s b p x) (e : x.queue (fld w 21 20) = []) : exec (.opGet c w) s = .next s := by
  obtain ⟨⟨a, run⟩, rfl⟩ := h
  show execOpGet c w s = _
  simp only [execOpGet, run, e]

theorem exec_opGet_takes {v : W18} {q : List W18} (h : slotOn 0x29 c w s b p x) (m : condMet w x = true)
    (e : x.queue (fld w 21 20) = v :: q) :
    exec (.opGet c w) s = .next (slotDone (updCell (useLink s c.ctx (b, c.lcell.val, fld w 21 20)) b p fun y =>
      { y.setQueue (fld w 21 20) q with x := y.x.put (slotRd w) v }) c w false) := by
  obtain ⟨⟨a, run⟩, rfl⟩ := h
  show execOpGet c w s = _
  simp only [execOpGet, run, e, m, if_true]

end

/-! Stores into region memory (R135, R138, R139). -/

section
variable (s : State) {c a : Nat} (v : W18)

theorem ctxStore_stream (h : a < 0x400) : ctxStore s c a v = s := if_pos h

theorem ctxStore_signal (lo : 0x400 ≤ a) (hi : a < 0x1000) : ctxStore s c a v =
    updCtx s c fun x => { x with act := x.act.map fun q => { q with sig := (a, v) :: q.sig } } := by
  rw [ctxStore, if_neg (by omega), if_pos (by simp [inSignal, lo, hi])]

theorem ctxStore_state (lo : 0x1000 ≤ a) : ctxStore s c a v = putBank s (ctxAt s c).region (!(ctxAt s c).stBank) a v := by
  rw [ctxStore, if_neg (by omega), if_neg (by simp [inSignal, lo])]

theorem putBank_banks (g : Nat) (k : Bool) (a : Nat) : putBank s g k a v =
    { s with thk := { s.thk with rmem := (putBank s g k a v).thk.rmem, rmemB := (putBank s g k a v).thk.rmemB } } := by
  unfold putBank; split <;> rfl

/-- A word written into one bank of one region changes that bank and no other. -/
theorem bankOf_putBank (g : Nat) (k : Bool) (a j : Nat) (l : Bool) : bankOf (putBank s g k a v).thk j l =
    if j = g ∧ g < 4 ∧ l = k then memSet (bankOf s.thk g k) a v else bankOf s.thk j l := by
  cases k <;> cases l <;> simp [putBank, bankOf, Vector.at_upd]

theorem Ctx.region_lt (x : Ctx) : x.region < 4 := Nat.mod_lt _ (by decide)

end

/-! Compare writes and load-all (R119, R124, R343, R346). -/

section
variable {c : CellSel} {w : W64} {s : State} {b p : Nat} {x : Cell}

/-- What passes a snooped source changes the check units and, where one records a mismatch, the log and the trace (R635, R642). -/
theorem snoop_frame (s : State) (src : Nat) (items : List Item) (last : Bool) : snoop s src items last =
    { s with chk := (snoop s src items last).chk, io := (snoop s src items last).io, trc := (snoop s src items last).trc } := by
  unfold snoop
  split
  next up =>
    clear up
    generalize List.range 8 = l
    induction l generalizing s with
    | nil => rfl
    | cons k l ih => rw [List.foldl_cons, ih, putChk_frame]
  next => rfl

theorem snoop_pwm (s : State) (src : Nat) (items : List Item) (last : Bool) : (snoop s src items last).pwm = s.pwm := by rw [snoop_frame]

theorem putShadow_pwm_congr {s t : State} (h : t.pwm = s.pwm) (k : Nat) (v : W18) : (putShadow t k v).pwm = (putShadow s k v).pwm := by
  unfold putShadow updUnit; split_ifs <;> simp only [h]

theorem setLda_lda (s : State) {mask u : Nat} (byCtx : Bool) (lt : u < 6) (h : mask.testBit u = true) :
    ((setLda s mask byCtx).pwm.units.at u).lda = true := by
  have at_u : (setLda s mask byCtx).pwm.units.at u = _ := Vector.at_ofFn _ lt
  rw [at_u]; simp [h]

/-- The conditions of R124 under which a compare write acts. -/
theorem pwmWrites_of {a : Activation} {c : Nat} (run : s.drv.st = .running) (out : (ctxAt s c).outPwm = true)
    (act : (ctxAt s c).act = some a) (free : a.suppressed = false) : pwmWrites s c = true := by
  simp [pwmWrites, run, out, act, free]

/-- One of those conditions is missing in context `c`. -/
def outputsBarred (s : State) (c : Nat) : Prop :=
  s.drv.st ≠ .running ∨ (ctxAt s c).outPwm = false ∨ (ctxAt s c).act = none ∨ ∃ a, (ctxAt s c).act = some a ∧ a.suppressed = true

theorem pwmWrites_barred {a : Activation} {c : Nat} (act : (ctxAt s c).act = some a) (h : outputsBarred s c) : pwmWrites s c = false := by
  rcases h with st | out | none | ⟨a', act', sup⟩
  · simp [pwmWrites, st]
  · simp [pwmWrites, out]
  · simp [none] at act
  · simp [pwmWrites, act', sup]

/-- An output slot changes nothing but its context where R124 lets it not act: it does not run, or it ends as any slot does. -/
theorem outputSlot_discarded {op : Nat} {i : Instr} (idle : slotRuns op c w s = none → exec i s = .next s)
    (off : ∀ b p x, slotOn op c w s b p x → pwmWrites s c.ctx = false → exec i s = .next (slotDone s c w false))
    (h : outputsBarred s c.ctx) : ∃ t, exec i s = .next t ∧ t = { s with thk := { s.thk with ctxs := t.thk.ctxs } } := by
  cases run : slotRuns op c w s with
  | none => exact ⟨s, idle run, rfl⟩
  | some r =>
    obtain ⟨b, p, a⟩ := r
    exact ⟨_, off b p _ ⟨⟨a, run⟩, rfl⟩ (pwmWrites_barred (slotRuns_some run).1 h), rfl⟩

theorem exec_opWcmp_idle (h : slotRuns 0x2C c w s = none) : exec (.opWcmp c w) s = .next s := by
  show execOpWcmp c w s = _
  simp only [execOpWcmp, h]

theorem exec_opLdall_idle (h : slotRuns 0x2D c w s = none) : exec (.opLdall c w) s = .next s := by
  show execOpLdall c w s = _
  simp only [execOpLdall, h]

theorem exec_opWcmp_discards (h : slotOn 0x2C c w s b p x) (off : condMet w x = false ∨ pwmWrites s c.ctx = false) :
    exec (.opWcmp c w) s = .next (slotDone s c w false) := by
  rw [exec_opWcmp h, if_neg (by rcases off with e | e <;> simp [e])]

theorem exec_opLdall_discards (h : slotOn 0x2D c w s b p x) (off : condMet w x = false ∨ pwmWrites s c.ctx = false) :
    exec (.opLdall c w) s = .next (slotDone s c w false) := by
  rw [exec_opLdall h, if_neg (by rcases off with e | e <;> simp [e])]

theorem exec_opWcmp_acts (h : slotOn 0x2C c w s b p x) (m : condMet w x = true) (on : pwmWrites s c.ctx = true) :
    exec (.opWcmp c w) s = .next (snoop (putShadow (slotDone s c w false) (fld w 32 25) (x.x.at (fld w 51 47))) 0x10
      [shadowItem (fld w 32 25) (x.x.at (fld w 51 47))] false) := by
  rw [exec_opWcmp h, if_pos (by simp [m, on])]

theorem exec_opLdall_acts (h : slotOn 0x2D c w s b p x) (m : condMet w x = true) (on : pwmWrites s c.ctx = true) :
    exec (.opLdall c w) s = .next (snoop (setLda (slotDone s c w false) (fld w 7 0) true) 0x10 [] true) := by
  rw [exec_opLdall h, if_pos (by simp [m, on])]

end

/-- A watchdog deadline leaves its context without an activation (R29, R30). -/
theorem watchdogDeadline_ends (s : State) (c : Fin 160) : ∃ t, exec (.watchdogDeadline c) s = .next t ∧ (ctxAt t c).act = none := by
  by_cases act : (ctxAt s c).act = none
  · refine ⟨s, ?_, act⟩
    show execWatchdogDeadline c s = _
    rw [execWatchdogDeadline, if_pos (by simp [act])]
  · obtain ⟨u, -, -, -, ended, -, -, e⟩ := exec_watchdogDeadline act
    refine ⟨_, e, ?_⟩
    split
    · exact (loseCtx_ctxAt u c.isLt).2.1 ended
    · exact ended

/-- Settles O57: a compare write ends as any slot does unless `pwmWrites` holds, which is what R124 asks; the watchdog by what it leaves
of its context. -/
theorem compareWritesActOnlyWhereR124Allows : Obligations.CompareWritesActOnlyWhereR124Allows := by
  intro q w s
  refine ⟨fun i hi barred => ?discarded, fun b p x a run out act free met => ⟨fun on => ?wcmp, fun on => ?ldall⟩,
    watchdogDeadline_ends s q.ctx⟩
  case discarded =>
    rcases hi with rfl | rfl
    · exact outputSlot_discarded exec_opWcmp_idle (fun _ _ _ on off => exec_opWcmp_discards on (.inr off)) barred
    · exact outputSlot_discarded exec_opLdall_idle (fun _ _ _ on off => exec_opLdall_discards on (.inr off)) barred
  case wcmp =>
    exact ⟨_, exec_opWcmp_acts on met (pwmWrites_of run out act free), (snoop_pwm ..).trans (putShadow_pwm_congr (slotDone_pwm ..) ..)⟩
  case ldall =>
    refine ⟨_, exec_opLdall_acts on met (pwmWrites_of run out act free), fun u lt h => ?_⟩
    rw [snoop_pwm]; exact setLda_lda _ _ lt h

/-! Tables (R119, R127). -/

/-- Within the partition a table word is the coefficient word. -/
theorem lutWord_inside (s : State) (b k : Nat) {off : Nat} (n : Nat) (h : off < 512) :
    lutWord s b k off n = s18 (memGet (s.thk.blocks.at b).coef (k * 512 + off)) := by rw [lutWord, if_pos h]

section
variable {c : CellSel} {w : W64} {s : State} {b p : Nat} {x : Cell}

/-- LUT interpolates between two table words, and where that gives no word takes either neighbour (R119; log entry 5). -/
theorem exec_opLut_met (h : slotOn 0x20 c w s b p x) (m : condMet w x = true) :
    ∃ (n : Int) (y : Cell × Bool), exec (.opLut c w) s = .next (slotGives c w { s with free := s.free + 3 } b p y) ∧ (n = 0 ∨ n = 1) ∧
      (let k := 18 - fld w 24 20
       let i := (srcA w x + 131072).toNat
       let o := fld w 33 25 + i / 2 ^ k
       let q := c.lcell * 512 + o
       let d := s18 (memGet (s.thk.blocks.at b).coef (q + 1)) - s18 (memGet (s.thk.blocks.at b).coef q)
       o + 1 < 512 →
         y = toRd w x (s18 (memGet (s.thk.blocks.at b).coef q) + ((i % 2 ^ k : Nat) * d) / 2 ^ k + n) ∧
           (((i % 2 ^ k : Nat) * d) % 2 ^ k = 0 → n = 0)) := by
  have run : slotOn 0x20 c w { s with free := s.free + 3 } b p x := h
  have e : exec (.opLut c w) s = .next _ := congrArg Host.Outcome.next (slotA_met _ run m)
  rw [← slotOn_block h] at e
  let k := 18 - fld w 24 20
  let i := (srcA w x + 131072).toNat
  let o := fld w 33 25 + i / 2 ^ k
  let num : Int := (i % 2 ^ k : Nat) * (lutWord s b c.lcell (o + 1) (s.free + 2) - lutWord s b c.lcell o (s.free + 1))
  refine ⟨if num % 2 ^ k = 0 then 0 else ((Config.freeNat s.free % 2 : Nat) : Int), _, e, ?bit, fun (inside : o + 1 < 512) => ?value⟩
  case bit => split <;> omega
  case value =>
    have low := lutWord_inside s b c.lcell (s.free + 1) (Nat.lt_of_succ_lt inside)
    have high := lutWord_inside s b c.lcell (s.free + 2) inside
    rw [← Nat.add_assoc] at high
    rw [← low, ← high]
    exact ⟨rfl, fun exactly => if_pos exactly⟩

end

/-- Settles O48: each operation by what its slot does where it runs, a store by the area that its address lies in. That END ends the part
whatever its condition, and that PUT waits for a cell that is not mapped, are the model's (log entries 63 and 64). -/
theorem cellMemoryAndOutputOperationsTakeEffect : Obligations.CellMemoryAndOutputOperationsTakeEffect := by
  intro c w s b p x blk a g addr v l runs
  refine ⟨fun ⟨on, met⟩ => ?ldc, fun ⟨on, met⟩ => ?ld, fun ⟨on, met⟩ => exec_opLut_met on met, fun ⟨on, met⟩ => ?st, ?store,
    fun ⟨on, met⟩ => ?put, fun ⟨on, met⟩ => ?get, fun ⟨on, met⟩ => ?wcmp, fun ⟨on, met⟩ => ?ldall, fun ⟨on, met⟩ => ?flag,
    fun on => ?ends, ?unmet⟩
  case ldc =>
    have e : exec (.opLdc c w) s = .next _ := congrArg Host.Outcome.next (slotA_met _ on met)
    rw [e, ← slotOn_block on]
  case ld => exact congrArg Host.Outcome.next (slotA_met _ on met)
  case st => rw [exec_opSt on, if_pos met]; rfl
  case store =>
    rintro st rfl h bk
    refine ⟨ctxStore_stream s v, fun lo hi => ?_, fun lo => ?_⟩
    · rw [ctxStore_signal s v lo hi, ctxAt_updCtx_same _ _ c.ctx.isLt]
      exact ⟨rfl, rfl, fun d ne => Vector.at_upd_ne _ _ ne⟩
    · have region := Ctx.region_lt (ctxAt s c.ctx)
      rw [ctxStore_state s v lo]
      refine ⟨putBank_banks .., fun j k e other wf => ?_, fun wf => ?_⟩
      · rw [bankOf_putBank]
        split
        next same =>
          obtain ⟨rfl, -, rfl⟩ := same
          exact memGet_memSet_ne _ _ (by simpa [h, bk] using other)
        next => rfl
      · rw [bankOf_putBank, if_pos ⟨rfl, region, rfl⟩, memGet_memSet_same _ _ _ wf]
  case put =>
    intro t tb q
    exact ⟨fun _ mapped room => exec_opPut_takes on met rfl mapped rfl room, exec_opPut_waits on rfl⟩
  case get => exact ⟨fun e q => exec_opGet_takes on met, exec_opGet_waits on⟩
  case wcmp => exact ⟨exec_opWcmp_acts on met, fun off => exec_opWcmp_discards on (.inr off)⟩
  case ldall => exact ⟨exec_opLdall_acts on met, fun off => exec_opLdall_discards on (.inr off)⟩
  case flag =>
    rw [exec_opFlag on, if_pos met]
    refine ⟨_, rfl, rfl, ?_⟩
    rw [ctxAt_updCtx_same _ _ c.ctx.isLt, ctxAt_slotDone]
    exact ⟨rfl, rfl⟩
  case ends =>
    obtain ⟨a, act⟩ := slotOn_act on
    have after : (ctxAt _ c.ctx).act = _ := congrArg Ctx.act (ctxAt_updCtx_same (slotDone s c w false) (endPart c) c.ctx.isLt)
    rw [ctxAt_slotDone, endPart, act] at after
    exact ⟨_, _, exec_opEnd on, rfl, after, by simp, a.advance_started _ (bit w 57)⟩
  case unmet =>
    intro i op mem on off
    simp only [List.mem_cons, Prod.mk.injEq, List.not_mem_nil, or_false] at mem
    rcases mem with ⟨rfl, rfl⟩ | ⟨rfl, rfl⟩ | ⟨rfl, rfl⟩ | ⟨rfl, rfl⟩ | ⟨rfl, rfl⟩ | ⟨rfl, rfl⟩
    · exact congrArg Host.Outcome.next (slotA_unmet _ on off)
    · exact congrArg Host.Outcome.next (slotA_unmet _ on off)
    · rw [exec_opSt on, if_neg (by simp [off])]
    · exact exec_opWcmp_discards on (.inl off)
    · exact exec_opLdall_discards on (.inl off)
    · rw [exec_opFlag on, if_neg (by simp [off])]

end Sys2Proof.Machine
end

section
/-! Loading an image and the records of contexts (R155, R157, R159, R160, R195). -/

namespace Sys2Proof.Machine

variable {r : Req} {s : State}

/-- The two ends of a job with one check of its operands, as the outcomes of its row (R69). -/
theorem guarded_ends {op : Nat} {i : Instr} {good : Bool} {st : W16} {t : State} (h : applies op r s)
    (e : exec i s = .next (runJob op r s (guardSt good st (ok t)))) :
    (good = false → exec i s = .next (complete s op r st [])) ∧ (good = true → exec i s = .next (complete t op r stOk [])) := by
  rw [e]
  exact ⟨fun bad => congrArg _ (runJob_guard_false h bad), fun fine => congrArg _ (runJob_guard_true h fine)⟩

/-- Settles O10: three rows by their one check, TO_FLASH by that and by whether the staged image is whole. That BEGIN asks for 192 bytes
and that TO_FLASH fails while flash is not available are the model's (log entry 33). -/
theorem imageCommandsMoveTheStagedImage : Obligations.ImageCommandsMoveTheStagedImage := by
  intro r s h
  refine ⟨guarded_ends h rfl, guarded_ends h rfl, guarded_ends h rfl, ?toFlash⟩
  intro good whole
  have e : exec (.cfgImageToFlash r) s = .next (runJob 0x1011 r s (guardSt good stRange (if whole then
      ok { s with nv := { s.nv with slots := s.nv.slots.put (fieldAt r 9 1) s.thk.staging } } else .done s stFailed []))) := rfl
  refine ⟨fun bad => ?refused, fun fine part => ?failed, fun fine all => ?copied⟩
  case refused => rw [e, runJob_guard_false h bad]
  case failed => rw [e, part, if_neg Bool.false_ne_true, runJob_guard_true h fine]
  case copied => rw [e, all, if_pos rfl]; exact congrArg _ (runJob_guard_true h fine)

/-! CFG_CONTEXT (R159, R160, R195). -/

/-- The state that CFG_CONTEXT leaves behind its checks, before its completion. -/
def ctxWritten (s : State) (q : CtxReq) : State :=
  let s1 := updCtx s q.n (ctxNext q)
  let s2 := if (ctxAt s1 q.n).en then s1 else dropAct s1 q.n
  snoopConfig (if (ctxNext q (ctxAt s q.n)).ctrl ≠ (ctxAt s q.n).ctrl ∨ (ctxNext q (ctxAt s q.n)).period ≠ (ctxAt s q.n).period
    then writeMaintained s2 else s2)

/-- The two ends of CFG_CONTEXT, in each of its rows (R69, R159). -/
theorem ctxCommand_ends (h : applies 0x1012 r s) (w : Nat) : ctxCommand w r s =
    match ctxCheck s r w with
    | some st => complete s 0x1012 r st []
    | none => complete (ctxWritten s (ctxReq r)) 0x1012 r stOk [] := by
  unfold ctxCommand
  cases ctxCheck s r w with
  | some st => exact runJob_refuse h
  | none =>
    refine (runJob_done h).trans ?_
    simp only [ctxWritten, Bool.or_eq_true, bne_iff_ne]

theorem dropAct_act (s : State) {c : Nat} (h : c < 160) : (ctxAt (dropAct s c) c).act = none := by
  obtain ⟨_, _, e⟩ := dropAct_ctxAt s h
  rw [e]

/-- Settles O11: each row by the two ends of the command, its record field by field. That clearing EN ends an activation under way is the
model's (log entry 65). -/
theorem contextCommandsWriteTheSelectedFields : Obligations.ContextCommandsWriteTheSelectedFields := by
  intro r s h q x y s1 s2 t ends
  have row (w : Nat) : ctxCommand w r s = ends w := ctxCommand_ends h w
  refine ⟨congrArg _ (row 0), congrArg _ (row 1), congrArg _ (row 2), congrArg _ (row 3), fun lt => ?own,
    fun k ne => Vector.at_upd_ne _ _ ne, rfl, rfl, rfl, rfl, rfl, rfl, rfl⟩
  case own =>
    have written : ctxAt s1 q.n = y := ctxAt_updCtx_same _ _ lt
    refine ⟨written, fun off => ?_⟩
    have dropped : s2 = dropAct s1 q.n := if_neg (by rw [written, Ctx.en, off]; exact Bool.false_ne_true)
    rw [dropped, dropAct_act s1 lt]

end Sys2Proof.Machine
end

section
/-! CFG_ACQ, CFG_DSM and CFG_POS (R253 to R258, R265, R276 to R291, R297 to R333): each row is a job with one check of its operands, or
with that and the check of its RWA fields. -/

namespace Sys2Proof.Machine

section
variable {op : Nat} {r : Req} {s t : State} {i : Instr} {good may : Bool} {st : W16}

/-- A row with one check of its operands and one more, as its outcome (R69). -/
theorem jobEnd_of_guards (h : applies op r s) (e : exec i s = .next (runJob op r s (guardSt good stRange (guardSt may st (ok t))))) :
    exec i s = .next (jobEnd op r s good may st t) := e.trans (congrArg _ (runJob_guards h))

/-- A row with one check of its operands, as its outcome (R69). -/
theorem jobEnd_of_guard (h : applies op r s) (e : exec i s = .next (runJob op r s (guardSt good stRange (ok t)))) :
    exec i s = .next (jobEnd op r s good true st t) := e.trans (congrArg _ (runJob_guard h))

end

/-- Settles O13: each row by its one or two checks. Their order is the model's (log entry 8), and so is that a software trigger holds at
the instant of its job (log entry 38). -/
theorem converterConfigurationTakesEffect : Obligations.ConverterConfigurationTakesEffect := by
  refine ⟨fun r s h => ?acq, fun r s h => ?dsm⟩
  case acq =>
    exact ⟨jobEnd_of_guards h rfl, jobEnd_of_guards h rfl, jobEnd_of_guard h rfl, jobEnd_of_guards h rfl, jobEnd_of_guard h rfl,
      jobEnd_of_guard h rfl⟩
  case dsm => exact ⟨jobEnd_of_guards h rfl, jobEnd_of_guards h rfl, jobEnd_of_guard h rfl⟩

/-! Observers that a row of CFG_POS does not start anew (R321, R330). -/

/-- An observer that stays enabled on its source keeps what it says of itself (R321). -/
theorem Obs.adopt_valid_of_kept {x : Obs} {a : W64} (b : W64) (wb : W32) (was : x.en = true) (on : bit a 63 = true)
    (src : obsSrc a = obsSrc x.cfgA) : (x.adopt a b wb).valid = x.valid := by
  simp [Obs.adopt, was, on, src]

/-- New records of an observer that stays enabled on its source have no effect beyond them (R321, R330). -/
theorem setObs_of_kept {s : State} {o : Nat} {a : W64} (b : W64) (wb : W32) (was : (s.pos.obs.at o).en = true) (on : bit a 63 = true)
    (src : obsSrc a = obsSrc (s.pos.obs.at o).cfgA) : setObs s o a b wb = updObs s o fun x => x.adopt a b wb := by
  have valid : ((updObs s o fun x => x.adopt a b wb).pos.obs.at o).valid = (s.pos.obs.at o).valid := by
    rw [updObs_pos, Vector.at_upd]
    split
    · exact Obs.adopt_valid_of_kept b wb was on src
    · rfl
  simp only [setObs, was, on, src]
  simp [valid, -updObs_pos]

/-- The observers of one source changed, the test of the source as a proposition (R322). -/
theorem mapObs_source (s : State) (k : Nat) (f : Obs → Obs) : (mapObs s fun o => if (obsSrc o.cfgA == k) = true then f o else o) =
    mapObs s fun o => if obsSrc o.cfgA = k then f o else o := by
  simp only [beq_iff_eq]

/-- Settles O16: each row by its one or two checks, and the observer that stays as it is by `setObs_of_kept`. The order of the checks, the
access of WB, what a start anew clears and the mask of an observer are the model's (log entries 8, 9, 11, 40, 70). -/
theorem positionConfigurationTakesEffect : Obligations.PositionConfigurationTakesEffect := by
  intro r s h
  refine ⟨jobEnd_of_guards h rfl, ?enc, jobEnd_of_guard h rfl, jobEnd_of_guards h rfl, jobEnd_of_guards h rfl, setObs_of_kept _ _,
    jobEnd_of_guards h rfl, jobEnd_of_guard h rfl⟩
  case enc =>
    rw [← mapObs_source]
    exact jobEnd_of_guards h rfl

end Sys2Proof.Machine
end

section
/-! The converter groups while they run (R254 to R274, R276): triggers, holds and conversions. -/

namespace Sys2Proof.Machine

section
variable {s : State} {g : Nat}

@[simp] theorem updGroup_at_same (f : AcqGroup → AcqGroup) (h : g < 4) :
    (updGroup s g f).acq.groups.at g = f (s.acq.groups.at g) := Vector.at_upd_same _ _ h

theorem updGroup_at_ne (f : AcqGroup → AcqGroup) {k : Nat} (h : k ≠ g) : (updGroup s g f).acq.groups.at k = s.acq.groups.at k :=
  Vector.at_upd_ne _ _ h

/-- Only what a change makes of the group matters. -/
theorem updGroup_congr {f f' : AcqGroup → AcqGroup} (h : f (s.acq.groups.at g) = f' (s.acq.groups.at g)) :
    updGroup s g f = updGroup s g f' := by
  simp only [updGroup, Vector.upd, h]

/-- Two changes of a group are one. -/
theorem updGroup_updGroup (f f' : AcqGroup → AcqGroup) (h : g < 4) : updGroup (updGroup s g f) g f' = updGroup s g fun x => f' (f x) := by
  simp only [updGroup, Vector.upd, Vector.at_put_same _ _ h]
  simp [Vector.put]

/-- A flag of ACQ_GSTAT that was clear is set with its record (R281). -/
theorem acqFlag_new {i : Nat} {code : W16} (h : bit (s.acq.groups.at g).stat i = false) : acqFlag s g i code =
    recGroup (updGroup s g fun x => { x with stat := setBit x.stat i true }) g code := by
  simp [acqFlag, h]

/-- A trigger dropped: its count, and its flag with the record where it was clear (R266, R268, R281). -/
theorem acqFlag_counted {i hi lo : Nat} {code : W16} (lt : g < 4) (out : i < lo) (h : bit (s.acq.groups.at g).stat i = false) :
    ∃ u, u = updGroup s g (fun x => { x with stat := setBit (incSat x.stat hi lo) i true }) ∧
      acqFlag (updGroup s g fun x => { x with stat := incSat x.stat hi lo }) g i code = record u code g (u.acq.groups.at g).gstat := by
  refine ⟨_, rfl, ?_⟩
  rw [acqFlag_new (by rw [updGroup_at_same _ lt]; exact (bit_incSat_out _ (.inl out)).trans h), updGroup_updGroup _ _ lt]
  rfl

end

section
variable {x : AcqGroup}

/-- Without a held entry there is none to give way (R269). -/
theorem AcqGroup.yieldInj_none (c : Nat) (h : x.held = none) : x.yieldInj c = x := by simp [yieldInj, h]

/-- An injected entry held directly in the cycle of the sequence trigger gives way and is pending again (R269). -/
theorem AcqGroup.yieldInj_direct {c : Nat} {h : Held} (held : x.held = some h) (inj : h.inj = true) (direct : h.direct = true)
    (cyc : h.tsamp / 5 = c) : x.yieldInj c =
      { x with held := none, jpend := h.idx.foldl (fun p k => setBit p k true) x.jpend, first := true } := by
  simp [yieldInj, held, inj, direct, acqCycle, cyc]

/-- An idle group has no injected entry pending and no calibration in progress (R259, R276). -/
theorem AcqGroup.holdInj_idle (j t : Nat) (h : x.idle = true) : x.holdInj j t true =
    { x with held := some { inj := true, idx := [j], tsamp := t, cal := false, direct := true } } := by
  simp only [idle, waits, Bool.and_eq_true, Bool.not_eq_true', beq_iff_eq] at h
  simp [holdInj, h, setBit]

theorem AcqGroup.adopt_none (h : x.next = none) : x.adopt = x := by simp [adopt, h]

theorem AcqGroup.boundary_of_none (h : x.held = none) : x.boundary = true := by simp [boundary, h]

/-- Where the entry reached does not wait, or has started, no pending trigger is taken (R267). -/
theorem AcqGroup.takePend_started (h : bit (x.seq.at x.pos) 63 = false ∨ x.started = true) : x.takePend = x := by
  rcases h with h | h <;> simp [takePend, waits, h]

@[simp] theorem AcqGroup.takePend_held : x.takePend.held = x.held := by unfold takePend; split <;> rfl
@[simp] theorem AcqGroup.takePend_results : x.takePend.results = x.results := by unfold takePend; split <;> rfl
@[simp] theorem AcqGroup.takePend_stat : x.takePend.stat = x.stat := by unfold takePend; split <;> rfl
@[simp] theorem AcqGroup.adopt_held : x.adopt.held = x.held := by
  unfold adopt; split
  · split <;> rfl
  · rfl
@[simp] theorem AcqGroup.adopt_results : x.adopt.results = x.results := by
  unfold adopt; split
  · split <;> rfl
  · rfl

end

/-! Triggers (R259, R266, R268, R269). -/

section
variable {s : State} {g j : Fin 4}

/-- A sequence trigger starts the waiting entry: of an idle group, or ahead of an injected entry held in its cycle (R259, R269). -/
def seqStarts (s : State) (g : Nat) : Bool :=
  let x := s.acq.groups.at g
  let y := x.yieldInj (edgeTick s (gTrig x.gcfg) / 5)
  x.idle || (y.first && y.waits && !y.pend)

/-- A sequence trigger that starts the waiting entry holds it at once where DELAY is 0 (R259, R266). -/
theorem seqTrigger_starts (run : groupRuns s g = true) (src : gTrig (s.acq.groups.at g).gcfg ≠ 0) (starts : seqStarts s g = true) :
    seqTrigger s g = updGroup s g fun _ =>
      let t := edgeTick s (gTrig (s.acq.groups.at g).gcfg)
      let y := (s.acq.groups.at g).yieldInj (t / 5)
      let z := { y with seqCount := y.seqCount + 1 }
      if fld (y.seq.at y.pos) 43 32 = 0 then z.hold t true else { z with started := true, startAt := some (t / 5) } :=
  (if_neg (by simp [run, src])).trans (if_pos starts)

/-- A sequence trigger that starts nothing is held pending, or dropped (R266). -/
theorem seqTrigger_waits (run : groupRuns s g = true) (src : gTrig (s.acq.groups.at g).gcfg ≠ 0) (starts : seqStarts s g = false) :
    seqTrigger s g = if (s.acq.groups.at g).pend then acqFlag (updGroup s g fun x => { x with stat := incSat x.stat 31 24 }) g 1 0x6001
      else updGroup s g fun x => { x with pend := true } :=
  (if_neg (by simp [run, src])).trans (if_neg (ne_true_of_eq_false starts))

/-- An injected trigger of a running group: dropped, held by an idle group, or pending (R268, R269). -/
theorem injTrigger_runs (run : groupRuns s g = true) (src : jTrig ((s.acq.groups.at g).inj.at j) ≠ 0) : injTrigger s g j =
    let x := s.acq.groups.at g
    let t := edgeTick s (jTrig (x.inj.at j))
    if bit x.jpend j then acqFlag (updGroup s g fun x => { x with stat := incSat x.stat 23 16 }) g 2 0x6002
    else if x.idle then updGroup s g fun x => x.holdInj j t true
    else updGroup s g fun x => { x with jpend := setBit x.jpend j true, first := x.first || x.startAt == some (t / 5) } :=
  if_neg (by simp [run, src])

end

/-! Synchronous holds (R256, R260, R261, R267 to R269, R271, R276). -/

section
variable {s : State} {g : Fin 4}

/-- The tick of a synchronous hold (R271). -/
def holdTick (s : State) : Nat := s.clk.cycles + freeVal s % 5 - 2

theorem holdTick_near (s : State) : s.clk.cycles ≤ holdTick s + 2 ∧ holdTick s ≤ s.clk.cycles + 2 := by
  unfold holdTick; omega

/-- The state in which RUN_HOLD leaves its group as `x`: one free value has been taken (R271). -/
def heldState (s : State) (g : Nat) (x : AcqGroup) : State := updGroup (freeTaken s) g fun _ => x

theorem heldState_at (s : State) {g : Nat} (x : AcqGroup) (h : g < 4) : (heldState s g x).acq.groups.at g = x := updGroup_at_same _ h

section
variable (run : groupRuns s g = true) (next : (s.acq.groups.at g).next = none) (held : (s.acq.groups.at g).held = none)
  (test : (s.acq.groups.at g).test = false)
include run next held test

/-- RUN_HOLD where a pending injected entry holds next (R260, R268). -/
theorem exec_runHold_inj {j : Nat} (inj : (s.acq.groups.at g).nextInj = some j) :
    exec (.runHold g) s = .next (heldState s g ((s.acq.groups.at g).holdInj j (holdTick s) false)) := by
  show execRunHold g s = _
  simp only [execRunHold, AcqGroup.adopt_none next, run, AcqGroup.boundary_of_none held, test, inj, updGroup_updGroup _ _ g.isLt]
  rfl

/-- RUN_HOLD of the run at the group's place, once it has been started (R256, R261, R267). -/
theorem exec_runHold_run {y : AcqGroup} (inj : (s.acq.groups.at g).nextInj = none) (cal : (s.acq.groups.at g).calBusy = false)
    (take : (s.acq.groups.at g).takePend = y) (go : bit (y.seq.at (s.acq.groups.at g).pos) 63 = false ∨ y.started = true) :
    exec (.runHold g) s = .next (heldState s g (y.hold (holdTick s) false)) := by
  have starts : (!bit (y.seq.at (s.acq.groups.at g).pos) 63 || y.started) = true := by simpa using go
  show execRunHold g s = _
  simp only [execRunHold, AcqGroup.adopt_none next, run, AcqGroup.boundary_of_none held, test, inj, cal, take, starts,
    updGroup_updGroup _ _ g.isLt]
  rfl

end

/-- The run holds before any injected entry (R268, R269). -/
theorem AcqGroup.nextInj_none {x : AcqGroup} (h : x.first = true ∨ ((List.range 4).find? fun k => bit x.jpend k) = none) :
    x.nextInj = none := by
  unfold nextInj; split
  · rfl
  · next first => exact h.resolve_left first

/-- The lowest pending injected entry holds next (R268). -/
theorem AcqGroup.nextInj_lowest {x : AcqGroup} {k : Nat} (first : x.first = false)
    (h : ((List.range 4).find? fun k => bit x.jpend k) = some k) : x.nextInj = some k := (if_neg (by simp [first])).trans h

/-- A trigger pending for the entry reached is taken (R267). -/
theorem AcqGroup.takePend_waits {x : AcqGroup} (h : x.waits = true) (pend : x.pend = true) : x.takePend =
    { x with pend := false, started := true, seqCount := x.seqCount + 1 } := if_pos (by simp [h, pend])

end

/-! Conversions (R262, R270 to R274). -/

section
variable {g : Fin 4} {i : Fin 64} {h : Held} {s : State}

/-- ACQ_GSTAT after a conversion: OVR, and SAT where the delivered word has been limited (R262, R274). -/
def AcqGroup.convStat (x : AcqGroup) (ovr sat : Bool) : W32 := setBit (setBit x.stat 0 (bit x.stat 0 || ovr)) 4 (bit x.stat 4 || sat)

theorem AcqGroup.convStat_bits (x : AcqGroup) (ovr sat : Bool) : bit (x.convStat ovr sat) 0 = (bit x.stat 0 || ovr) ∧
    bit (x.convStat ovr sat) 4 = (bit x.stat 4 || sat) := by
  simp [convStat, bit_setBit]

/-- The test that leaves a value out, as the model and the statement write it. -/
theorem bne_eq_decide_ne (i : Nat) : (fun n => n != i) = fun n => decide (n ≠ i) := funext fun n => by rw [Bool.eq_iff_iff]; simp

/-- Values of the hold remain (R256). -/
theorem AcqGroup.converted_left {x : AcqGroup} {h : Held} {i : Nat} (left : h.idx.filter (fun n => n ≠ i) ≠ []) :
    x.converted h i = { x with held := some { h with idx := h.idx.filter fun n => n ≠ i } } := by
  unfold converted
  dsimp only
  rw [bne_eq_decide_ne, if_pos (by simpa using left)]

/-- The last value of a hold: the group holds nothing, its results stand, and its place, configuration and pending trigger follow (R258,
R261, R267). -/
theorem AcqGroup.converted_last {x : AcqGroup} {h : Held} {i : Nat} (last : h.idx.filter (fun n => n ≠ i) = []) :
    ∃ y : AcqGroup, x.converted h i = y.adopt.takePend ∧ y.held = none ∧ y.results = x.results := by
  unfold converted
  dsimp only
  rw [bne_eq_decide_ne, if_neg (by simpa using last)]
  refine ⟨_, rfl, ?_, ?_⟩
  all_goals
    split
    · rfl
    · split <;> rfl

theorem AcqGroup.converted_results (x : AcqGroup) (h : Held) (i : Nat) : (x.converted h i).results = x.results := by
  by_cases last : h.idx.filter (fun n => n ≠ i) = []
  · obtain ⟨y, e, -, results⟩ := converted_last (x := x) last
    rw [e, takePend_results, adopt_results, results]
  · rw [converted_left last]

/-- A group with the result entry of a conversion in its table (R270, R272). -/
def AcqGroup.withResult (x : AcqGroup) (g k : Nat) (e : W64) (inj ovr : Bool) (i : Nat) (code : W18) (h : Held) : AcqGroup :=
  { x with results := x.results.put k (resultWord e code, resultTag ovr inj h.cal i g h.tsamp) }

/-- CONVERSION_COMPLETE of a value that is held and whose turn it is (R260, R262). -/
theorem exec_conversionComplete {inj : Bool} (code : W18) (ovr : Bool) (held : (s.acq.groups.at g).held = some h) (kind : h.inj = inj)
    (mem : i.val ∈ h.idx) (ready : stageReady (s.acq.groups.at g) h i = true) :
    let x := s.acq.groups.at g
    let e := if inj then x.inj.at i else x.seq.at i
    let k := if inj then 64 + i.val else i.val
    let w := scaled (x.scale.at k) (if bit e 60 then code.toInt else code.toNat)
    ∃ u, u = updGroup s g (fun x => { (x.withResult g k e inj ovr i code h).converted h i with
        stat := x.convStat ovr (bit e 31 && decide (sat18 w ≠ w)) }) ∧
      exec (.conversionComplete g inj i code ovr) s = .next (if bit e 31 then
        deliver u (routeAcq u g) (fld e 30 22) (w18 (sat18 w)) (flagWord ovr inj h.cal i x.seqCount.toNat) else u) := by
  refine ⟨_, rfl, ?_⟩
  show execConversionComplete g inj i code ovr s = _
  unfold execConversionComplete
  simp only [held]
  rw [if_neg (by simp [kind, mem, ready])]
  exact (apply_ite Host.Outcome.next _ _ _).symm

end

/-- Settles O14: triggers by the ends of `seqTrigger` and `injTrigger`, a synchronous hold by what holds next, and a conversion by
whether values of the hold remain. That a CLK_ACQ cycle is five ticks, in which a sequence trigger goes ahead of an injected hold, and
that what a hold takes stands in its row are the model's (log entry 38). -/
theorem convertersTriggerConvertAndDeliver : Obligations.ConvertersTriggerConvertAndDeliver := by
  refine ⟨fun g j s run => ⟨fun src => ?sequence, fun src => ?injected, fun next held test => ?hold⟩,
    fun g inj i code ovr h s held kind mem ready => ?conversion⟩
  case sequence =>
    intro τ y starts
    refine ⟨fun none => AcqGroup.yieldInj_none _ none, fun h held inj direct cyc => AcqGroup.yieldInj_direct held inj direct cyc,
      fun st now => ?direct, fun st later => ?delayed, fun st pend => ?pending, fun st pend clear => ?dropped⟩
    case direct => exact congrArg _ ((seqTrigger_starts run src st).trans (updGroup_congr (if_pos now)))
    case delayed => exact congrArg _ ((seqTrigger_starts run src st).trans (updGroup_congr (if_neg later)))
    case pending => exact congrArg _ ((seqTrigger_waits run src st).trans (if_neg (ne_true_of_eq_false pend)))
    case dropped =>
      obtain ⟨u, hu, e⟩ := acqFlag_counted (hi := 31) (lo := 24) (code := 0x6001) g.isLt (by decide) clear
      exact ⟨u, hu, congrArg _ ((seqTrigger_waits run src st).trans ((if_pos pend).trans e))⟩
  case injected =>
    intro τ
    have ends := injTrigger_runs run src
    refine ⟨fun pend clear => ?dropped, fun free idle => ?held, fun free busy => ?pending⟩
    case dropped =>
      obtain ⟨u, hu, e⟩ := acqFlag_counted (hi := 23) (lo := 16) (code := 0x6002) g.isLt (by decide) clear
      exact ⟨u, hu, congrArg _ (ends.trans ((if_pos pend).trans e))⟩
    case held =>
      exact congrArg _ (ends.trans ((if_neg (ne_true_of_eq_false free)).trans ((if_pos idle).trans
        (updGroup_congr (AcqGroup.holdInj_idle _ _ idle)))))
    case pending =>
      exact congrArg _ (ends.trans ((if_neg (ne_true_of_eq_false free)).trans (if_neg (ne_true_of_eq_false busy))))
  case hold =>
    intro lowest
    have near := holdTick_near s
    have own (x : AcqGroup) : (heldState s g x).acq.groups.at g = x := heldState_at s x g.isLt
    refine ⟨fun k first low => ?entry, fun noInj cal go => ?run, fun noInj cal wait fresh rep pend => ?waitMet⟩
    case entry =>
      exact ⟨_, _, exec_runHold_inj run next held test (AcqGroup.nextInj_lowest first low), rfl, own _, rfl, rfl, rfl, rfl, near⟩
    case run =>
      exact ⟨_, _, exec_runHold_run run next held test (AcqGroup.nextInj_none noInj) cal (AcqGroup.takePend_started go) go, rfl, own _,
        rfl, rfl, cal, rfl, near⟩
    case waitMet =>
      have waits : (s.acq.groups.at g).waits = true := by
        simp [AcqGroup.waits, AcqGroup.boundary_of_none held, wait, fresh, rep, cal, test]
      exact ⟨_, _, exec_runHold_run run next held test (AcqGroup.nextInj_none noInj) cal (AcqGroup.takePend_waits waits pend) (.inr rfl),
        rfl, own _, rfl, rfl⟩
  case conversion =>
    intro x e k w
    obtain ⟨u, hu, ex⟩ := exec_conversionComplete code ovr held kind mem ready
    have own : u.acq.groups.at g = { (x.withResult g k e inj ovr i code h).converted h i with
        stat := x.convStat ovr (bit e 31 && decide (sat18 w ≠ w)) } := by rw [hu]; exact updGroup_at_same _ g.isLt
    obtain ⟨ovrBit, satBit⟩ := AcqGroup.convStat_bits x ovr (bit e 31 && decide (sat18 w ≠ w))
    refine ⟨u, ex, by rw [hu]; rfl, fun m ne => by rw [hu]; exact updGroup_at_ne _ ne, by rw [hu]; rfl, ?results, fun last => ?last,
      fun left => ?left, by rw [own]; exact ovrBit, by rw [own]; exact satBit⟩
    case results => rw [own]; exact AcqGroup.converted_results ..
    case last =>
      obtain ⟨y, conv, none, -⟩ := AcqGroup.converted_last (x := x.withResult g k e inj ovr i code h) (h := h) (i := i) (by simp [last])
      rw [own, conv]
      simpa using none
    case left => rw [own, AcqGroup.converted_left left]

end Sys2Proof.Machine
end

section
/-! Calibrations (R275 to R278) and the delta-sigma inputs while they run (R283 to R289). -/

namespace Sys2Proof.Machine

/-! Calibrations (R275 to R278). -/

section
variable {g : Fin 4} {s : State}

/-- CALIBRATION_START of a calibration that is due (R276, R277). -/
theorem exec_calibrationStart (on : s.drv.st ≠ .off) (idle : (s.acq.groups.at g).calBusy = false)
    (due : (s.acq.groups.at g).calDue = true ∨ fld (s.acq.groups.at g).gcfg 15 8 ≠ 0) : exec (.calibrationStart g) s = .next
      (if calDeferred s g then updGroup s g fun x => { x with calDue := true }
       else if (s.acq.groups.at g).held = none ∧ (s.acq.groups.at g).jpend = 0 ∧ (s.acq.groups.at g).test = false then
         updGroup s g fun x => { x with calBusy := true, calDue := false }
       else s) := by
  have goes : ((s.acq.groups.at g).boundary && (s.acq.groups.at g).jpend == 0 && !(s.acq.groups.at g).test) = true ↔
      (s.acq.groups.at g).held = none ∧ (s.acq.groups.at g).jpend = 0 ∧ (s.acq.groups.at g).test = false := by
    simp [AcqGroup.boundary, and_assoc]
  have first : ¬(!((s.acq.groups.at g).calDue || fld (s.acq.groups.at g).gcfg 15 8 != 0) || (s.acq.groups.at g).calBusy ||
      s.drv.st == .off) = true := by rcases due with due | due <;> simp [on, idle, due]
  show execCalibrationStart g s = _
  unfold execCalibrationStart
  simp only [goes, if_neg first, apply_ite Host.Outcome.next]

/-- A calibration that fails keeps the old coefficients, with CALFAIL and its record (R278). -/
theorem exec_calibrationComplete_fails (busy : (s.acq.groups.at g).calBusy = true) :
    exec (.calibrationComplete g false) s = .next (recGroup
      (updGroup s g fun x => { { x with calBusy := false }.takePend with stat := setBit x.stat 3 true }) g 0x6003) := by
  refine (if_pos busy).trans (congrArg (fun u => Host.Outcome.next (recGroup u g 0x6003)) ?_)
  refine (updGroup_updGroup _ _ g.isLt).trans (updGroup_congr ?_)
  simp

end

/-! Changes of a delta-sigma input, and deliveries (R287). -/

section
variable {s : State} {i : Nat}

@[simp] theorem updDsm_at_same (f : Dsm → Dsm) (h : i < 12) : (updDsm s i f).acq.dsm.at i = f (s.acq.dsm.at i) :=
  Vector.at_upd_same _ _ h

theorem updDsm_at_ne (f : Dsm → Dsm) {k : Nat} (h : k ≠ i) : (updDsm s i f).acq.dsm.at k = s.acq.dsm.at k := Vector.at_upd_ne _ _ h

/-- A delivery counts the input's SEQ and changes nothing else of the converters (R287). -/
theorem dsmDeliver_acq (s : State) (i : Nat) : (dsmDeliver s i).acq = s.acq ∨
    (dsmDeliver s i).acq = (updDsm s i fun d => { d with seq := d.seq + 1 }).acq := by
  unfold dsmDeliver
  dsimp only
  split
  · exact .inr (deliver_wroteOut ..).acq
  · exact .inl rfl

/-- A delivery leaves alone what the input holds of its data line and its flags (R287, R289). -/
theorem dsmDeliver_stuck (s : State) {i : Nat} (h : i < 12) : ((dsmDeliver s i).acq.dsm.at i).stuck = (s.acq.dsm.at i).stuck ∧
    ((dsmDeliver s i).acq.dsm.at i).stat = (s.acq.dsm.at i).stat := by
  rcases dsmDeliver_acq s i with e | e
  · rw [e]; exact ⟨rfl, rfl⟩
  · rw [e, updDsm_at_same _ h]; exact ⟨rfl, rfl⟩

/-! A transition of the data input (R289). -/

theorem Dsm.moves_stuck (d : Dsm) : d.moves.stuck = false := by unfold moves; split <;> simp_all
theorem Dsm.moves_settle (d : Dsm) : d.moves.settle = d.settle := by unfold moves; split <;> rfl
theorem Dsm.moves_fth (d : Dsm) : d.moves.fth = d.fth := by unfold moves; split <;> rfl
theorem Dsm.moves_bit (d : Dsm) {k : Nat} (h : k ≠ 1) : bit d.moves.stat k = bit d.stat k := by
  unfold moves; split
  · simp [bit_setBit, h]
  · rfl
theorem Dsm.moves_unstuck {d : Dsm} (h : d.stuck = true) : bit d.moves.stat 1 = false := by simp [moves, h, bit_setBit]

end

/-! Results (R285, R286). -/

theorem dsmR_pos (c : W64) : 0 < dsmR c := Nat.mul_pos (by decide) (Nat.pow_pos (by decide))
theorem dsmRf_pos (c : W64) : 0 < dsmRf c := Nat.mul_pos (by decide) (Nat.pow_pos (by decide))

/-- A rational that is an integer needs no rounding. -/
theorem freeRound_int (q : Int) (n : Nat) : freeRound q n = q := by simp [freeRound]

/-- An 18-bit word of a value in range, sign-extended (R7, R285). -/
theorem signExtend_w18 {q : Int} (lo : -131072 ≤ q) (hi : q < 131072) : BitVec.signExtend 32 (w18 q) = BitVec.ofInt 32 q := by
  apply BitVec.eq_of_toInt_eq
  rw [BitVec.toInt_signExtend_of_le (by decide), w18, BitVec.toInt_ofInt, BitVec.toInt_ofInt]
  rw [Int.bmod_eq_of_le (by omega) (by omega), Int.bmod_eq_of_le (by omega) (by omega)]

/-- A sinc sum and its normalised value (R285, R288): the value keeps the sum's bound. -/
theorem normalised_bounds {sum q full : Int} (pos : 0 < full) (le : |sum| ≤ full) (e : sum * 2 ^ 17 = q * full) :
    -131072 ≤ q ∧ q ≤ 131072 := by
  obtain ⟨lo, hi⟩ := abs_le.1 le
  constructor <;> nlinarith

/-- A sinc2 sum whose normalised value is an integer gives it, 131,072 taking 131,071 (R285, R288). -/
theorem sinc2_eq {rf : Nat} {sum q : Int} (pos : 0 < rf) (le : |sum| ≤ ((rf ^ 2 : Nat) : Int))
    (e : sum * 2 ^ 17 = q * ((rf ^ 2 : Nat) : Int)) : sinc2 rf sum = if q = 131072 then 131071 else q := by
  have full : (0 : Int) < ((rf ^ 2 : Nat) : Int) := by exact_mod_cast Nat.pow_pos pos
  have b := normalised_bounds full le e
  rw [sinc2, e, Int.mul_ediv_cancel _ full.ne']
  split <;> omega

/-- An input as a result leaves it: `full` says that the sum is at full scale, where a stuck input stays stuck (R285, R286, R289). -/
def Dsm.resulted (d : Dsm) (full : Bool) (word0 word1 : W32) : Dsm :=
  let e := if full then d else d.moves
  { e with word0 := word0, word1 := word1, settle := e.settle - 1, stat := setBit e.stat 0 (bit e.stat 0 || full) }

theorem Dsm.resulted_settle (d : Dsm) (full : Bool) (w0 w1 : W32) : (d.resulted full w0 w1).settle = d.settle - 1 := by
  cases full
  · exact congrArg (· - 1) d.moves_settle
  · rfl

theorem Dsm.resulted_full (d : Dsm) (full : Bool) (w0 w1 : W32) : bit (d.resulted full w0 w1).stat 0 = (bit d.stat 0 || full) := by
  cases full <;> simp [resulted, bit_setBit, d.moves_bit]

theorem Dsm.resulted_moving (d : Dsm) (w0 w1 : W32) : (d.resulted false w0 w1).stuck = false ∧
    (d.stuck = true → bit (d.resulted false w0 w1).stat 1 = false) :=
  ⟨d.moves_stuck, fun h => by simp [resulted, bit_setBit, moves_unstuck h]⟩

/-- Word 0 of a result of decimation `r` (R285). -/
def dsmWord (r : Nat) (sum : Int) (n : Nat) : W32 :=
  BitVec.signExtend 32 (w18 (min 131071 (freeRound ((sum : Rat) * 2 ^ 17 / (r : Rat) ^ 3) n)))

/-- Where the normalised sum is an integer, the word is that integer, 131,072 taking 131,071 (R285). -/
theorem dsmWord_int {r : Nat} {sum q : Int} (n : Nat) (pos : 0 < r) (le : |sum| ≤ ((r ^ 3 : Nat) : Int))
    (e : sum * 2 ^ 17 = q * (r : Int) ^ 3) : dsmWord r sum n = BitVec.ofInt 32 (min 131071 q) := by
  have full : (0 : Int) < ((r ^ 3 : Nat) : Int) := by exact_mod_cast Nat.pow_pos pos
  have b := normalised_bounds full le (by rw [e, Nat.cast_pow])
  have integral : (sum : Rat) * 2 ^ 17 / (r : Rat) ^ 3 = (q : Rat) := by
    rw [div_eq_iff (by positivity)]
    exact_mod_cast e
  rw [dsmWord, integral, freeRound_int, signExtend_w18 (by omega) (by omega)]

section
variable {i : Fin 12} {s : State}

/-- The state with a sinc3 sum taken as the result entry, its tag left open (R285, R286). -/
def resultTaken (s : State) (i r : Nat) (sum : Int) (tag : W32) : State :=
  updDsm (freeTaken (freeTaken s)) i fun d => d.resulted (decide (|sum| = ((r ^ 3 : Nat) : Int))) (dsmWord r sum (freeVal s)) tag

theorem resultTaken_at (s : State) (i : Fin 12) (r : Nat) (sum : Int) (tag : W32) : (resultTaken s i r sum tag).acq.dsm.at i =
    (s.acq.dsm.at i).resulted (decide (|sum| = ((r ^ 3 : Nat) : Int))) (dsmWord r sum (freeVal s)) tag := updDsm_at_same _ i.isLt

/-- DSM_RESULT of a sum that the filter can give (R285 to R287). -/
theorem exec_dsmResult (run : dsmRuns s i = true) {r : Nat} (hr : r = dsmR (s.acq.dsm.at i).cfg) {sum : Int}
    (le : |sum| ≤ ((r ^ 3 : Nat) : Int)) : ∃ tag, exec (.dsmResult i sum) s = .next
      (if fld (s.acq.dsm.at i).cfg 42 35 = 0 then dsmDeliver (resultTaken s i r sum tag) i else resultTaken s i r sum tag) := by
  subst hr
  exact ⟨_, if_neg (by simp only [run, Bool.not_true, Bool.false_or, decide_eq_true_eq, not_lt]; exact le)⟩

/-- DSM_STUCK of an input that is not yet stuck (R288, R289). -/
theorem exec_dsmStuck (run : dsmRuns s i = true) (free : (s.acq.dsm.at i).stuck = false) :
    ∃ u, u = updDsm s i (fun d => { d with stuck := true, stat := setBit d.stat 1 true }) ∧
      ∃ v, v = record u 0x6010 i ((u.acq.dsm.at i).status.zeroExtend 32) ∧
        exec (.dsmStuck i) s = .next (if fld (s.acq.dsm.at i).cfg 32 29 = 0 then v
          else assertTrip (updDsm v i fun d => { d with stat := setBit d.stat 2 true }) i) := by
  refine ⟨_, rfl, _, rfl, ?_⟩
  let v := recDsm (updDsm s i fun d => { d with stuck := true, stat := setBit d.stat 1 true }) i 0x6010
  have cfg : (v.acq.dsm.at i).cfg = (s.acq.dsm.at i).cfg := by
    rw [show v.acq = _ from record_acq .., updDsm_at_same _ i.isLt]
  have ends : exec (.dsmStuck i) s = .next (if dsmFcnt (v.acq.dsm.at i).cfg != 0
      then assertTrip (updDsm v i fun d => { d with stat := setBit d.stat 2 true }) i else v) := if_pos (by simp [run, free])
  rw [ends, cfg]
  by_cases fast : fld (s.acq.dsm.at i).cfg 32 29 = 0
  · rw [if_pos fast, if_neg (by simp [dsmFcnt, fast])]; rfl
  · rw [if_neg fast, if_pos (by simp [dsmFcnt, fast])]; rfl

/-- DSM_FAST_TRIP takes the sums that the filter can give, in order (R288). -/
theorem exec_dsmFastTrip (run : dsmRuns s i = true) (fast : fld (s.acq.dsm.at i).cfg 32 29 ≠ 0) {rf : Nat}
    (hrf : rf = dsmRf (s.acq.dsm.at i).cfg) (sums : List Int) : exec (.dsmFastTrip i sums) s = .next
      ((sums.filter fun x => decide (|x| ≤ ((rf ^ 2 : Nat) : Int))).foldl (fun s x => fastOut s i x) s) := by
  subst hrf
  exact if_pos (by simp [run, dsmFcnt, fast])

theorem exec_dsmFastTrip_one (run : dsmRuns s i = true) (fast : fld (s.acq.dsm.at i).cfg 32 29 ≠ 0) {rf : Nat}
    (hrf : rf = dsmRf (s.acq.dsm.at i).cfg) {sum : Int} (le : |sum| ≤ ((rf ^ 2 : Nat) : Int)) :
    exec (.dsmFastTrip i [sum]) s = .next (fastOut s i sum) := by
  simp only [exec_dsmFastTrip run fast hrf, List.filter_cons, le, decide_true, if_true, List.filter_nil, List.foldl_cons, List.foldl_nil]

end

/-! The fast path (R288, R289, R433). -/

/-- An input with one sinc2 sum of its fast path taken: one that is not at full scale holds a transition (R288, R289). -/
def Dsm.fastTaken (d : Dsm) (rf : Nat) (sum : Int) : Dsm :=
  { (if |sum| == ((rf ^ 2 : Nat) : Int) then d else d.moves) with fast := sinc2 rf sum }

theorem Dsm.fastTaken_fth (d : Dsm) (rf : Nat) (sum : Int) : (d.fastTaken rf sum).fth = d.fth := by
  unfold fastTaken; split
  · rfl
  · exact d.moves_fth

theorem Dsm.fastTaken_stuck (d : Dsm) (rf : Nat) (sum : Int) :
    (d.fastTaken rf sum).stuck = (d.stuck && |sum| == ((rf ^ 2 : Nat) : Int)) := by
  unfold fastTaken; split
  · next h => rw [h, Bool.and_true]
  · next h => rw [Bool.eq_false_iff.2 h, Bool.and_false]; exact d.moves_stuck

section
variable {i : Fin 12} {s : State}

/-- One sinc2 sum of the fast path taken by its input (R288). -/
def fastInput (s : State) (i rf : Nat) (sum : Int) : State := updDsm s i fun d => d.fastTaken rf sum

theorem fastInput_at (s : State) (i : Fin 12) (rf : Nat) (sum : Int) :
    (fastInput s i rf sum).acq.dsm.at i = (s.acq.dsm.at i).fastTaken rf sum := updDsm_at_same _ i.isLt

/-- The same with the cut-off comparators, which look at the output (R433). -/
def fastSampled (s : State) (i rf : Nat) (sum : Int) : State :=
  updPrt (fastInput s i rf sum) fun p => { p with cbcLine := cbcLines (fastInput s i rf sum) i (sinc2 rf sum) }

theorem fastSampled_frame (s : State) (i rf : Nat) (sum : Int) : fastSampled s i rf sum =
    { s with acq := (fastSampled s i rf sum).acq, prt := (fastSampled s i rf sum).prt } := rfl

/-- An output of the fast path between the thresholds: the count of R288 starts again, and the trip line follows the input. -/
theorem fastOut_within {rf : Nat} (hrf : rf = dsmRf (s.acq.dsm.at i).cfg) {sum : Int}
    (lo : s18 (BitVec.ofNat 18 (fld (s.acq.dsm.at i).fth 17 0)) ≤ sinc2 rf sum)
    (hi : sinc2 rf sum ≤ s18 (BitVec.ofNat 18 (fld (s.acq.dsm.at i).fth 35 18))) :
    fastOut s i sum = updPrt (updDsm (fastSampled s i rf sum) i fun d => { d with count := 0 }) fun p =>
      { p with tripLine := setBit p.tripLine i ((s.acq.dsm.at i).stuck && |sum| == ((rf ^ 2 : Nat) : Int)) } := by
  subst hrf
  have own := fastInput_at s i (dsmRf (s.acq.dsm.at i).cfg) sum
  refine (if_neg ?_).trans ?_
  · show ¬(decide (s18 (BitVec.ofNat 18 (fld ((fastInput s i (dsmRf (s.acq.dsm.at i).cfg) sum).acq.dsm.at i).fth 35 18)) < _) ||
      decide (_ < s18 (BitVec.ofNat 18 (fld ((fastInput s i (dsmRf (s.acq.dsm.at i).cfg) sum).acq.dsm.at i).fth 17 0)))) = true
    rw [own, Dsm.fastTaken_fth]
    simpa using ⟨hi, lo⟩
  · rw [← Dsm.fastTaken_stuck]
    exact congrArg (fun b => updPrt _ fun p => { p with tripLine := setBit p.tripLine i b }) (congrArg Dsm.stuck own)

end

/-- Settles O15: calibrations by the ends of their two rows; a result by the input it leaves, a stuck input by its record, and an output
between the thresholds by `fastOut_within`. What a stuck input and a fast trip leave is the model's (log entry 39), and so is the free
rounding of a result (log entry 5). -/
theorem calibrationAndDeltaSigmaEventsTakeEffect : Obligations.CalibrationAndDeltaSigmaEventsTakeEffect := by
  refine ⟨fun g s => ⟨fun on idle due => ?start, fun busy => ⟨if_pos busy, _, rfl, exec_calibrationComplete_fails busy⟩⟩,
    fun i s run => ?dsm⟩
  case start =>
    rw [exec_calibrationStart on idle due]
    refine ⟨fun put => ?deferred, fun now held pend test => ?starts, fun now busy => ?waits⟩
    case deferred => rw [if_pos put]
    case starts => rw [if_neg (ne_true_of_eq_false now), if_pos ⟨held, pend, test⟩]
    case waits =>
      rw [if_neg (ne_true_of_eq_false now), if_neg (by rintro ⟨held, pend, test⟩; simp [held, pend, test] at busy)]
  case dsm =>
    intro d r
    have hr : r = dsmR d.cfg := rfl
    have pos : 0 < r := dsmR_pos _
    clear_value r
    refine ⟨fun sum le => ?result, fun trig => if_pos (by simpa [run] using trig), fun sum lt => ?moves, exec_dsmStuck run,
      fun fast => ?fast⟩
    case result =>
      obtain ⟨tag, e⟩ := exec_dsmResult run hr le
      have own := resultTaken_at s i r sum tag
      have word (q : Int) (eq : sum * 2 ^ 17 = q * (r : Int) ^ 3) :
          ((resultTaken s i r sum tag).acq.dsm.at i).word0 = BitVec.ofInt 32 (min 131071 q) := by
        rw [own]; exact dsmWord_int _ pos le eq
      refine ⟨_, e, rfl, fun m ne => updDsm_at_ne _ ne, rfl, by rw [own]; exact Dsm.resulted_settle .., fun q eq lt => ?integer,
        fun top => ?top, by rw [own]; exact Dsm.resulted_full ..⟩
      case integer => rw [word q eq, min_eq_right (by omega)]
      case top => exact word 131072 (by rw [top, Nat.cast_pow, mul_comm]; rfl)
    case moves =>
      obtain ⟨tag, e⟩ := exec_dsmResult run hr lt.le
      have own := resultTaken_at s i r sum tag
      rw [decide_eq_false lt.ne] at own
      obtain ⟨free, clear⟩ := Dsm.resulted_moving d (dsmWord r sum (freeVal s)) tag
      refine ⟨_, e, ?_⟩
      split
      · obtain ⟨stuck, stat⟩ := dsmDeliver_stuck (resultTaken s i r sum tag) i.isLt
        rw [stuck, stat, own]; exact ⟨free, clear⟩
      · rw [own]; exact ⟨free, clear⟩
    case fast =>
      intro rf full
      have hrf : rf = dsmRf d.cfg := rfl
      have pos : 0 < rf := dsmRf_pos _
      clear_value rf
      refine ⟨exec_dsmFastTrip run fast hrf, fun sum q le eq => sinc2_eq pos le eq, fun sum le lo hi =>
        ⟨_, (exec_dsmFastTrip_one run fast hrf le).trans (congrArg _ (fastOut_within hrf lo hi)), ?count, ?output, ?line,
          by rw [fastSampled_frame]; rfl⟩⟩
      case count => exact congrArg Dsm.count (updDsm_at_same _ i.isLt)
      case output => exact (congrArg Dsm.fast (updDsm_at_same _ i.isLt)).trans (congrArg Dsm.fast (fastInput_at s i rf sum))
      case line => exact (bit_setBit ..).trans (if_pos ⟨rfl, i.isLt⟩)

end Sys2Proof.Machine
end

section
/-! CFG_PWM and CTL_FORCE (R343, R359, R370 to R378): the ends of each row, the records that a UNIT or an AUX leaves, and the units that a
force mode reaches. -/

namespace Sys2Proof.Machine

section
variable {op : Nat} {r : Req} {s t : State} {i : Instr} {good may bound : Bool}

/-- A row with a check of its operands, one of its RWA fields and one of the bounds, as its four outcomes (R69, R153). -/
theorem ends_of_three_guards (h : applies op r s)
    (e : exec i s = .next (runJob op r s (guardSt good stRange (guardSt may stState (guardSt bound stBound (ok t)))))) :
    (good = false → exec i s = .next (complete s op r stRange [])) ∧
    (good = true → may = false → exec i s = .next (complete s op r stState [])) ∧
    (good = true → may = true → bound = false → exec i s = .next (complete s op r stBound [])) ∧
    (good = true → may = true → bound = true → exec i s = .next (complete t op r stOk [])) := by
  rw [e]
  refine ⟨?range, ?state, ?bound, ?done⟩
  case range => rintro rfl; exact congrArg _ (runJob_refuse h)
  case state => rintro rfl rfl; exact congrArg _ (runJob_refuse h)
  case bound => rintro rfl rfl rfl; exact congrArg _ (runJob_refuse h)
  case done => rintro rfl rfl rfl; exact congrArg _ (runJob_done h)

end

section
variable {r : Req} {s : State}

theorem exec_cfgPwmUnit_refused (h : applies 0x1023 r s) {st : W16} (bad : unitCheck s r = some st) :
    exec (.cfgPwmUnit r) s = .next (complete s 0x1023 r st []) := by
  show execCfgPwmUnit r s = _
  rw [execCfgPwmUnit, bad, runJob_refuse h]

theorem exec_cfgPwmUnit_applied (h : applies 0x1023 r s) (good : unitCheck s r = none) :
    exec (.cfgPwmUnit r) s = .next (complete (applyUnit s (fieldAt r 9 1) (unitReq r)) 0x1023 r stOk []) := by
  show execCfgPwmUnit r s = _
  rw [execCfgPwmUnit, good, ok, runJob_done h]

/-- A UNIT record that changes RW fields alone restarts nothing and loads neither P nor CMP (R374, R378). -/
theorem applyUnit_of_rw {u : Nat} {n : UnitRec} (same : changesRwa (s.pwm.units.at u) n = false) :
    applyUnit s u n = writeMaintained (updUnit s u fun x => { x with cfg := n.cfg, tim := n.tim }) :=
  if_neg (ne_true_of_eq_false same)

/-- An applied AUX record loads A and B as the active and the shadow values (R375). -/
theorem putAux_at {m : Nat} (c : W64) (lt : m < 8) : (putAux s m c).pwm.aux.at m =
    { cfg := c, a := fld c 55 38, b := fld c 37 20, shA := fld c 55 38, shB := fld c 37 20 } := Vector.at_put_same _ _ lt

theorem mapUnits_at {u : Nat} (f : Nat → PwmUnit → PwmUnit) (lt : u < 6) :
    (mapUnits s f).pwm.units.at u = f u (s.pwm.units.at u) := Vector.at_ofFn _ lt

/-- Noting what the commands of the units were changes nothing else of the generator (R353). -/
theorem noteUnits_unitsNoted : unitsNoted s (noteUnits s) := by
  refine ⟨rfl, fun u lt => ?_⟩
  have own : (noteUnits s).pwm.units.at u = _ := mapUnits_at _ lt
  dsimp only
  rw [own]
  rfl

/-- A force mode leaves the units that it does not select (R370). -/
theorem force_at_other {units mode u : Nat} (lt : u < 6) (out : units.testBit u = false) :
    (force s units mode).pwm.units.at u = (noteUnits s).pwm.units.at u :=
  (mapUnits_at _ lt).trans (if_neg (ne_true_of_eq_false out))

/-- A force mode at a unit that it selects: both off at once, any other at the next reload (R371). -/
theorem force_at_selected {units mode u : Nat} (lt : u < 6) (sel : units.testBit u = true) : (force s units mode).pwm.units.at u =
    if mode = 1 then { (noteUnits s).pwm.units.at u with fmode := 1, fpend := none }
    else { (noteUnits s).pwm.units.at u with fpend := some mode } :=
  (mapUnits_at _ lt).trans (if_pos sel)

end

/-- Settles O19: UNIT by `unitCheck`, AUX by its three checks, every other row by its one or two, and a force mode by the units that it
selects. The order of the checks, the records against which UNIT and AUX are checked, and the wait of mode 0 for a reload are the model's
(log entries 8, 36, 41). -/
theorem pwmCommandsTakeEffect : Obligations.PwmCommandsTakeEffect := by
  refine fun r s => ⟨fun h => ?pwm, fun h => ?force⟩
  case pwm =>
    refine ⟨fun _ => exec_cfgPwmUnit_refused h, fun good => ⟨exec_cfgPwmUnit_applied h good, applyUnit_of_rw⟩, ?aux,
      jobEnd_of_guard h rfl⟩
    case aux =>
      intro bs good may
      obtain ⟨range, state, bound, done⟩ := ends_of_three_guards (i := .cfgPwmAux r) h rfl
      exact ⟨range, state, fun g m broken => bound g m (beq_eq_false_iff_ne.2 broken),
        fun g m within => ⟨done g m (beq_iff_eq.2 within), putAux_at _⟩⟩
  case force =>
    exact ⟨jobEnd_of_guards h rfl, jobEnd_of_guards h rfl, jobEnd_of_guards h rfl, jobEnd_of_guards h rfl, noteUnits_unitsNoted,
      fun _ _ lt => ⟨force_at_other lt, force_at_selected lt⟩, jobEnd_of_guards h rfl⟩

end Sys2Proof.Machine
end

section
/-! CFG_GDV (R381, R404 to R409): each row is a job with one check of its operands, and CHANNEL has that of its RWA fields too. -/

namespace Sys2Proof.Machine

/-- Settles O21: each row by its one or two checks; in CHANNEL the states in which RWA fields may change are those of `rwaState`. The order
of the checks and ST_RANGE for mask bits outside the field are the model's (log entry 8), and so is that TABLE is taken in every state, for
R407 names no access code. -/
theorem gateDriverConfigurationTakesEffect : Obligations.GateDriverConfigurationTakesEffect := by
  intro r s h ch c ib m
  refine ⟨?channel, jobEnd_of_guard h rfl, jobEnd_of_guard h rfl, jobEnd_of_guard h rfl, jobEnd_of_guard h rfl⟩
  case channel =>
    rw [Bool.or_assoc]
    exact jobEnd_of_guards h rfl

end Sys2Proof.Machine
end

section
/-! CFG_PRT (R425, R430, R434, R436, R439 to R445, R477): the checks of each row in turn, and what an applied PRT_CTL sets. -/

namespace Sys2Proof.Machine

/-- An entry delivered to region memories leaves the protection block alone (R16, R635, R642). -/
theorem putStream_prt (s : State) (g slot : Nat) (v flag : W18) : (putStream s g slot v flag).prt = s.prt := by
  unfold putStream; rw [snoop_frame]

theorem deliver_prt (s : State) (route slot : Nat) (v flag : W18) : (deliver s route slot v flag).prt = s.prt := by
  unfold deliver
  induction List.range 4 generalizing s with
  | nil => rfl
  | cons g l ih =>
    rw [List.foldl_cons, ih]
    split
    · exact putStream_prt ..
    · rfl

/-- A publication of REGEN_LIM changes nothing of the protection block but RGSEQ (R431). -/
theorem publishRegen_prt (s : State) : (publishRegen s).prt = { s.prt with rgSeq := s.prt.rgSeq + 1 } := deliver_prt ..

section
variable {r : Req} {s : State}

/-- An applied PRT_CTL: its record, and the new ASC_SPD in both copies of the limits (R439, R477). -/
theorem setPrtCtl_takes (s : State) (c : W64) : (setPrtCtl s c).prt.ctl = c ∧ (setPrtCtl s c).saf.blkLim.ascSpd = fld c 47 32 ∧
    (setPrtCtl s c).saf.icsLim.ascSpd = fld c 47 32 := by
  have frame (t : State) : (publishRegen t).saf = t.saf := (congrArg State.saf (publishRegen_wroteOut t) :)
  unfold setPrtCtl
  rw [publishRegen_prt, frame]
  refine ⟨?_, rfl, rfl⟩
  dsimp only
  split <;> rfl

/-- CTL once its form, and the check of its RWA fields, have passed (R436, R439, R477). -/
theorem exec_cfgPrtCtl_in_form (h : applies 0x1025 r s) {c : W64} (hc : c = BitVec.ofNat 64 (fieldAt r 16 8)) (b : Bool)
    (good : (prtForm s r 16 0 && prtCtlOk s c) = true)
    (may : (sameOutside 0x0200FFFF00000000 c s.prt.ctl || rwaState s) = true) :
    exec (.cfgPrtCtl r b) s = .next (runJob 0x1025 r s
      (guardSt (decide (fld c 47 32 ≤ fld s.prt.ctl 47 32)) stTighten (guardSt (s.prt.dis == .idle) stBusy
        (if fld c 47 32 != fld s.prt.ctl 47 32 && !b then .done (record s 0x3050 0xFFFF 0) stFailed [] else ok (setPrtCtl s c))))) := by
  subst hc
  exact congrArg _ ((runJob_checks h _ _ stRange stState _).2.2 good may)

end

/-- Settles O17: CTL and DCL by their checks in turn, every other row by its one or two. The order of the checks is the model's (log entry
8), and so is that PRT_TRIP and DCK, which have no access code, are taken as RWA (log entry 9). -/
theorem protectionConfigurationTakesEffect : Obligations.ProtectionConfigurationTakesEffect := by
  intro r s h c k w m n
  refine ⟨?ctl, ?dcl, jobEnd_of_guards h rfl, jobEnd_of_guards h rfl, jobEnd_of_guard h rfl, jobEnd_of_guards h rfl⟩
  case ctl =>
    intro good may
    have checks (body : Done) := runJob_checks h good may stRange stState body
    have limits (body : Done) := runJob_checks h (decide (fld c 47 32 ≤ fld s.prt.ctl 47 32)) (s.prt.dis == .idle) stTighten stBusy body
    have run (b : Bool) (g : good = true) (y : may = true) := exec_cfgPrtCtl_in_form (c := c) h rfl b g y
    refine ⟨fun b g => congrArg _ ((checks _).1 g), fun b g y => congrArg _ ((checks _).2.1 g y), fun b g y lt => ?tighten,
      fun b g y le busy => ?busy, fun g y lt idle => ?echo, fun b g y le idle agreed => ⟨?taken, setPrtCtl_takes s c⟩⟩
    case tighten => exact (run b g y).trans (congrArg _ ((limits _).1 (decide_eq_false (Nat.not_le.2 lt))))
    case busy => exact (run b g y).trans (congrArg _ ((limits _).2.1 (decide_eq_true le) (beq_eq_false_iff_ne.2 busy)))
    case echo =>
      rw [run false g y, (limits _).2.2 (decide_eq_true lt.le) (beq_iff_eq.2 idle), if_pos (by simp [lt.ne])]
      exact congrArg _ (runJob_done h)
    case taken =>
      rw [run b g y, (limits _).2.2 (decide_eq_true le) (beq_iff_eq.2 idle), if_neg (by rcases agreed with rfl | e <;> simp [*])]
      exact congrArg _ (runJob_done h)
  case dcl =>
    intro good may
    have checks (body : Done) := runJob_checks h good may stRange stState body
    refine ⟨fun g => congrArg _ ((checks _).1 g), fun g y => congrArg _ ((checks _).2.1 g y), fun g y loose => ?tighten,
      fun g y tight => ?taken⟩
    case tighten => exact congrArg _ (((checks _).2.2 g y).trans (runJob_guard_false h loose))
    case taken => exact congrArg _ (((checks _).2.2 g y).trans (runJob_guard_true h tight))

end Sys2Proof.Machine
end

section
/-! The trips on the DC link, and the leg that rejoins the pattern (R412, R415, R418, R419, R424, R426, R445). -/

namespace Sys2Proof.Machine

section
variable {s t u : State}

/-- Notes of past levels add up (R353). -/
theorem unitsNoted.trans (h : unitsNoted s t) (k : unitsNoted t u) : unitsNoted s u := by
  obtain ⟨pwm, units⟩ := h
  obtain ⟨pwm', units'⟩ := k
  refine ⟨by rw [pwm', pwm], fun n lt => ?_⟩
  dsimp only at units units' ⊢
  rw [units' n lt, units n lt]

/-- The safe pattern put on a machine changes ACT of it, and notes what the units' commands were (R353, R418). -/
theorem actPattern_frame (s : State) (m : Nat) : actPattern s m =
    { s with prt := { s.prt with act := s.prt.act.put m true }, pwm := (noteUnits s).pwm } := by
  have frame : noteUnits s = { s with pwm := (noteUnits s).pwm } := rfl
  unfold actPattern; rw [frame]; rfl

theorem actPattern_unitsNoted (s : State) (m : Nat) : unitsNoted s (actPattern s m) := by
  rw [actPattern_frame]; exact noteUnits_unitsNoted

end

/-- Both entries of a table of two, written. -/
theorem put_zero_one {α : Type} (t : Tab 2 α) (x y : α) : (t.put 0 x).put 1 y = #v[x, y] := by
  ext i lt
  obtain rfl | rfl : i = 0 ∨ i = 1 := by omega
  · simp [Vector.put]
  · simp [Vector.put]

/-- A trip on the DC link once its flag is set: the record, the safe pattern on both machines, and the trip among the waiting events
(R412, R424, R426). -/
def linkTrip (s : State) (code : W16) : State := arrive (actPattern (actPattern (recPrt s noUnit code) 0) 1) .trip code

theorem linkTrip_frame (s : State) {code : W16} (quiet : latchCodes.contains code = false) : linkTrip s code =
    { s with prt := { s.prt with act := #v[true, true] }, io := (recPrt s noUnit code).io, trc := (recPrt s noUnit code).trc,
             drv := { s.drv with events := s.drv.events ++ [⟨.trip, code⟩] }, pwm := (linkTrip s code).pwm } := by
  have quietly : recPrt s noUnit code =
      { s with io := (recPrt s noUnit code).io, trc := (recPrt s noUnit code).trc } := record_quiet _ _ _ quiet
  unfold linkTrip
  rw [actPattern_frame, actPattern_frame, quietly, ← put_zero_one s.prt.act]; rfl

theorem linkTrip_unitsNoted (s : State) (code : W16) : unitsNoted s (linkTrip s code) := by
  have noted := (actPattern_unitsNoted (recPrt s noUnit code) 0).trans (actPattern_unitsNoted _ 1)
  unfold unitsNoted at noted ⊢
  rw [linkTrip, arrive_pwm]
  rwa [show (recPrt s noUnit code).pwm = s.pwm from record_pwm ..] at noted

/-- The same of the state `t` that a trip leaves, block by block. -/
theorem linkTrip_takes (s : State) {code : W16} (quiet : latchCodes.contains code = false) {t : State} (e : t = linkTrip s code) :
    t = { s with prt := t.prt, io := t.io, trc := t.trc, drv := t.drv, pwm := t.pwm } ∧ unitsNoted s t ∧
      t.prt = { s.prt with act := #v[true, true] } ∧ t.io.lastFault = code ∧
      t.drv = { s.drv with events := s.drv.events ++ [⟨.trip, code⟩] } := by
  have frame := linkTrip_frame s quiet
  rw [← e] at frame
  exact ⟨by rw [frame], e ▸ linkTrip_unitsNoted s code, by rw [frame], by rw [frame]; exact record_lastFault .., by rw [frame]⟩

/-- The protection block as an overvoltage leaves it before the safe pattern acts: the chopper on at once where it is enabled and not
faulty, and OV (R424). -/
def Prt.overvolted (p : Prt) (v tb : Nat) : Prt :=
  let q := { p with dcsns := v }
  { (if bit p.chop 63 && !bit p.flags 17 then { q.chopper true tb with ovHold := true } else q) with flags := setBit p.flags 16 true }

theorem Prt.overvolted_dcsns (p : Prt) (v tb : Nat) : (p.overvolted v tb).dcsns = v := by
  unfold overvolted; dsimp only; split <;> rfl

theorem Prt.overvolted_chopper {p : Prt} (v tb : Nat) (enabled : bit p.chop 63 = true) (sound : bit p.flags 17 = false) :
    (p.overvolted v tb).chAct = true ∧ (p.overvolted v tb).chAt = some tb ∧ (p.overvolted v tb).ovHold = true := by
  simp [overvolted, enabled, sound, chopper]

/-- The reaction to an overvoltage is a trip on the DC link behind that (R412, R424). -/
theorem ovReact_sense (s : State) (v : Nat) : ovReact (sense s v) =
    linkTrip { s with prt := s.prt.overvolted v s.clk.tb } 0x2010 := by
  unfold ovReact Prt.overvolted sense updPrt; dsimp only
  split <;> rfl

/-- The two events by their conditions (R415, R424, R426). -/
theorem exec_overvoltageTrip (v : Nat) (s : State) : exec (.overvoltageTrip v) s = .next
    (if ovt s ≠ 0 ∧ ovt s < v ∧ tripsArmed s.drv.st = true then ovReact (sense s v) else sense s v) := by
  have acts : (ovt s != 0 && decide (ovt s < v) && tripsArmed s.drv.st) = true ↔
      ovt s ≠ 0 ∧ ovt s < v ∧ tripsArmed s.drv.st = true := by simp [and_assoc]
  exact congrArg Host.Outcome.next (if_congr acts rfl rfl)

theorem exec_undervoltageTrip (v : Nat) (s : State) : exec (.undervoltageTrip v) s = .next
    (if uvt s ≠ 0 ∧ v < uvt s ∧ driving s.drv.st = true then uvReact (sense s v) else sense s v) := by
  have acts : (uvt s != 0 && decide (v < uvt s) && driving s.drv.st) = true ↔
      uvt s ≠ 0 ∧ v < uvt s ∧ driving s.drv.st = true := by simp [and_assoc]
  exact congrArg Host.Outcome.next (if_congr acts rfl rfl)

/-- Settles O23: each event by its condition, and a trip by `linkTrip_takes`. -/
theorem linkTripsAndLegRejoin : Obligations.LinkTripsAndLegRejoin := by
  intro v s
  refine ⟨fun set above armed => ?overvoltage, fun unmet => ?within, fun set below run => ?undervoltage, fun unmet => ?enough,
    fun leg => ⟨fun off => if_neg (ne_true_of_eq_false off), fun on => if_pos on⟩⟩
  case overvoltage =>
    obtain ⟨frame, noted, prt, fault, drv⟩ :=
      linkTrip_takes { s with prt := s.prt.overvolted v s.clk.tb } (code := 0x2010) (by decide) rfl
    refine ⟨_, by rw [exec_overvoltageTrip, if_pos ⟨set, above, armed⟩, ovReact_sense], frame, noted, ?_⟩
    rw [prt]
    exact ⟨Prt.overvolted_dcsns .., by simp [Prt.overvolted, bit_setBit], rfl, Prt.overvolted_chopper v s.clk.tb, fault, drv⟩
  case within =>
    rw [exec_overvoltageTrip, if_neg (by simpa [imp_iff_not_or] using unmet)]; rfl
  case undervoltage =>
    obtain ⟨frame, noted, prt, fault, drv⟩ := linkTrip_takes
      { s with prt := { s.prt with dcsns := v, flags := setBit s.prt.flags 15 true } } (code := 0x2011) (by decide) rfl
    exact ⟨_, by rw [exec_undervoltageTrip, if_pos ⟨set, below, run⟩]; rfl, frame, noted, prt, fault, drv⟩
  case enough =>
    rw [exec_undervoltageTrip, if_neg (by simpa [imp_iff_not_or] using unmet)]; rfl

end Sys2Proof.Machine
end

section
/-! The safety commands and CFG_LIMIT (R423, R449, R462, R475 to R481). -/

namespace Sys2Proof.Machine

/-! What a field set to 0 reads as, and what a table holds once each of a list of its entries has been changed. -/

theorem fld_setFld_zero {n : Nat} (w : BitVec n) (hi lo : Nat) : fld (setFld w hi lo 0) hi lo = 0 := by
  refine Nat.eq_of_testBit_eq fun i => ?_
  simp only [fld, setFld, Nat.testBit_mod_two_pow, Nat.testBit_shiftRight, BitVec.testBit_toNat, BitVec.getLsbD_or, BitVec.getLsbD_and,
    BitVec.getLsbD_not, BitVec.getLsbD_ofNat, Nat.testBit_shiftLeft, Nat.testBit_two_pow_sub_one, Nat.zero_mod, Nat.zero_testBit]
  by_cases h : i < hi + 1 - lo <;> simp [h]

/-- An entry satisfies `Q` after the changes where it did before, or is among those changed, and a change makes it so. -/
theorem foldl_upd_at {α : Type} [Inhabited α] {n : Nat} {Q : α → Prop} {f : α → α} (hf : ∀ x, Q (f x)) (l : List Nat)
    (t : Tab n α) {i : Nat} (lt : i < n) (h : Q (t.at i) ∨ i ∈ l) : Q ((l.foldl (fun t k => t.upd k f) t).at i) := by
  induction l generalizing t with
  | nil => simpa using h
  | cons k l ih =>
    refine ih _ ?_
    by_cases e : i = k
    · subst e; exact .inl (by rw [Vector.at_upd_same _ _ lt]; exact hf _)
    · rw [Vector.at_upd_ne _ _ e]; exact h.imp_right fun m => (List.mem_cons.1 m).resolve_left e

theorem foldl_updGdv (s : State) (f : GdvChan → GdvChan) (l : List Nat) : l.foldl (fun s k => updGdv s k f) s =
    { s with gdv := l.foldl (fun t k => t.upd k f) s.gdv } := by
  induction l generalizing s with
  | nil => rfl
  | cons k l ih => exact ih _

theorem foldl_updUnit (s : State) (f : PwmUnit → PwmUnit) (l : List Nat) : l.foldl (fun s k => updUnit s k f) s =
    { s with pwm := { s.pwm with units := l.foldl (fun t k => t.upd k f) s.pwm.units } } := by
  induction l generalizing s with
  | nil => rfl
  | cons k l ih => exact ih _

/-! The latched faults, which completions and transitions leave alone (R58, R70, R479). -/

section
variable {s : State}

@[simp] theorem Io.notify_latched (io : Io) (n : Nat) (irq : Bool) : (io.notify n irq).latched = io.latched := by
  unfold Io.notify; dsimp only; split <;> rfl

@[simp] theorem Io.putEntries_latched (io : Io) (n : Nat) (head : List Byte) (l : List (List Byte)) :
    (io.putEntries n head l).latched = io.latched := by
  induction l generalizing io with
  | nil => rfl
  | cons b l ih => exact ih _

@[simp] theorem complete_latched (s : State) (op : Nat) (r : Req) (st : W16) (result : List Byte) :
    (complete s op r st result).io.latched = s.io.latched := by
  have gone : (jobGone (sealCp s) op r).io.latched = s.io.latched := by
    rw [sealCp_frame]; unfold jobGone; split <;> rfl
  rw [complete, completeRaw, writeDone, ← gone]
  dsimp only
  split
  · unfold Io.complete
    split <;> simp
  · rfl

@[simp] theorem preempt_latched (s : State) : (preempt s).io.latched = s.io.latched := by
  unfold preempt
  generalize (s.io.jobs.filter fun j => !legal s.drv.st j.opcode.toNat) = l
  induction l generalizing s with
  | nil => rfl
  | cons j l ih => rw [List.foldl_cons, ih, complete_latched]

end

/-- What the blocks beside the state machine hold after the module has gone from `u` to `dst` (R95). -/
structure Transited (u t : State) (dst : Mode) : Prop where
  saf : t.saf = u.saf.transit dst
  prt : t.prt = u.prt.transit dst
  units : t.pwm.units = (noteUnits u).pwm.units.map fun x => x.transit u.drv.st dst (fineNow u)
  latched : t.io.latched = u.io.latched

theorem enter_transited (u : State) (dst : Mode) (cause : W16) : Transited u (enter u dst cause) dst := by
  rw [enter_frame]
  refine ⟨rfl, rfl, rfl, ?_⟩
  show (if _ then _ else _ : Io).latched = _
  split <;> rfl

theorem Transited.completed {u t : State} {dst : Mode} (h : Transited u t dst) (op : Nat) (r : Req) (st : W16) (result : List Byte) :
    Transited u (preempt (complete t op r st result)) dst where
  saf := by rw [preempt_frame, complete_frame]; exact h.saf
  prt := by rw [preempt_frame, complete_frame]; exact h.prt
  units := by rw [preempt_frame, complete_frame]; exact h.units
  latched := by rw [preempt_latched, complete_latched, h.latched]

/-- A command that changes the state leaves in the blocks what its transition does (R69, R95). -/
theorem runStateJob_transits {op : Nat} {r : Req} {s : State} {dst : Mode} {f : State → State} (h : applies op r s) (q : noEvent s) :
    Transited (f (quieted s)) (runStateJob op r s dst none f) dst := by
  rw [runStateJob_enters h q]; exact (enter_transited _ dst _).completed ..

/-! SAF_STOP (R96, R462). -/

section
variable {r : Req} {s : State}

theorem exec_safStop_stays (h : applies 0x4001 r s) (fm : formOk r 0 = true) (st : s.drv.st = .safeStop ∨ s.drv.st = .fault) :
    exec (.safStop r) s = .next (complete s 0x4001 r stOk []) := by
  show execSafStop r s = _
  rw [execSafStop, if_pos (by simpa using st)]
  exact congrArg _ (runJob_guard_true h fm)

theorem exec_safStop_moves (fm : formOk r 0 = true) (notStop : s.drv.st ≠ .safeStop) (notFault : s.drv.st ≠ .fault) (q : noEvent s) :
    exec (.safStop r) s = .next (runStateJob 0x4001 r s .safeStop none id) := by
  have none_wins : winner s.drv.st (s.drv.events ++ persistent s) = none := q
  show execSafStop r s = _
  simp [execSafStop, notStop, notFault, none_wins, fm]

/-- In SAFE_STOP the state itself holds the STO request line (R450). -/
theorem stoLine_safeStop {t : State} (st : t.drv.st = .safeStop) : stoLine t = true := by simp [stoLine, st]

/-! SAF_RELEASE (R419, R423, R449, R478). -/

/-- What an applied SAF_RELEASE does beside the change of state. -/
theorem applyRelease_frame (s : State) : applyRelease s =
    { s with
      saf := (blkRelease s s.drv.st).saf
      prt := { s.prt with flags := setFld s.prt.flags 14 8 0 }
      gdv := (List.range 12).foldl (fun t ch => t.upd ch fun g => { g with stat := setBit g.stat 0 false }.blocked) s.gdv
      pwm := (applyRelease s).pwm } := by
  unfold applyRelease; dsimp only
  rw [foldl_updUnit, foldl_updGdv]; rfl

/-- Every phase channel leaves its soft turn-off (R398). -/
theorem applyRelease_soff (s : State) {ch : Nat} (lt : ch < 12) : bit ((applyRelease s).gdv.at ch).stat 0 = false := by
  rw [applyRelease_frame]
  exact foldl_upd_at (Q := fun g : GdvChan => bit g.stat 0 = false) (fun g => by simp [GdvChan.blocked, bit_setBit]) _ _ (by omega)
    (.inr (List.mem_range.2 lt))

/-- No unit's commands are held off any longer (R392). -/
theorem applyRelease_legHold (s : State) {u : Nat} (lt : u < 6) : ((applyRelease s).pwm.units.at u).legHold = false := by
  unfold applyRelease; dsimp only
  rw [foldl_updUnit]
  exact foldl_upd_at (Q := fun x : PwmUnit => x.legHold = false) (fun _ => rfl) _ _ lt (.inr (List.mem_range.2 lt))

theorem applyRelease_swHold (s : State) {m : Nat} (lt : m < 2) : ((applyRelease s).saf.mach.at m).swHold = false := by
  rw [applyRelease_frame]
  exact (congrArg BlkMach.swHold (Vector.at_map s.saf.mach BlkMach.release lt) :)

theorem PwmUnit.transit_legHold (x : PwmUnit) (src dst : Mode) (t : Int) : (x.transit src dst t).legHold = x.legHold := by
  unfold transit; dsimp only; split <;> rfl

/-- A transition leaves the hold of R392 as it was. -/
theorem Transited.legHold {u t : State} {dst : Mode} (h : Transited u t dst) {k : Nat} (lt : k < 6) :
    (t.pwm.units.at k).legHold = (u.pwm.units.at k).legHold := by
  have noted := (noteUnits_unitsNoted (s := u)).2 k lt
  dsimp only at noted
  rw [h.units, Vector.at_map _ _ lt, PwmUnit.transit_legHold, noted]

/-- Where a release may lead (R97). -/
def releaseTo (s : State) : Mode := if inService s then .configured else .standby

theorem releaseTo_cases (s : State) : releaseTo s = .configured ∨ releaseTo s = .standby := by unfold releaseTo; split <;> simp

/-- SAF_RELEASE behind its conditions: those of R478 and R423 first, then what Blackthorn still holds. -/
theorem exec_safRelease (fm : formOk r 0 = true) : exec (.safRelease r) s = .next (runStateJob 0x4002 r s (releaseTo s)
    (((releaseUnmet s).or (stillHeld s (releaseTo s))).map fun c => (stFailed, codeBytes c)) applyRelease) := by
  show execSafRelease r s = _
  simp only [execSafRelease, fm]
  cases releaseUnmet s <;> rfl

theorem exec_safRelease_fails (h : applies 0x4002 r s) (fm : formOk r 0 = true) {c : W16}
    (first : (releaseUnmet s).or (stillHeld s (releaseTo s)) = some c) :
    exec (.safRelease r) s = .next (complete s 0x4002 r stFailed (codeBytes c)) := by
  rw [exec_safRelease fm, first]; exact congrArg _ (runStateJob_refuse h)

theorem exec_safRelease_moves (h : applies 0x4002 r s) (fm : formOk r 0 = true) (met : releaseUnmet s = none)
    (free : stillHeld s (releaseTo s) = none) (q : noEvent s) :
    ∃ t, exec (.safRelease r) s = .next t ∧ entered s t (releaseTo s) 0x4002 ∧
      Moved (applyRelease (quieted s)) t (releaseTo s) ∧ Transited (applyRelease (quieted s)) t (releaseTo s) := by
  have frame := applyRelease_frame (quieted s)
  obtain ⟨t, e, ent, moved⟩ := runStateJob_moves_to (dst := releaseTo s) (f := applyRelease) h q
    (by rw [frame]; rfl) (by rw [frame]; rfl) (by rw [frame]; rfl)
  exact ⟨t, by rw [exec_safRelease fm, met, free, ← e]; rfl, ent, moved, e ▸ runStateJob_transits h q⟩

theorem exec_blackthornReleaseTimeout (h : applies 0x4002 r s) (fm : formOk r 0 = true) :
    exec (.blackthornReleaseTimeout r) s = .next (complete s 0x4002 r stFailed (codeBytes ((releaseUnmet s).getD 0))) := by
  show execBlackthornReleaseTimeout r s = _
  rw [execBlackthornReleaseTimeout]
  cases releaseUnmet s <;> exact congrArg _ (runJob_guard_true h fm)

end

/-- What Blackthorn, the protection block, the drivers and the generator hold after a release (R398, R419, R423, R449, R478). -/
theorem released_blocks {s t : State} {dst : Mode} (target : dst = .configured ∨ dst = .standby) (moved : Moved (applyRelease s) t dst)
    (transited : Transited (applyRelease s) t dst) : t.saf.stoRestart = false ∧ t.saf.stoEscal = false ∧ fld t.prt.flags 14 8 = 0 ∧
      (∀ ch < 12, bit (t.gdv.at ch).stat 0 = false) ∧ (∀ u < 6, (t.pwm.units.at u).legHold = false) ∧
      ∀ m < 2, (t.saf.mach.at m).swHold = false := by
  have saf : t.saf = (applyRelease s).saf := by rw [transited.saf]; rcases target with rfl | rfl <;> rfl
  have gdv : t.gdv = (applyRelease s).gdv := moved.gdv (by rcases target with rfl | rfl <;> decide)
  have flags : t.prt.flags = setFld s.prt.flags 14 8 0 := by rw [transited.prt, applyRelease_frame]; rfl
  refine ⟨?restart, ?escal, by rw [flags, fld_setFld_zero], fun ch lt => by rw [gdv, applyRelease_soff s lt],
    fun u lt => by rw [transited.legHold lt, applyRelease_legHold s lt], fun m lt => by rw [saf, applyRelease_swHold s lt]⟩
  all_goals rw [saf, applyRelease_frame]; rfl

section
variable {r : Req} {s : State}

/-! SAF_ACK (R479, R507). -/

theorem exec_safAck_stop (h : applies 0x4003 r s) (fm : formOk r 0 = true) (a : BitVec 16) (b : Byte) (st : s.drv.st = .safeStop) :
    exec (.safAck r a b) s = .next (complete
      { s with saf := { s.saf with viol := 0, bkct := 0 }, icp := { s.icp with sigdif := false } } 0x4003 r stOk []) := by
  show execSafAck r a b s = _
  rw [execSafAck]
  simp only [st, beq_self_eq_true, if_true]
  exact congrArg _ (runJob_guard_true h fm)

/-- What an applied acknowledgement does beside the change of state. -/
def acknowledged (s : State) : State := { s with saf := blkAck s.saf, io := { s.io with latched := [] } }

/-- SAF_ACK in FAULT behind its condition on every latched fault. -/
theorem exec_safAck_fault (fm : formOk r 0 = true) (a : BitVec 16) (b : Byte) (st : s.drv.st = .fault) :
    exec (.safAck r a b) s = .next (runStateJob 0x4003 r s .safeStop
      ((s.io.latched.find? fun c => !ackMet s (a == 0xFFFF && b == 0xFF) c).map fun c => (stFailed, codeBytes c)) acknowledged) := by
  show execSafAck r a b s = _
  rw [execSafAck]
  simp only [st, fm]
  rfl

/-- In FAULT no event stands before a command that changes the state (R95). -/
theorem noEvent_fault (st : s.drv.st = .fault) : noEvent s := winner_none _ (by simp [st])

theorem exec_safAck_moves (h : applies 0x4003 r s) (fm : formOk r 0 = true) (a : BitVec 16) (b : Byte) (st : s.drv.st = .fault)
    (met : ∀ c ∈ s.io.latched, ackMet s (a == 0xFFFF && b == 0xFF) c = true) :
    ∃ t, exec (.safAck r a b) s = .next t ∧ entered s t .safeStop 0x4003 ∧ Moved (acknowledged (quieted s)) t .safeStop ∧
      Transited (acknowledged (quieted s)) t .safeStop := by
  have q := noEvent_fault st
  have all_met : (s.io.latched.find? fun c => !ackMet s (a == 0xFFFF && b == 0xFF) c) = none :=
    List.find?_eq_none.2 fun c mem => by simpa using met c mem
  obtain ⟨t, e, ent, moved⟩ := runStateJob_moves_to (dst := .safeStop) (f := acknowledged) h q rfl rfl rfl
  exact ⟨t, by rw [exec_safAck_fault fm a b st, all_met, ← e]; rfl, ent, moved, e ▸ runStateJob_transits h q⟩

/-! SAF_TEST and CFG_LIMIT (R475, R476, R481, R502). -/

/-- SAF_TEST outside a split: its masks, and 0x3051 where one of them has failed. -/
theorem exec_safTest_together (h : applies 0x4004 r s) (fm : formOk r 0 = true) (a : BitVec 16) (b : Byte) (joined : s.icp.split = false) :
    exec (.safTest r a b) s = .next (runJob 0x4004 r s
      (if a == 0xFFFF && b == 0xFF then .done s stOk (leBytes 2 a.toNat ++ [b])
       else .done (recBlk s 0xFFFF 0x3051) stFailed (leBytes 2 a.toNat ++ [b]))) :=
  congrArg _ ((runJob_checks h (formOk r 0) (!s.icp.split) stRange stBusy _).2.2 fm (by rw [joined]; rfl))

/-- CFG_LIMIT in form, and tighter than Icsis's copy. -/
theorem exec_cfgLimit_tight (h : applies 0x1040 r s) (k : Bool) (good : (formOk r 20 && limitForm r) = true)
    (tight : limitTight r s.saf.icsLim = true) : exec (.cfgLimit r k) s = .next (runJob 0x1040 r s
      (if k && limitTight r s.saf.blkLim then
        ok { s with saf := { s.saf with blkLim := limitSet r s.saf.blkLim, icsLim := limitSet r s.saf.icsLim } }
       else .done (recBlk s 0xFFFF 0x3050) stFailed [])) :=
  congrArg _ ((runJob_checks h _ _ stRange stTighten _).2.2 good tight)

end

/-- Settles O25: each command by the order of its checks, and where it changes the state by what its own application and the transition
leave. That the hold of R392 ends with an applied SAF_RELEASE, and that the software SMAX check holds its line until then, is the model's
(log entries 42, 44). -/
theorem safetyCommandsTakeEffect : Obligations.SafetyCommandsTakeEffect := by
  refine fun r s => ⟨fun h fm => ?stop, fun h fm => ?release, fun h fm a b => ?ack, fun h fm a b => ?test, fun h => ?limit⟩
  case stop =>
    refine ⟨fun st => exec_safStop_stays h fm st, fun notStop notFault q => ?_⟩
    obtain ⟨t, e, ent, moved⟩ := runStateJob_moves_to (dst := .safeStop) (f := id) h q rfl rfl rfl
    exact ⟨t, by rw [exec_safStop_moves fm notStop notFault q, e], ent, stoLine_safeStop ent.1, moved.nv, moved.boot, moved.clk,
      moved.acq (by decide), moved.gdv (by decide)⟩
  case release =>
    refine ⟨fun c unmet => ⟨exec_safRelease_fails h fm (by rw [unmet]; rfl), ?late⟩, fun met => ?unanswered,
      fun met => ⟨?held, ?moves⟩⟩
    case late => rw [exec_blackthornReleaseTimeout h fm, unmet]; rfl
    case unanswered => rw [exec_blackthornReleaseTimeout h fm, met]; rfl
    case held => exact fun c held => exec_safRelease_fails h fm (by rw [met]; exact held)
    case moves =>
      intro free q
      obtain ⟨t, e, ent, moved, transited⟩ := exec_safRelease_moves h fm met free q
      obtain ⟨restart, escal, flags, soff, legs, line⟩ := released_blocks (releaseTo_cases s) moved transited
      have frame := applyRelease_frame (quieted s)
      refine ⟨t, e, ent, restart, escal, flags, soff, legs, line, ?nv, by rw [moved.boot, frame]; rfl, by rw [moved.clk, frame]; rfl⟩
      case nv =>
        rw [moved.nv, frame]
        show _ = if releaseTo s = .standby then _ else _
        rcases releaseTo_cases s with target | target <;> simp only [target]
        · rfl
        · exact copyStartLog_nv_congr rfl rfl rfl
  case ack =>
    refine ⟨exec_safAck_stop h fm a b, fun st met => ?moves, fun st c first => ?fails⟩
    case moves =>
      obtain ⟨t, e, ent, moved, transited⟩ := exec_safAck_moves h fm a b st met
      refine ⟨t, e, ent, transited.latched, ?_, ?_, ?_, moved.nv, moved.boot, moved.clk⟩
      all_goals rw [transited.saf]; rfl
    case fails =>
      rw [exec_safAck_fault fm a b st, first]; exact congrArg _ (runStateJob_refuse h)
  case test =>
    refine ⟨fun split => ?busy, fun joined pa pb => ?passes, fun joined failed => ?fails⟩
    case busy => exact congrArg _ ((runJob_checks h (formOk r 0) (!s.icp.split) stRange stBusy _).2.1 fm (by rw [split]; rfl))
    case passes =>
      rw [exec_safTest_together h fm a b joined, if_pos (by simp [pa, pb])]
      exact congrArg _ (runJob_done h)
    case fails =>
      rw [exec_safTest_together h fm a b joined, if_neg (by simpa [imp_iff_not_or] using failed)]
      exact congrArg _ (runJob_done h)
  case limit =>
    intro good
    have checks (k : Bool) := runJob_checks h good (limitTight r s.saf.icsLim) stRange stTighten
    refine ⟨fun k g => congrArg _ ((checks k _).1 g), fun k g loose => congrArg _ ((checks k _).2.1 g loose),
      fun k g tight failed => ?fails, fun g tight both => ?taken⟩
    case fails =>
      rw [exec_cfgLimit_tight h k g tight, if_neg (by rcases failed with rfl | loose <;> simp [*])]
      exact congrArg _ (runJob_done h)
    case taken =>
      rw [exec_cfgLimit_tight h true g tight, if_pos (by simp [both])]
      exact congrArg _ (runJob_done h)

end Sys2Proof.Machine
end

section
/-! The input pairs of Blackthorn (R454). -/

namespace Sys2Proof.Machine

/-- Whether a pair demands once a channel has accepted a level, by that level, the other channel and the demand so far (R454). -/
theorem PairIn.accept_demand (x : PairIn) (chB dem : Bool) (tb : Nat) :
    (x.accept chB dem tb).demand = ((dem || if chB then x.demA else x.demB) && (x.demand || dem)) := by
  cases chB
  · rfl
  · exact congrArg (· && _) (Bool.or_comm ..)

/-- A level accepted by a channel of a pair in use changes that pair alone: what Blackthorn makes of it beside, the starts of the functions,
the fall of a level and the record, leaves the pairs as they are. -/
theorem exec_safetyInputChange_pairs {s : State} {p : Fin 4} (used : pairFn s p ≠ 0) (up : blkUp s = true) (chB : Bool) (mv : Nat) :
    ∃ t, exec (.safetyInputChange p chB mv) s = .next t ∧
      t.saf.pairs = s.saf.pairs.upd p fun x => x.accept chB (inputDemands s p chB mv) s.clk.tb := by
  refine ⟨_, if_neg (by simp [used, up]), ?_⟩
  rw [recBlk_ite_saf, blkStep_saf]; rfl

/-- Settles O58: the demand of the pair by `PairIn.accept_demand`, and no other pair changes. -/
theorem inputPairDemandsFromTheFirstChannel : Obligations.InputPairDemandsFromTheFirstChannel := by
  intro p s used up chB
  have accepted (mv : Nat) : ∃ t, exec (.safetyInputChange p chB mv) s = .next t ∧
      (t.saf.pairs.at p).demand = ((inputDemands s p chB mv || if chB then (s.saf.pairs.at p).demA else (s.saf.pairs.at p).demB) &&
        ((s.saf.pairs.at p).demand || inputDemands s p chB mv)) := by
    obtain ⟨t, e, pairs⟩ := exec_safetyInputChange_pairs used up chB mv
    exact ⟨t, e, by rw [pairs, Vector.at_upd_same _ _ p.isLt, PairIn.accept_demand]⟩
  refine ⟨fun mv dem => ?first, fun mv run => ?both, fun q ne mv => ?others⟩
  case first =>
    obtain ⟨t, e, demand⟩ := accepted mv
    exact ⟨t, e, by simp [demand, dem]⟩
  case both =>
    obtain ⟨t, e, demand⟩ := accepted mv
    exact ⟨t, e, fun other => by rw [demand, run, other]; rfl, fun other => by rw [demand, run, other, Bool.or_false]; rfl⟩
  case others =>
    obtain ⟨t, e, pairs⟩ := exec_safetyInputChange_pairs used up chB mv
    exact ⟨t, e, by rw [pairs, Vector.at_upd_ne _ _ (Fin.val_ne_of_ne ne)]⟩

end Sys2Proof.Machine
end

section
/-! The lockstep pair (R487 to R504): the seal, CTL_SPLIT and CTL_JOIN, a mismatch with the degraded pair, the restart, and core 1. -/

namespace Sys2Proof.Machine

section
variable {s : State}

/-- From STANDBY on a checkpoint seals: CPNUM counts, REC returns to 0, and the undo log and the output buffer are empty (R488, R489,
R494). -/
theorem sealCp_sealed (h : fromStandby.contains s.drv.st = true) :
    sealCp s = { s with icp := { s.icp with cpnum := s.icp.cpnum + 1, recur := 0, undo := 0, outbuf := 0 } } := by
  refine if_neg ?_
  revert h; cases s.drv.st <;> decide

/-- A fault record of the pair whose code is not marked (L) changes the log and the trace, and nothing else (R508). -/
theorem recIcp_quiet {code : W16} (quiet : latchCodes.contains code = false) :
    recIcp s code = { s with io := (recIcp s code).io, trc := (recIcp s code).trc } := record_quiet _ _ _ quiet

@[simp] theorem recIcp_lastFault (code : W16) : (recIcp s code).io.lastFault = code := record_lastFault ..

end

/-! CTL_JOIN (R500, R503). -/

section
variable {r : Req} {s : State} (h : applies 0x2031 r s) (form : formOk r 0 = true)
include h form

/-- A pair that is not split stays as it is (R500). -/
theorem exec_ctlJoin_together (whole : s.icp.split = false) (injOk : Bool) :
    exec (.ctlJoin r injOk) s = .next (complete s 0x2031 r stOk []) := by
  show execCtlJoin r injOk s = _
  rw [execCtlJoin, if_neg (by simp [whole]), if_neg (by simp [whole])]
  exact congrArg _ (runJob_guard_true h form)

/-- Behind the injection test that passes, the join takes effect at a checkpoint of its own (R503). -/
theorem exec_ctlJoin_joins (split : s.icp.split = true) :
    exec (.ctlJoin r true) s = .next (complete (updIcp (sealCp s) Pair.join) 0x2031 r stOk []) := by
  show execCtlJoin r true s = _
  rw [execCtlJoin, if_neg (by simp), if_pos split]
  exact congrArg _ (runJob_guard_true h form)

/-- The injection test that fails degrades the pair (R503). -/
theorem exec_ctlJoin_degrades (split : s.icp.split = true) : exec (.ctlJoin r false) s = .next (degrade s) := by
  obtain ⟨serves, legal, turn⟩ := h
  exact if_pos (by simp [jobRuns, serves, legal, turn, form, split])

end

/-! A mismatch (R490, R494, R495). -/

/-- An 8-bit counter that stops at 255 counts so. -/
theorem toNat_satInc_255 (k : Byte) : (BitVec.ofNat 8 (satInc 255 k.toNat)).toNat = satInc 255 k.toNat := by
  have := k.isLt
  rw [BitVec.toNat_ofNat, Nat.mod_eq_of_lt (by unfold satInc; split <;> omega)]

/-- FAULT is entered with its interrupt bit, and the port keeps its rings. -/
theorem degrade_rings (s : State) : (degrade s).io.queues = s.io.queues ∧ (degrade s).io.qsram = s.io.qsram := by
  have io : (degrade s).io =
      { (if s.drv.st != .off && s.drv.st != .fault then s.io.raise 1 else s.io) with lastFault := 0x4021 } := rfl
  rw [io]; split <;> exact ⟨rfl, rfl⟩

section
variable (s : State) (kind : Nat) (group : Byte) (offset : W32)

/-- A mismatch counted in MCNT and captured in ICS_MCAP (R490, R507). -/
def mismatchNoted : State :=
  { s with aon := { s.aon with mcnt := BitVec.ofNat 8 (satInc 255 s.aon.mcnt.toNat), mcap := mcapWord s kind group offset } }

variable {s}

/-- The third mismatch at one checkpoint degrades the pair (R494). -/
theorem mismatch_third (third : s.icp.recur = 2) : mismatch s kind group offset = degrade (mismatchNoted s kind group offset) := if_pos third

/-- In BOOT the boot ROM starts again from its entry point (R495). -/
theorem mismatch_boot (again : s.icp.recur ≠ 2) (boot : s.drv.st = .boot) : mismatch s kind group offset =
    { mismatchNoted s kind group offset with
      icp := { s.icp with recur := s.icp.recur + 1, injok := false }
      boot := { s.boot with bank := none, trial := false, fallback := false }
      sup := { s.sup with stage := if s.sup.seqDone then 7 else s.sup.stage } } :=
  (if_neg again).trans (if_pos (beq_iff_eq.2 boot))

/-- In every other state it holds the cores and raises the mismatch line, whose fall of the level is an event (R450, R490). -/
theorem mismatch_held (again : s.icp.recur ≠ 2) (run : s.drv.st ≠ .boot) : mismatch s kind group offset =
    blkStep (mismatchNoted s kind group offset)
      (updIcp (mismatchNoted s kind group offset) fun p => { p with recur := p.recur + 1, held := true, mismatchLine := true }) :=
  (if_neg again).trans (if_neg (by simpa using run))

/-- What any mismatch leaves: it is counted and captured, and the clock, flash and the rings stay. -/
structure MismatchCaptured (s t : State) (kind : Nat) (group : Byte) (offset : W32) : Prop where
  mcnt : t.aon.mcnt.toNat = satInc 255 s.aon.mcnt.toNat
  mcap : t.aon.mcap = mcapWord s kind group offset
  nv : t.nv = s.nv
  clk : t.clk = s.clk
  queues : t.io.queues = s.io.queues
  qsram : t.io.qsram = s.io.qsram

theorem mismatch_captured (s : State) : MismatchCaptured s (mismatch s kind group offset) kind group offset := by
  have count := toNat_satInc_255 s.aon.mcnt
  by_cases third : s.icp.recur = 2
  · obtain ⟨queues, qsram⟩ := degrade_rings (mismatchNoted s kind group offset)
    rw [mismatch_third _ _ _ third]
    exact ⟨count, rfl, rfl, rfl, queues, qsram⟩
  · by_cases boot : s.drv.st = .boot
    · rw [mismatch_boot _ _ _ third boot]
      exact ⟨count, rfl, rfl, rfl, rfl, rfl⟩
    · rw [mismatch_held _ _ _ third boot, blkStep_frame]
      exact ⟨count, rfl, rfl, rfl, rfl, rfl⟩

end

/-- A mismatch that the comparator reports, and not the signature (R490, R499). -/
theorem exec_lockstepMismatch {s : State} {kind : Fin 6} (on : comparing s = true) (compared : kind.val < 5) (group : Byte) (offset : W32) :
    exec (.lockstepMismatch kind group offset) s = .next (mismatch s kind group offset) :=
  (if_neg (by simp [on])).trans (if_neg (by omega))

/-! The restart (R71, R490 to R493). -/

theorem completeRaw_frame (s : State) (op : Nat) (r : Req) (st : W16) (result : List Byte) :
    completeRaw s op r st result = { s with io := (completeRaw s op r st result).io } := by
  unfold completeRaw writeDone jobGone; split <;> rfl

/-- The outstanding jobs complete without a checkpoint (R71), which changes the port and nothing else. -/
theorem preemptAll_frame (s : State) : preemptAll s = { s with io := (preemptAll s).io } := by
  unfold preemptAll
  generalize s.io.jobs = l
  induction l generalizing s with
  | nil => rfl
  | cons j l ih => rw [List.foldl_cons, ih, completeRaw_frame]

/-- The pair as the restart resumes it at the checkpoint, with the STO request line that it raises (R490, R491). -/
def restarted (s : State) : State :=
  updIcp { s with saf := { s.saf with stoRestart := s.saf.stoRestart || driving s.drv.st } } fun p =>
    { p with held := false, mismatchLine := false, undo := 0, outbuf := 0 }

/-- A restart with no halt request waiting leaves what `restarted` says, beside the port and the trace, with 0x4001 as the last fault
(R490, R508). -/
theorem exec_checkpointRestart {s : State} (held : s.icp.held = true) (alive : s.icp.dead = false) (free : s.icp.haltPend = false) :
    ∃ t, exec .checkpointRestart s = .next t ∧ t = { restarted s with io := t.io, trc := t.trc } ∧ t.io.lastFault = 0x4001 ∧
      t.io.inj = false := by
  let t : State := recIcp (preemptAll (restarted s)) 0x4001
  have frame : t = { restarted s with io := t.io, trc := t.trc } := by
    rw [show t = _ from recIcp_quiet (by decide), preemptAll_frame]
  refine ⟨{ t with io := { t.io with inj := false } }, ?_, by rw [frame], recIcp_lastFault _, rfl⟩
  have stays : t.icp.haltPend = false := (congrArg (fun u : State => u.icp.haltPend) frame).trans free
  exact (if_neg (by simp [held, alive])).trans (congrArg _ (if_neg (by rw [Bool.not_eq_true]; exact stays)))

/-! Core 1 while the pair is split (R502, R503). -/

theorem inPartition_eq_false {a : W32} (out : a.toNat < 0x3C0000 ∨ 0x3FFFFF < a.toNat) : inPartition a = false := by
  simp only [inPartition, Bool.and_eq_false_iff, decide_eq_false_iff_not]; omega

/-- A write of core 1 outside its partition holds it, with fault 0x4011 (R502). -/
theorem exec_core1PartitionViolation {s : State} (a : W32) (split : s.icp.split = true) (serves : s.icp.core1 = .service)
    (out : a.toNat < 0x3C0000 ∨ 0x3FFFFF < a.toNat) :
    exec (.core1PartitionViolation a) s = .next (recIcp (updIcp s fun p => { p with core1 := .held }) 0x4011) :=
  if_pos (by simp [split, serves, inPartition_eq_false out])

/-- Settles O42: CTL_SPLIT by its two checks, CTL_JOIN by its three ends, a mismatch by what `mismatch_captured` says of each, and
by the law of its kind: the third at a checkpoint, one in BOOT, any other. That a sealed checkpoint is its counters, and that a degraded
pair serves nothing, is the model's (log entry 34). -/
theorem lockstepPairCommandsTakeEffect : Obligations.LockstepPairCommandsTakeEffect := by
  intro r s
  refine ⟨fun h st => ?split, fun h form => ⟨exec_ctlJoin_together h form,
      fun split => ⟨exec_ctlJoin_joins h form split, exec_ctlJoin_degrades h form split⟩⟩,
    fun split asked => if_pos (by rw [split, asked]; rfl), fun a split serves out => ?violation, fun serves st => ?sealed,
    fun k g o on compared => ?mismatch, fun held alive free => ?restart⟩
  case split =>
    have applied := jobEnd_of_guards h (i := .ctlSplit r) rfl
    rw [sealCp_sealed st] at applied
    exact applied
  case violation =>
    exact ⟨_, exec_core1PartitionViolation a split serves out, recIcp_quiet (by decide), recIcp_lastFault _⟩
  case sealed =>
    rw [← sealCp_sealed st]
    exact if_pos serves
  case mismatch =>
    obtain ⟨mcnt, mcap, nv, clk, queues, qsram⟩ := mismatch_captured k.val g o s
    refine ⟨_, exec_lockstepMismatch on compared g o, mcnt, mcap, nv, clk, queues, qsram, fun third => ?third,
      fun again run => ?held, fun again boot => ?boot⟩
    case third =>
      rw [mismatch_third _ _ _ third]
      exact ⟨rfl, rfl, rfl, rfl, rfl, rfl, rfl, rfl, rfl, rfl⟩
    case held =>
      rw [mismatch_held _ _ _ again run, blkStep_frame]
      exact ⟨rfl, rfl⟩
    case boot =>
      rw [mismatch_boot _ _ _ again boot]
      exact ⟨rfl, rfl⟩
  case restart =>
    obtain ⟨t, run, frame, fault, inj⟩ := exec_checkpointRestart held alive free
    exact ⟨t, run, congrArg State.icp frame, congrArg State.saf frame, fault, inj, (congrArg State.nv frame :), (congrArg State.clk frame :),
      (congrArg State.thk frame :)⟩

end Sys2Proof.Machine
end

section
/-! The fuses under every command (R657, R658), the clocks of an idle step (R592, R593), and the words of status registers. -/

namespace Sys2Proof.Machine

/-- Settles O55: a command either keeps the fuses or is a row of MNT_FUSE. -/
theorem onlyFuseCommandsChangeTheFuses : Obligations.OnlyFuseCommandsChangeTheFuses := by
  intro c s
  rcases exec_answers c s with ⟨t, e, kept⟩ | ⟨⟨r, fuse⟩, t, e, formed⟩
  · exact ⟨t, e, kept.pending, fun _ => kept.fuses⟩
  · exact ⟨t, e, formed.pending, fun other => absurd fuse (other r)⟩

/-! The local clock (R592, R593). -/

/-- Seconds and nanoseconds after the carry, as one count of nanoseconds modulo the 48 bits of SECONDS (R592, R593). -/
theorem Clock.carry_total (c : Clock) (v : Int) (frac : W32) :
    (((c.carry v frac).sec.toNat : Int) * 1000000000 + (c.carry v frac).ns.toNat) % (2 ^ 48 * 1000000000) =
      ((c.sec.toNat : Int) * 1000000000 + v) % (2 ^ 48 * 1000000000) := by
  simp only [Clock.carry, BitVec.toNat_ofInt]
  omega

/-- A tick adds TIM_INC and a pending one-shot offset to the local clock (R592, R593). -/
theorem Clock.tick_total (c : Clock) : ((c.tick.sec.toNat : Int) * 1000000000 + c.tick.ns.toNat) % (2 ^ 48 * 1000000000) =
    ((c.sec.toNat : Int) * 1000000000 + c.ns.toNat + c.offset.getD 0 + ((c.frac.toNat + c.tick.inc.toNat) / 2 ^ 32 : Nat)) %
      (2 ^ 48 * 1000000000) := by
  refine (Clock.carry_total { c with inc := c.incNext.getD c.inc, incNext := none, offset := none, tb := c.tb + 32 } _ _).trans ?_
  congr 1
  show _ = (c.sec.toNat : Int) * 1000000000 + c.ns.toNat + c.offset.getD 0 +
    ((c.frac.toNat + (c.incNext.getD c.inc).toNat) / 2 ^ 32 : Nat)
  ring

/-- Settles O2: an idle step is a tick. That it is one CLK_NET cycle is the model's choice (log entry 3). -/
theorem idleStepTicksTheClocks : Obligations.IdleStepTicksTheClocks := by
  intro s idle
  have e : step s = .next (tick s) := by rw [step, idle]
  exact ⟨tick s, e, rfl, rfl, rfl, rfl, rfl, rfl, BitVec.toNat_ofNat .., Clock.tick_total s.clk⟩

/-! Fields and bits of words. -/

section
variable {n : Nat} (w : BitVec n) {hi lo i : Nat}

theorem testBit_fld (j : Nat) : (fld w hi lo).testBit j = (decide (j < hi + 1 - lo) && bit w (lo + j)) := by
  simp [fld, bit, BitVec.getLsbD]

/-- Two words that agree on the bits of a field agree in the field. -/
theorem fld_congr {u w : BitVec n} (h : ∀ j, lo ≤ j → j ≤ hi → bit u j = bit w j) : fld u hi lo = fld w hi lo := by
  refine Nat.eq_of_testBit_eq fun j => ?_
  rw [testBit_fld, testBit_fld]
  by_cases inside : j < hi + 1 - lo
  · rw [h (lo + j) (by omega) (by omega)]
  · simp [inside]

theorem fld_setFld_out {top bot : Nat} (v : Nat) (h : hi < bot ∨ top < lo) : fld (setFld w top bot v) hi lo = fld w hi lo :=
  fld_congr fun j hj hj' => bit_setFld_out w (by omega)

theorem fld_setBit_out (b : Bool) (h : i < lo ∨ hi < i) : fld (setBit w i b) hi lo = fld w hi lo :=
  fld_congr fun j hj hj' => by rw [bit_setBit, if_neg (by omega)]

theorem bit_setFld_in {j : Nat} (v : Nat) (above : lo ≤ j) (below : j ≤ hi) (lt : j < n) :
    bit (setFld w hi lo v) j = v.testBit (j - lo) := by
  simp only [bit, setFld, BitVec.getLsbD_or, BitVec.getLsbD_and, BitVec.getLsbD_not, BitVec.getLsbD_ofNat, Nat.testBit_shiftLeft,
    Nat.testBit_mod_two_pow, Nat.testBit_two_pow_sub_one]
  grind

/-- What is written to a field is read from it, modulo the field's width. -/
theorem fld_setFld_same (v : Nat) (lt : hi < n) : fld (setFld w hi lo v) hi lo = v % 2 ^ (hi + 1 - lo) := by
  refine Nat.eq_of_testBit_eq fun j => ?_
  rw [testBit_fld, Nat.testBit_mod_two_pow]
  by_cases inside : j < hi + 1 - lo
  · rw [bit_setFld_in w v (by omega) (by omega) (by omega), Nat.add_sub_cancel_left]
  · simp [inside]

/-- A field of `k` bits holds less than 2^k. -/
theorem fld_lt (hi lo : Nat) : fld w hi lo < 2 ^ (hi + 1 - lo) := Nat.mod_lt _ (Nat.two_pow_pos _)

theorem bit_setBit_same (b : Bool) (lt : i < n) : bit (setBit w i b) i = b := by rw [bit_setBit, if_pos ⟨rfl, lt⟩]

theorem bit_setBit_ne {j : Nat} (b : Bool) (h : j ≠ i) : bit (setBit w i b) j = bit w j := by rw [bit_setBit, if_neg fun e => h e.1]

theorem bit_ofNat {j : Nat} (m : Nat) (lt : j < n) : bit (BitVec.ofNat n m) j = m.testBit j := by
  simp only [bit, BitVec.getLsbD_ofNat, lt, decide_true, Bool.true_and]

/-- W1C, bit by bit (R8). -/
theorem bit_w1c_ofNat {j : Nat} (m : Nat) (lt : j < n) : bit (w1c w (BitVec.ofNat n m)) j = (bit w j && !m.testBit j) := by
  rw [← bit_ofNat m lt]
  simp only [bit, w1c, BitVec.getLsbD_and, BitVec.getLsbD_not, lt, decide_true, Bool.true_and]

end

end Sys2Proof.Machine
end

section
/-! Check units and the thermal warning (R529, R550, R635 to R645). -/

namespace Sys2Proof.Machine

/-- MISM after a frame has closed: it stays, and is set where EXPEN is 1 and the result differs from EXP (R642). -/
theorem Chk.closed_mism (u : Chk) : bit u.closed.stat 1 = (bit u.stat 1 || (bit u.cfg 31 && u.value != u.exp)) := by
  have counted : bit (setFld u.stat 31 16 (fld u.stat 31 16 + 1)) 1 = bit u.stat 1 := bit_setFld_out _ (by decide)
  have noted (w : W32) : bit (if bit w 3 then setBit w 2 true else setBit w 3 true) 1 = bit w 1 := by
    split <;> exact bit_setBit_ne _ _ (by decide)
  unfold Chk.closed; dsimp only
  split
  next differs => rw [bit_setBit_same _ _ (by decide), differs, Bool.or_true]
  next agrees => rw [noted, counted, Bool.eq_false_iff.2 agrees, Bool.or_false]

section
variable {s : State} {k : Nat} {u : Chk}

theorem putChk_newMism (old : bit (s.chk.at k).stat 1 = false) (new : bit u.stat 1 = true) :
    putChk s k u = record { s with chk := s.chk.put k u } 0xD001 k u.stat := by
  simp [putChk, old, new]

theorem putChk_quiet (h : bit (s.chk.at k).stat 1 = true ∨ bit u.stat 1 = false) : putChk s k u = { s with chk := s.chk.put k u } := by
  refine if_neg ?_
  rcases h with h | h <;> simp [h]

end

/-- Settles O60: MISM by the close of a frame, its record by the unit's replacement. -/
theorem checkUnitMismatchIsRecordedOnce : Obligations.CheckUnitMismatchIsRecordedOnce := by
  refine ⟨fun u on differs => ?_, fun u h => ?_, fun s k u lt => ⟨fun old new => ?_, putChk_quiet⟩⟩
  · simp [Chk.closed_mism, on, differs]
  · rcases h with off | agrees
    · simp [Chk.closed_mism, off]
    · simp [Chk.closed_mism, agrees]
  · obtain ⟨f, code, _, _, _, log⟩ := record_log { s with chk := s.chk.put k u } 0xD001 k u.stat
    rw [putChk_newMism old new]
    refine ⟨?_, record_lastFault .., ?_⟩
    · rw [record_chk]; exact Vector.at_put_same _ _ lt
    · rw [log]; simp [code]

/-- Settles O28: each row by its one or two checks. That a mask bit outside CHK_STAT[2:1] answers ST_RANGE is the model's (log entry 8). -/
theorem temperatureWarningAndCheckUnitsAreConfigured : Obligations.TemperatureWarningAndCheckUnitsAreConfigured := by
  refine fun r s => ⟨fun h => ⟨jobEnd_of_guard h rfl, ?thm⟩, fun h => ⟨?unit, ?clear⟩⟩
  case thm =>
    refine ⟨_, jobEnd_of_guards h rfl, rfl, fun k lt => ⟨bit_w1c_ofNat _ _ lt, ?_⟩⟩
    refine (Vector.at_ofFn _ lt).trans ?_
    rw [bit_ofNat _ lt]
  case unit => exact ⟨_, jobEnd_of_guard h rfl, rfl, fun j ne => Vector.at_upd_ne _ _ ne, fun lt => Vector.at_upd_same _ _ lt⟩
  case clear =>
    exact ⟨_, jobEnd_of_guard h rfl, rfl, fun j ne => Vector.at_upd_ne _ _ ne, fun lt => congrArg Chk.stat (Vector.at_upd_same _ _ lt)⟩

end Sys2Proof.Machine
end

section
/-! The latch of torque allocation at a member (R617 to R622). -/

namespace Sys2Proof.Machine

variable {s t u : State}

@[simp] theorem recCrd_crd (s : State) (code : W16) : (recCrd s code).crd = s.crd := record_crd ..
@[simp] theorem recCrd_thk (s : State) (code : W16) : (recCrd s code).thk = s.thk := record_thk ..

/-- From `s` to `t` a member keeps its count of missed latches, its configuration, what it has applied, and Thicket with the entries of its
allocations. -/
structure MemberKept (s t : State) : Prop where
  gap : t.crd.gap = s.crd.gap
  cfg : t.crd.cfg = s.crd.cfg
  applied : t.crd.applied = s.crd.applied
  thk : t.thk = s.thk

namespace MemberKept

theorem refl (s : State) : MemberKept s s := ⟨rfl, rfl, rfl, rfl⟩

theorem trans (h : MemberKept s t) (k : MemberKept t u) : MemberKept s u :=
  ⟨k.gap.trans h.gap, k.cfg.trans h.cfg, k.applied.trans h.applied, k.thk.trans h.thk⟩

theorem ite {c : Prop} [Decidable c] (ht : MemberKept s t) (hu : MemberKept s u) : MemberKept s (if c then t else u) := by
  split <;> assumption

theorem updCrd (h : MemberKept s t) {f : Crd → Crd} (gap : (f t.crd).gap = t.crd.gap) (cfg : (f t.crd).cfg = t.crd.cfg)
    (applied : (f t.crd).applied = t.crd.applied) : MemberKept s (updCrd t f) :=
  ⟨gap.trans h.gap, cfg.trans h.cfg, applied.trans h.applied, h.thk⟩

theorem recCrd (h : MemberKept s t) (code : W16) : MemberKept s (recCrd t code) :=
  ⟨(congrArg Crd.gap (recCrd_crd t code)).trans h.gap, (congrArg Crd.cfg (recCrd_crd t code)).trans h.cfg,
    (congrArg Crd.applied (recCrd_crd t code)).trans h.applied, (recCrd_thk t code).trans h.thk⟩

theorem crdFlag (h : MemberKept s t) (i : Nat) (code : W16) : MemberKept s (crdFlag t i code) :=
  recCrd (t := crdSet t i) (h.updCrd rfl rfl rfl) code

theorem willAppoint (h : MemberKept s t) (n : Nat) : MemberKept s (willAppoint t n) := h.updCrd rfl rfl rfl

end MemberKept

/-- A fence changes its mark and FENCED, and records itself (R623). -/
theorem fence_memberKept (s : State) : MemberKept s (fence s) :=
  .ite (((MemberKept.refl s).updCrd rfl rfl rfl).crdFlag ..) (.refl s)

/-- The arbiter's part of the latch looks after its appointments, and leaves what the module holds as a member (R624, R628). -/
theorem arbiterLatch_memberKept (s : State) (reps : List Report) (allocs : List AllocSec) :
    MemberKept s (arbiterLatch s reps allocs) := by
  unfold arbiterLatch; split
  next => exact .refl s
  next =>
    dsimp only
    refine .ite ?failed ?beats
    case failed =>
      split
      · exact (MemberKept.refl s).willAppoint _
      · exact .refl s
    case beats =>
      generalize e : updCrd s _ = v
      have counted : MemberKept s v := e ▸ (MemberKept.refl s).updCrd rfl rfl rfl
      have declared : MemberKept s (crdFlag (updCrd v fun c => { c with failed := true }) 3 0xA020) :=
        (counted.updCrd rfl rfl rfl).crdFlag ..
      exact .ite (.ite (declared.willAppoint _) (declared.crdFlag ..)) (.ite (counted.willAppoint _) counted)

/-! Missed latches (R618, R619). -/

/-- What goes to the entries of a machine's allocation leaves the coordination alone (R617). -/
theorem writeAslot_wroteOut (s : State) (m : Nat) (v : W18) : wroteOut s (writeAslot s m v) :=
  (show wroteOut s (freeTaken s) from rfl).trans (deliver_wroteOut ..)

theorem wroteOut.crd (h : wroteOut s t) : t.crd = s.crd := (congrArg State.crd h :)

/-- The member counts a latch as missed (R618). -/
def missCounted (s : State) : State := crdSet (updCrd s fun c => { c with gap := satInc 15 c.gap }) 1

/-- At the eighth missed latch in a row a member writes 0 to its allocations, unless COMPAT is 1 (R619). -/
def allocsZeroed (s : State) : State :=
  if crdCompat s.crd.cfg then s else (crdMachines s).foldl (fun s m => writeAslot s m 0) s

theorem missAlloc_eq (s : State) : missAlloc s = if satInc 15 s.crd.gap = 8 then
    recCrd (updCrd (allocsZeroed (missCounted s)) fun c => { c with noAlloc := true }) 0xA022 else missCounted s := rfl

theorem allocsZeroed_crd (s : State) : (allocsZeroed s).crd = s.crd :=
  ((wroteOut.refl s).ite ((wroteOut.refl s).foldl fun _ _ => writeAslot_wroteOut ..)).crd

/-- A missed latch is counted, up to 15 (R618, R631). -/
theorem missAlloc_gap (s : State) : (missAlloc s).crd.gap = satInc 15 s.crd.gap := by
  rw [missAlloc_eq]; split
  · rw [recCrd_crd, updCrd_crd, allocsZeroed_crd]; rfl
  · rfl

/-- But for the eighth missed latch in a row a member keeps its allocations, and there too where COMPAT is 1 (R618, R619). -/
theorem missAlloc_thk (s : State) (h : s.crd.gap ≠ 7 ∨ crdCompat s.crd.cfg = true) : (missAlloc s).thk = s.thk := by
  rw [missAlloc_eq]; split
  next eighth =>
    have seven : s.crd.gap = 7 := by unfold satInc at eighth; split at eighth <;> omega
    have compat : crdCompat (missCounted s).crd.cfg = true := h.resolve_left (not_not_intro seven)
    rw [recCrd_thk, updCrd_thk, allocsZeroed, if_pos compat]; rfl
  next => rfl

/-! The choice of a section (R622). -/

/-- The highest epoch among sections is where the search began or the epoch of one of them. -/
theorem epoch_top_attained (l : List AllocSec) (m : Nat) : l.foldl (fun e a => max e a.epoch.toNat) m = m ∨
    ∃ a ∈ l, a.epoch.toNat = l.foldl (fun e a => max e a.epoch.toNat) m := by
  induction l generalizing m with
  | nil => exact .inl rfl
  | cons a l ih =>
    rw [List.foldl_cons]
    rcases ih (max m a.epoch.toNat) with e | ⟨b, mem, e⟩
    · rw [e]
      rcases Nat.le_total m a.epoch.toNat with le | le
      · exact .inr ⟨a, List.mem_cons_self, (Nat.max_eq_right le).symm⟩
      · exact .inl (Nat.max_eq_left le)
    · exact .inr ⟨b, List.mem_cons_of_mem _ mem, e⟩

/-- Among sections there is one with the highest epoch. -/
theorem exists_epoch_top {l : List AllocSec} (h : l ≠ []) :
    l.filter (fun a => a.epoch.toNat == l.foldl (fun e a => max e a.epoch.toNat) 0) ≠ [] := by
  obtain ⟨a, mem, top⟩ : ∃ a ∈ l, a.epoch.toNat = l.foldl (fun e a => max e a.epoch.toNat) 0 := by
    rcases epoch_top_attained l 0 with zero | attained
    · cases l with
      | nil => exact absurd rfl h
      | cons a l =>
        rw [List.foldl_cons, Nat.zero_max]
        rcases epoch_top_attained l a.epoch.toNat with e | ⟨b, mem, e⟩
        · exact ⟨a, List.mem_cons_self, e.symm⟩
        · exact ⟨b, List.mem_cons_of_mem _ mem, e⟩
    · exact attained
  exact List.ne_nil_of_mem (List.mem_filter.2 ⟨mem, beq_iff_eq.2 top⟩)

/-- A search that answers at every element answers over any list with one. -/
theorem foldl_isSome {α β : Type} {f : Option β → α → Option β} (hf : ∀ b a, (f b a).isSome = true) {l : List α} (h : l ≠ [])
    (b : Option β) : (l.foldl f b).isSome = true := by
  rw [← List.dropLast_append_getLast h, List.foldl_concat]
  exact hf ..

/-- Where there is a section, one is chosen. -/
theorem eq_nil_of_chooseAlloc_eq_none {l : List AllocSec} {last : Option Nat} (none : chooseAlloc l last = none) : l = [] := by
  by_contra h
  refine absurd none (Option.ne_none_iff_isSome.2 ?_)
  unfold chooseAlloc; dsimp only
  split
  · rfl
  · refine foldl_isSome (fun b a => ?_) (exists_epoch_top h) Option.none
    split
    · split <;> rfl
    · rfl

/-! The member's part of the latch (R617 to R622). -/

/-- A section applied ends the row of missed latches (R618). -/
theorem applyAlloc_gap (s : State) (a : AllocSec) : (applyAlloc s a).crd.gap = 0 := by
  unfold applyAlloc; rfl

theorem memberLatch_missed (s : State) : memberLatch s [] = missAlloc (updCrd s fun c => { c with stale := c.stale + 0 }) := rfl

/-- A member takes a section of the cycle whose epoch is not below the one it has applied (R622). -/
theorem memberLatch_takes {l : List AllocSec} {a : AllocSec} (mem : a ∈ l)
    (current : ∀ e n, s.crd.applied = some (e, n) → e.toNat ≤ a.epoch.toNat) : (memberLatch s l).crd.gap = 0 := by
  unfold memberLatch; dsimp only
  split
  next b _ => exact applyAlloc_gap ..
  next none =>
    have below := List.filter_eq_nil_iff.1 (eq_nil_of_chooseAlloc_eq_none none) a mem
    refine absurd (decide_eq_true ?_) below
    split
    next q applied => exact current q.1 q.2 applied
    next => exact Nat.zero_le _

/-! ALLOC_LATCH (R613, R617 to R622). -/

/-- The state in which a member's part of the latch begins. -/
def latchOpened (s : State) : State :=
  fence (updCrd s fun c => { c with
    before := s.crd.reports.filter fun r => r.cycle == s.crd.cycle
    reports := c.reports.filter fun r => r.cycle == s.crd.cycle + 1
    allocs := c.allocs.filter fun a => a.cycle == s.crd.cycle + 1
    sinceNamed := if c.namedNow then 0 else satInc 3 c.sinceNamed
    namedNow := false })

theorem latchOpened_memberKept (s : State) : MemberKept s (latchOpened s) :=
  ((MemberKept.refl s).updCrd rfl rfl rfl).trans (fence_memberKept _)

/-- What a latch leaves of a member is what its own part of the latch leaves (R613). -/
theorem exec_allocLatch_member (runs : crdRuns s = true) (member : crdMember s = true) : ∃ t, exec .allocLatch s = .next t ∧
    MemberKept (memberLatch (latchOpened s) (s.crd.allocs.filter fun a => a.cycle == s.crd.cycle)) t := by
  have still : crdMember (latchOpened s) = true := by
    unfold crdMember at member ⊢; rw [(latchOpened_memberKept s).cfg]; exact member
  generalize parts : memberLatch (latchOpened s) (s.crd.allocs.filter fun a => a.cycle == s.crd.cycle) = m
  have e : exec .allocLatch s = .next (if isArbiter m then arbiterLatch m (s.crd.reports.filter fun r => r.cycle == s.crd.cycle)
      (s.crd.allocs.filter fun a => a.cycle == s.crd.cycle) else m) := by
    refine (if_neg (by rw [runs]; exact Bool.false_ne_true)).trans (congrArg _ ?_)
    refine (congrArg (fun m => if isArbiter m then arbiterLatch m _ _ else m) (?_ : _ = m))
    exact (if_pos still).trans parts
  exact ⟨_, e, .ite (arbiterLatch_memberKept ..) (.refl _)⟩

/-- Settles O59: a latch by the member's part of it. -/
theorem missedAllocationsAreCounted : Obligations.MissedAllocationsAreCounted := by
  intro s runs member
  obtain ⟨t, e, kept⟩ := exec_allocLatch_member runs member
  have opened := latchOpened_memberKept s
  refine ⟨fun none => ⟨t, e, ?_⟩, fun ⟨a, mem, cycle, current⟩ => ⟨t, e, ?_⟩⟩
  · rw [List.filter_eq_nil_iff.2 fun a mem => by simpa using none a mem, memberLatch_missed] at kept
    refine ⟨?_, fun keeps => ?_⟩
    · rw [kept.gap, missAlloc_gap, updCrd_crd]; exact congrArg (satInc 15) opened.gap
    · rw [kept.thk, missAlloc_thk _ (by rw [updCrd_crd]; dsimp only; rw [opened.gap, opened.cfg]; exact keeps)]
      exact opened.thk
  · rw [kept.gap]
    refine memberLatch_takes (a := a) (List.mem_filter.2 ⟨mem, beq_iff_eq.2 cycle⟩) ?_
    rw [opened.applied]; exact current

end Sys2Proof.Machine
end

section
/-! Supply rails, droops, clock supervision and internal resets (R537, R539 to R542, R551). -/

namespace Sys2Proof.Machine

section
variable {s : State}

/-- A record of the supply supervisor changes the log, the trace and the waiting events alone (R82, R551). -/
theorem recSup_frame (s : State) (code : W16) : recSup s code =
    { s with io := (recSup s code).io, trc := (recSup s code).trc, drv := (recSup s code).drv } := record_frame ..

@[simp] theorem recSup_sup (s : State) (code : W16) : (recSup s code).sup = s.sup := record_sup ..
@[simp] theorem recSup_lastFault (s : State) (code : W16) : (recSup s code).io.lastFault = code := record_lastFault ..
@[simp] theorem blkStep_sup (s v : State) : (blkStep s v).sup = v.sup := by rw [blkStep_frame]

/-- A rail that leaves its window while the start sequence is complete, VAON apart: the reaction of R537. -/
theorem exec_railOutOfWindow {rail : Fin 7} (inside : bit s.sup.railOut rail = false) (done : s.sup.seqDone = true) (notVaon : rail ≠ 0) :
    exec (.railOutOfWindow rail true) s = .next (railReaction (blkStep s (setRail s rail true)) rail) := by
  have notZero : rail.val ≠ 0 := fun h => notVaon (Fin.ext h)
  show execRailOutOfWindow rail true s = _
  simp [execRailOutOfWindow, inside, done, notZero]

/-- The rails whose failure records a fault: the record, and in ARMED and RUNNING the stop for VDRV (R537). -/
theorem railReaction_records (s : State) {rail : Nat} (h : rail = 1 ∨ 3 ≤ rail) :
    railReaction s rail = { s with saf := (railReaction s rail).saf, drv := (railReaction s rail).drv
                                   io := (railReaction s rail).io, trc := (railReaction s rail).trc } ∧
      (railReaction s rail).io.lastFault =
        if rail = 1 then 0x9021 else if rail = 3 then 0x9022 else if rail = 4 then 0x9023 else if rail = 5 then 0x9024 else 0x9025 := by
  unfold railReaction
  split
  case h_2 => omega
  case h_5 =>
    split
    · exact ⟨by rw [recSup_frame]; rfl, recSup_lastFault ..⟩
    · exact ⟨by rw [recSup_frame], recSup_lastFault ..⟩
  case h_6 one two three four five =>
    refine ⟨by rw [recSup_frame], ?_⟩
    rw [if_neg one, if_neg three, if_neg four, if_neg five, recSup_lastFault]
  all_goals exact ⟨by rw [recSup_frame], recSup_lastFault ..⟩

/-- A rail outside its window shows in both fields of SUP_STAT (R551). -/
theorem setRail_bits (s : State) {rail : Nat} (pos : 1 ≤ rail) (lt : rail < 7) :
    bit (setRail s rail true).sup.railOut rail = true ∧ bit (setRail s rail true).sup.rails (rail - 1) = true := by
  refine ⟨bit_setBit_same _ _ lt, ?_⟩
  have rails : (setRail s rail true).sup.rails = setBit s.sup.rails (rail - 1) true := if_pos (by simp [pos])
  rw [rails, bit_setBit_same _ _ (by omega)]

/-- An internal reset: every domain but the always-on logic, flash and fuses takes its reset value, and RSTC tells the cause (R539). -/
theorem internalReset_lost (s : State) (n : Nat) : ∃ t, internalReset s n = t ∧ t.drv.st = .off ∧
    t.aon = { s.aon with rstc := BitVec.ofNat 4 n, rstcNew := true } ∧
    t = { State.reset with pending := s.pending, aon := t.aon, nv := t.nv, free := s.free, io := t.io, sup := t.sup } ∧
    t.nv = { s.nv with age := t.nv.age } := ⟨_, rfl, rfl, rfl, rfl, rfl⟩

/-! Droops (R540, R541). -/

theorem exec_droopDetect_none {level : Nat} (h : slowFor s level = 0 ∨ 20 ≤ slowedUs s) : exec (.droopDetect level) s = .next s := by
  refine if_pos ?_
  rcases h with h | h <;> simp [h]

theorem exec_droopDetect {level : Nat} (k : slowFor s level ≠ 0) (on : s.drv.st ≠ .off) (budget : slowedUs s < 20) :
    exec (.droopDetect level) s = if s.sup.slow = 0 then
      .next { s with sup := { s.sup with slow := slowFor s level, slowAt := some s.clk.tb, dcnt := satInc 255 s.sup.dcnt } }
      else .next { s with sup := { s.sup with slow := max s.sup.slow (slowFor s level) } } := by
  refine if_neg ?_
  simp [k, on, budget]

theorem exec_droopEnd {since : Nat} (h : s.sup.slowAt = some since) : exec .droopEnd s = .next { s with sup := { s.sup with
    slow := 0, slowAt := none
    slowLog := (since, s.clk.tb) :: s.sup.slowLog.filter fun p => decide (s.clk.tb ≤ p.2 + 4000000) } } := by
  show execDroopEnd s = _
  rw [execDroopEnd, h]

/-! The reference (R542). -/

theorem exec_referenceCountWindow_good {edges : Nat} (on : s.drv.st ≠ .off) (lo : 973 ≤ edges) (hi : edges ≤ 1075) :
    exec (.referenceCountWindow edges) s = .next { s with sup := { s.sup with badRef := 0 } } := by
  have bad : (decide (edges < 973) || decide (1075 < edges)) = false := by simp; omega
  show execReferenceCountWindow edges s = _
  simp [execReferenceCountWindow, on, bad]

theorem exec_referenceCountWindow_bad {edges : Nat} (on : s.drv.st ≠ .off) (out : edges < 973 ∨ 1075 < edges) :
    exec (.referenceCountWindow edges) s =
      let v := { s with sup := { s.sup with badRef := satInc 2 s.sup.badRef, refBit := s.sup.refBit || satInc 2 s.sup.badRef == 2 } }
      .next (if satInc 2 s.sup.badRef = 2 && s.sup.badRef = 1 then recSup v 0x9029 else v) := by
  have bad : (decide (edges < 973) || decide (1075 < edges)) = true := by simpa using out
  show execReferenceCountWindow edges s = _
  simp [execReferenceCountWindow, on, bad]

end

/-- Settles O30: each event by the law of what it does. That the loss of VAON unlatches the reset's release is the model's (log entry
32; R672). -/
theorem supplyEventsTakeEffect : Obligations.SupplyEventsTakeEffect := by
  intro s
  refine ⟨fun rail => ⟨⟨_, rfl, rfl⟩, fun inside => ⟨?vaon, ?vcore, ?rails⟩⟩, fun level => ⟨?none, fun slows on budget => ?droop⟩,
    fun at_ since => ?droopEnd, fun done => ⟨fun spent => ?budget, ?pll⟩, fun edges on =>
      ⟨exec_referenceCountWindow_good on, fun out => ?reference⟩⟩
  case vaon =>
    rintro rfl
    have inside : bit s.sup.railOut 0 = false := inside
    show execRailOutOfWindow 0 true s = _
    simp [execRailOutOfWindow, inside]
  case vcore =>
    rintro done rfl
    rw [exec_railOutOfWindow inside done (by decide)]
    refine ⟨_, rfl, rfl, ?_⟩
    show ({ (blkStep s (setRail s 2 true)).aon with rstc := 1, rstcNew := true } : Aon) = _
    rw [blkStep_frame]; rfl
  case rails =>
    intro done notVaon notVcore
    have one : rail.val ≠ 0 := fun h => notVaon (Fin.ext h)
    have two : rail.val ≠ 2 := fun h => notVcore (Fin.ext h)
    obtain ⟨frame, fault⟩ := railReaction_records (blkStep s (setRail s rail true)) (rail := rail) (by omega)
    obtain ⟨out, rails⟩ := setRail_bits s (rail := rail) (by omega) rail.isLt
    refine ⟨_, exec_railOutOfWindow inside done notVaon, ?_, ?_, ?_, ?_⟩
    · rw [frame, blkStep_frame]; rfl
    · rw [frame, blkStep_sup]; exact out
    · rw [frame, blkStep_sup]; exact rails
    · rw [fault]; simp [Fin.ext_iff]
  case none => exact exec_droopDetect_none
  case droop =>
    have e := exec_droopDetect (level := level) slows on budget
    exact ⟨fun idle => e.trans (if_pos idle), fun slowed => e.trans (if_neg slowed)⟩
  case droopEnd =>
    exact ⟨_, exec_droopEnd since, rfl, rfl⟩
  case budget =>
    obtain ⟨t, e, lost⟩ := internalReset_lost s 2
    exact ⟨t, (if_pos (by simp [done, spent])).trans (congrArg _ e), lost⟩
  case pll =>
    obtain ⟨t, e, lost⟩ := internalReset_lost s 3
    exact ⟨t, (if_pos done).trans (congrArg _ e), lost⟩
  case reference =>
    have e := exec_referenceCountWindow_bad on out
    exact ⟨fun first => by rw [e]; simp [first, satInc], fun second => ⟨_, rfl, by rw [e]; simp [second, satInc]; rfl⟩⟩

end Sys2Proof.Machine
end

section
/-! Temperature sensors, the hardwired line, and the throttle (R527 to R535, R549). -/

namespace Sys2Proof.Machine

section
variable {s t u : State}

/-- From `s` to `t` the temperature block has changed, with the fault records and the state events that come of it, and nothing else. -/
def thermalOnly (s t : State) : Prop := t = { s with thm := t.thm, drv := t.drv, io := t.io, trc := t.trc }

theorem thermalOnly.trans (h : thermalOnly s t) (k : thermalOnly t u) : thermalOnly s u := Eq.trans k (by rw [h])

theorem thermalOnly.ite {c : Prop} [Decidable c] (ht : thermalOnly s t) (hu : thermalOnly s u) : thermalOnly s (if c then t else u) := by
  split <;> assumption

theorem updThm_thermalOnly (s : State) (f : Thermal → Thermal) : thermalOnly s (updThm s f) := rfl

theorem record_thermalOnly (s : State) (code : W16) (unit : Nat) (data0 : W32) : thermalOnly s (record s code unit data0) := by
  unfold thermalOnly; rw [record_frame]

@[simp] theorem blkStep_thm (s v : State) : (blkStep s v).thm = v.thm := by rw [blkStep_frame]

theorem setBit_bit {m : Nat} (w : BitVec m) (i : Nat) : setBit w i (bit w i) = w := by
  refine BitVec.eq_of_getLsbD_eq fun j _ => ?_
  show bit (setBit w i (bit w i)) j = bit w j
  rw [bit_setBit]; split
  next same => rw [same.1]
  next => rfl

/-! Broken sensors (R529). -/

theorem sensorBroken_thermalOnly (s : State) (n : Nat) : thermalOnly s (sensorBroken s n) :=
  .ite rfl ((updThm_thermalOnly s fun t => { t with broken := setBit t.broken n true }).trans (record_thermalOnly ..))

/-- A sensor that is found broken has its bit set, and nothing else of the temperature block changes (R529). -/
theorem sensorBroken_thm (s : State) (n : Nat) : (sensorBroken s n).thm = { s.thm with broken := setBit s.thm.broken n true } := by
  unfold sensorBroken; split
  next broken =>
    rw [← broken, setBit_bit]
  next => exact record_thm ..

/-! A window of a sensor (R527, R529, R534, R535). -/

/-- Windows in a row of a sensor with an identical count, this one with it (R529). -/
def sameRow (t : Thermal) (n count : Nat) : Nat := if t.count.at n = count then satInc 64 (t.same.at n) else 1

/-- A sensor after one of its windows, before it is judged (R527, R529, R534). -/
def windowTaken (s : State) (n count : Nat) (reading : Int) : State :=
  updThm s fun t => { t with
    reading := t.reading.put n reading, count := t.count.put n count
    same := t.same.put n (sameRow s.thm n count)
    hot := t.hot.put n (decide (2560 ≤ reading)) }

/-- The sensor as this window judges it (R529, R535). -/
def windowJudged (s : State) (n count : Nat) (reading : Int) : State :=
  if windowBad (sameRow s.thm n count) reading || 16 ≤ n && (s.gdv.at (n - 16)).linkLost then sensorBroken (windowTaken s n count reading) n
  else windowTaken s n count reading

/-- The hardwired line asserted by a sensor, with its record (R534). -/
def lineAsserted (s : State) (n : Nat) : State :=
  let t := blkStep s (updThm s fun t => { t with stat := setBit t.stat 26 true })
  record t 0x9014 n t.thm.stat

theorem sensorWindow_eq (s : State) (n count : Nat) (reading : Int) : sensorWindow s n count reading =
    if s.thm.hot.at n && decide (2560 ≤ reading) && !bit (windowJudged s n count reading).thm.broken n && !bit s.thm.stat 26 then
      lineAsserted (windowJudged s n count reading) n
    else windowJudged s n count reading := rfl

theorem lineAsserted_thm (s : State) (n : Nat) : (lineAsserted s n).thm = { s.thm with stat := setBit s.thm.stat 26 true } := by
  unfold lineAsserted; rw [record_thm, blkStep_thm]; rfl

theorem lineAsserted_thermalOnly (s : State) (n : Nat) : thermalOnly s (lineAsserted s n) := by
  refine thermalOnly.trans (t := blkStep s _) ?_ (record_thermalOnly ..)
  unfold thermalOnly; rw [blkStep_frame]; rfl

theorem windowJudged_thermalOnly (s : State) (n count : Nat) (reading : Int) : thermalOnly s (windowJudged s n count reading) :=
  .ite ((updThm_thermalOnly ..).trans (sensorBroken_thermalOnly ..)) (updThm_thermalOnly ..)

/-- Being judged, a sensor changes its broken bit alone (R529). -/
theorem windowJudged_thm (s : State) (n count : Nat) (reading : Int) : ∃ b : Bool, (windowJudged s n count reading).thm =
    { (windowTaken s n count reading).thm with broken := if b then setBit s.thm.broken n true else s.thm.broken } ∧
    (windowBad (sameRow s.thm n count) reading = true → b = true) := by
  unfold windowJudged; split
  next bad => exact ⟨true, sensorBroken_thm .., fun _ => rfl⟩
  next good => exact ⟨false, rfl, fun bad => absurd (Bool.or_eq_true_iff.2 (.inl bad)) good⟩

theorem sensorWindow_thermalOnly (s : State) (n count : Nat) (reading : Int) : thermalOnly s (sensorWindow s n count reading) := by
  rw [sensorWindow_eq]
  exact .ite ((windowJudged_thermalOnly ..).trans (lineAsserted_thermalOnly ..)) (windowJudged_thermalOnly ..)

/-- Past the judgement a window changes the status word alone (R534). -/
theorem sensorWindow_thm (s : State) (n count : Nat) (reading : Int) : (sensorWindow s n count reading).thm =
    { (windowJudged s n count reading).thm with stat := (sensorWindow s n count reading).thm.stat } := by
  rw [sensorWindow_eq]; split
  · rw [lineAsserted_thm]
  · rfl

/-- What a window stores of its sensor (R527, R529, R534). -/
theorem sensorWindow_stores {n : Nat} (lt : n < 32) (count : Nat) (reading : Int) : ∃ t, (sensorWindow s n count reading).thm = t ∧
    t.reading.at n = reading ∧ t.count.at n = count ∧ t.hot.at n = decide (2560 ≤ reading) ∧ t.same.at n = sameRow s.thm n count := by
  refine ⟨_, rfl, ?_⟩
  obtain ⟨b, judged, _⟩ := windowJudged_thm s n count reading
  rw [sensorWindow_thm, judged]
  exact ⟨Vector.at_put_same _ _ lt, Vector.at_put_same _ _ lt, Vector.at_put_same _ _ lt, Vector.at_put_same _ _ lt⟩

/-- A window may find its sensor broken, and no other (R529). -/
theorem sensorWindow_broken (s : State) (n count : Nat) (reading : Int) : ∃ b : Bool, (sensorWindow s n count reading).thm.broken =
    (if b then setBit s.thm.broken n true else s.thm.broken) ∧ (windowBad (sameRow s.thm n count) reading = true → b = true) := by
  obtain ⟨b, judged, bad⟩ := windowJudged_thm s n count reading
  exact ⟨b, by rw [sensorWindow_thm, judged], bad⟩

/-- Two windows in a row at 160 °C on a sensor that works assert the line (R534). -/
theorem sensorWindow_asserts {n count : Nat} {reading : Int} (was : s.thm.hot.at n = true) (hot : 2560 ≤ reading)
    (works : bit (sensorWindow s n count reading).thm.broken n = false) (idle : bit s.thm.stat 26 = false) :
    sensorWindow s n count reading = lineAsserted (windowJudged s n count reading) n := by
  have broken : (sensorWindow s n count reading).thm.broken = (windowJudged s n count reading).thm.broken :=
    (congrArg Thermal.broken (sensorWindow_thm s n count reading) :)
  rw [sensorWindow_eq, if_pos]
  rw [← broken]; simp [was, hot, works, idle]

/-! The throttle's step (R531). -/

/-- How many of the thresholds 1 to `k` a reading has reached. -/
def reached (f : Nat → Int) (tm : Int) (k : Nat) : Nat := ((List.range (k + 1)).filter fun j => 0 < j && decide (f j ≤ tm)).length

theorem reached_succ (f : Nat → Int) (tm : Int) (n : Nat) :
    reached f tm (n + 1) = reached f tm n + if f (n + 1) ≤ tm then 1 else 0 := by
  unfold reached
  rw [List.range_succ (n := n + 1), List.filter_append, List.length_append]
  congr 1
  split <;> simp [*]

/-- Of rising thresholds a reading has reached the lowest ones. -/
theorem le_reached_iff {f : Nat → Int} (mono : Monotone f) (tm : Int) (n : Nat) {k : Nat} (pos : 1 ≤ k) :
    k ≤ reached f tm n ↔ k ≤ n ∧ f k ≤ tm := by
  induction n generalizing k with
  | zero => exact ⟨fun h => absurd h (Nat.not_le.2 pos), fun h => absurd h.1 (Nat.not_le.2 pos)⟩
  | succ n ih =>
    rw [reached_succ]; split
    next top =>
      have all : reached f tm n = n := by
        refine Nat.le_antisymm ?_ ?_
        · rcases Nat.eq_zero_or_pos (reached f tm n) with zero | some
          · omega
          · exact ((ih some).1 (Nat.le_refl _)).1
        · rcases Nat.eq_zero_or_pos n with rfl | some
          · exact Nat.zero_le _
          · exact (ih some).2 ⟨Nat.le_refl n, (mono (Nat.le_succ n)).trans top⟩
      rw [all]
      exact ⟨fun le => ⟨le, (mono le).trans top⟩, And.left⟩
    next short =>
      rw [Nat.add_zero, ih pos]
      refine ⟨fun h => ⟨h.1.trans (Nat.le_succ n), h.2⟩, fun h => ⟨?_, h.2⟩⟩
      rcases Nat.lt_or_ge n k with above | within
      · exact absurd h.2 ((Nat.le_antisymm h.1 above) ▸ short)
      · exact within

/-- The thresholds at which a step is entered and below which it is left, in 1/16 °C (R531). -/
def enterAt (k : Nat) : Int := 16 * (123 + 2 * (k : Int))
def leaveAt (k : Nat) : Int := 16 * (122 + 2 * (k : Int))

theorem enterAt_mono : Monotone enterAt := fun a b h => by unfold enterAt; omega
theorem leaveAt_mono : Monotone leaveAt := fun a b h => by unfold leaveAt; omega

/-- The model counts over integers. -/
theorem reached_eq (a tm : Int) (k : Nat) :
    (List.filter (fun j : Int => 0 < j && decide (16 * (a + 2 * j) ≤ tm)) (do let j ← List.range (k + 1); pure (j : Int))).length =
      reached (fun j => 16 * (a + 2 * (j : Int))) tm k := by
  have coe : (do let j ← List.range (k + 1); pure (j : Int)) = (List.range (k + 1)).map Nat.cast := by
    rw [List.map_eq_flatMap]; rfl
  rw [coe, List.filter_map, List.length_map]
  unfold reached
  congr 2
  funext j
  simp [Function.comp]

theorem stepOf_eq (old : Nat) (tm : Int) : stepOf old tm =
    if old ≤ reached enterAt tm 12 then reached enterAt tm 12 else min old (reached leaveAt tm 12) := by
  show _ = if old ≤ reached (fun j => 16 * (123 + 2 * (j : Int))) tm 12 then reached (fun j => 16 * (123 + 2 * (j : Int))) tm 12
    else min old (reached (fun j => 16 * (122 + 2 * (j : Int))) tm 12)
  rw [← reached_eq, ← reached_eq]
  rfl

/-- A step is entered as its threshold is reached (R531). -/
theorem stepOf_enters (old : Nat) {tm : Int} {k : Nat} (pos : 1 ≤ k) (le : k ≤ 12) (h : enterAt k ≤ tm) : k ≤ stepOf old tm := by
  have up : k ≤ reached enterAt tm 12 := (le_reached_iff enterAt_mono tm 12 pos).2 ⟨le, h⟩
  have keep : k ≤ reached leaveAt tm 12 :=
    (le_reached_iff leaveAt_mono tm 12 pos).2 ⟨le, le_trans (by unfold leaveAt enterAt; omega) h⟩
  rw [stepOf_eq]; split
  · exact up
  · exact Nat.le_min.2 ⟨by omega, keep⟩

/-- A step is left below its threshold of leaving (R531). -/
theorem stepOf_leaves {old : Nat} {tm : Int} {k : Nat} (pos : 1 ≤ k) (h : k ≤ stepOf old tm) : k ≤ 12 ∧ leaveAt k ≤ tm := by
  rw [stepOf_eq] at h; split at h
  · obtain ⟨le, entered⟩ := (le_reached_iff enterAt_mono tm 12 pos).1 h
    exact ⟨le, le_trans (by unfold leaveAt enterAt; omega) entered⟩
  · exact (le_reached_iff leaveAt_mono tm 12 pos).1 (Nat.le_min.1 h).2

theorem stepOf_le (old : Nat) (tm : Int) : stepOf old tm ≤ 12 := by
  rcases Nat.eq_zero_or_pos (stepOf old tm) with zero | pos
  · omega
  · exact (stepOf_leaves pos (Nat.le_refl _)).1

/-! An evaluation of the throttle (R530 to R533, R549, R550). -/

theorem putState_thkOnly (s : State) (g a : Nat) (v : W18) : thkOnly s (putState s g a v) := rfl

/-- THR goes to the contexts' state areas alone (R532). -/
theorem writeThr_thkOnly (s : State) (thr : Nat) : thkOnly s (writeThr s thr) := by
  refine thkOnly.foldl (fun u i => ?_) ..
  refine thkOnly.foldl (fun u l => ?_) ..
  split
  · split <;> rfl
  · rfl

/-- From `s` to `t` an evaluation of the temperatures has changed what it may: the throttle, the contexts, the demand stage, and what is
recorded. -/
def throttleOnly (s t : State) : Prop :=
  t = { s with thm := t.thm, thk := t.thk, drv := t.drv, io := t.io, trc := t.trc, dmd := t.dmd }

theorem throttleOnly.trans (h : throttleOnly s t) (k : throttleOnly t u) : throttleOnly s u := Eq.trans k (by rw [h])

theorem throttleOnly.ite {c : Prop} [Decidable c] (ht : throttleOnly s t) (hu : throttleOnly s u) : throttleOnly s (if c then t else u) := by
  split <;> assumption

theorem thermalOnly.throttleOnly (h : thermalOnly s t) : throttleOnly s t := Eq.trans h (by rw [h])

theorem thkOnly.throttleOnly (h : thkOnly s t) : throttleOnly s t := Eq.trans h (by rw [h])

/-- A ramp that is asked for changes the drive and the contexts alone (R109). -/
theorem askRamp_frame (s : State) (k : RampKind) (ms : Nat) : askRamp s k ms =
    { s with drv := (askRamp s k ms).drv, thk := (askRamp s k ms).thk } := by
  unfold askRamp; split
  · rw [startRamp_frame]
  · dsimp only; split <;> rfl

theorem askStop_frame (s : State) (k : RampKind) (ms : Nat) : askStop s k ms =
    { s with drv := (askStop s k ms).drv, thk := (askStop s k ms).thk, dmd := (askStop s k ms).dmd } := by
  unfold askStop; dsimp only; split
  · rw [askRamp_frame]
  · rfl

theorem askStop_throttleOnly (s : State) (k : RampKind) (ms : Nat) : throttleOnly s (askStop s k ms) := by
  unfold throttleOnly; rw [askStop_frame]

/-- A warning changes whether it is armed and bit 24 alone (R550). -/
theorem warnCheck_thm (s : State) (tm : Int) : ∃ armed b, (warnCheck s tm).thm =
    { s.thm with warnArmed := armed, stat := setBit s.thm.stat 24 b } := by
  have same : setBit s.thm.stat 24 (bit s.thm.stat 24) = s.thm.stat := setBit_bit ..
  unfold warnCheck; dsimp only; split
  next => exact ⟨s.thm.warnArmed, bit s.thm.stat 24, by rw [same]⟩
  next =>
    split
    next => exact ⟨true, bit s.thm.stat 24, by rw [same]; rfl⟩
    next =>
      split
      next => exact ⟨false, true, record_thm ..⟩
      next => exact ⟨s.thm.warnArmed, bit s.thm.stat 24, by rw [same]⟩

theorem warnCheck_throttleOnly (s : State) (tm : Int) : throttleOnly s (warnCheck s tm) :=
  .ite rfl (.ite rfl (.ite ((thermalOnly.trans (updThm_thermalOnly ..) (record_thermalOnly ..)).throttleOnly) rfl))

/-- The cause of the orderly stop, as a reading sets and clears it (R533). -/
def stopCause (s : State) (tm : Int) : Bool := decide (2400 ≤ tm) || (bit s.thm.stat 25 && decide (2368 ≤ tm))

/-- The orderly stop's cause is bit 25 of the status word (R533). -/
theorem stopCheck_thm (s : State) (tm : Int) : (stopCheck s tm).thm = { s.thm with stat := setBit s.thm.stat 25 (stopCause s tm) } := by
  unfold stopCheck; dsimp only; split
  next => rw [askStop_frame]; exact record_thm ..
  next => rfl

theorem stopCheck_throttleOnly (s : State) (tm : Int) : throttleOnly s (stopCheck s tm) :=
  .ite ((thermalOnly.trans (updThm_thermalOnly ..) (record_thermalOnly ..)).throttleOnly.trans (askStop_throttleOnly ..)) rfl

/-- The status word and the step an evaluation writes, before the warning and the stop (R530, R531). -/
def throttleTaken (s : State) : State :=
  let k := stepOf s.thm.step (hottest s.thm).2
  updThm s fun t => { t with
    step := k
    stat := setFld (setFld (setFld t.stat 15 0 ((hottest s.thm).2 % 65536).toNat) 20 16 (hottest s.thm).1) 31 27 (16 - k) }

/-- The step carried to the contexts and recorded (R532). -/
def throttleTold (s : State) : State :=
  let k := stepOf s.thm.step (hottest s.thm).2
  let t := if k != s.thm.step then writeThr (throttleTaken s) (16 - k) else throttleTaken s
  if s.thm.step == 0 && k != 0 then record t 0x9012 (hottest s.thm).1 t.thm.stat else t

theorem throttle_eq (s : State) :
    throttle s = stopCheck (warnCheck (throttleTold s) (hottest s.thm).2) (hottest s.thm).2 := rfl

theorem throttleTold_thm (s : State) : (throttleTold s).thm = (throttleTaken s).thm := by
  have carried : (if stepOf s.thm.step (hottest s.thm).2 != s.thm.step then
      writeThr (throttleTaken s) (16 - stepOf s.thm.step (hottest s.thm).2) else throttleTaken s).thm = (throttleTaken s).thm := by
    split
    · rw [writeThr_thkOnly]
    · rfl
  unfold throttleTold; dsimp only; split
  · exact (record_thm ..).trans carried
  · exact carried

theorem throttle_throttleOnly (s : State) : throttleOnly s (throttle s) := by
  have taken : throttleOnly s (throttleTaken s) := rfl
  have carried (k : Nat) : throttleOnly s (writeThr (throttleTaken s) k) := taken.trans (writeThr_thkOnly ..).throttleOnly
  have told : throttleOnly s (throttleTold s) :=
    .ite ((throttleOnly.ite (carried _) taken).trans (record_thermalOnly ..).throttleOnly) (.ite (carried _) taken)
  exact (told.trans (warnCheck_throttleOnly ..)).trans (stopCheck_throttleOnly ..)

/-- What an evaluation leaves in the temperature block (R530 to R533, R550). -/
theorem throttle_thm (s : State) : ∃ armed b24 b25, (throttle s).thm = { (throttleTaken s).thm with
    warnArmed := armed, stat := setBit (setBit (throttleTaken s).thm.stat 24 b24) 25 b25 } ∧
    (2400 ≤ (hottest s.thm).2 → b25 = true) ∧ ((hottest s.thm).2 < 2368 → b25 = false) := by
  obtain ⟨armed, b, warned⟩ := warnCheck_thm (throttleTold s) (hottest s.thm).2
  refine ⟨armed, b, stopCause (warnCheck (throttleTold s) (hottest s.thm).2) (hottest s.thm).2, ?_, fun h => ?_, fun h => ?_⟩
  · rw [throttle_eq, stopCheck_thm, warned, throttleTold_thm]
  · unfold stopCause; rw [decide_eq_true h]; rfl
  · unfold stopCause; rw [decide_eq_false (by omega), decide_eq_false (by omega), Bool.and_false]; rfl

end

/-- An evaluation keeps TMAXE, its sensor, the step and the throttle, and the stop's cause (R530 to R533, R549). -/
theorem throttle_evaluates (s : State) : ∃ t, throttle s = t ∧ throttleOnly s t ∧
    fld t.thm.stat 15 0 = ((hottest s.thm).2 % 65536).toNat ∧ fld t.thm.stat 20 16 = (hottest s.thm).1 % 32 ∧
    t.thm.step = stepOf s.thm.step (hottest s.thm).2 ∧ fld t.thm.stat 31 27 = (16 - t.thm.step) % 32 ∧
    (2400 ≤ (hottest s.thm).2 → bit t.thm.stat 25 = true) ∧ ((hottest s.thm).2 < 2368 → bit t.thm.stat 25 = false) := by
  obtain ⟨armed, b24, b25, thm, high, low⟩ := throttle_thm s
  have stop : bit (throttle s).thm.stat 25 = b25 := by rw [thm]; exact bit_setBit_same _ _ (by decide)
  refine ⟨_, rfl, throttle_throttleOnly s, ?_, ?_, ?_, ?_, fun h => stop.trans (high h), fun h => stop.trans (low h)⟩
  · rw [thm]; dsimp only [throttleTaken, updThm]
    rw [fld_setBit_out _ _ (by decide), fld_setBit_out _ _ (by decide), fld_setFld_out _ _ (by decide), fld_setFld_out _ _ (by decide),
      fld_setFld_same _ _ (by decide)]
    omega
  · rw [thm]; dsimp only [throttleTaken, updThm]
    rw [fld_setBit_out _ _ (by decide), fld_setBit_out _ _ (by decide), fld_setFld_out _ _ (by decide), fld_setFld_same _ _ (by decide)]
    rfl
  · rw [thm]; rfl
  · rw [thm]; dsimp only [throttleTaken, updThm]
    rw [fld_setBit_out _ _ (by decide), fld_setBit_out _ _ (by decide), fld_setFld_same _ _ (by decide)]
    rfl

end Sys2Proof.Machine
end

section
/-! The ageing sites (R543 to R548, R552), and the obligation about temperature and ageing. -/

namespace Sys2Proof.Machine

section
variable {s : State}

/-- A day's end with a margin stores it, at most 90 of them (R545). -/
theorem endDay_hist {a : AgeSite} {m : Nat} (day : a.today = some m) (room : a.hist.length < 90) : a.endDay.hist = a.hist ++ [m] := by
  have keep : a.hist.length + 1 - 90 = 0 := by omega
  unfold AgeSite.endDay; rw [day]; dsimp only
  rw [keep, List.drop_zero]

theorem endDay_of_none {a : AgeSite} (day : a.today = none) : a.endDay = a := by
  unfold AgeSite.endDay; rw [day]

/-- No margin of a day outlasts it. -/
theorem endDay_today (a : AgeSite) : a.endDay.today = none := by
  unfold AgeSite.endDay; split <;> trivial

/-- The end of life as a re-plan judges it (R547). -/
def endOfLife (s : State) : Bool :=
  decide (6 < dthRaw s.nv.age) || s.nv.age.toList.any fun a => !a.hist.isEmpty && decide (fld a.word 55 48 ≤ 4)

/-- The ageing step a re-plan sets (R546). -/
def plannedStep (s : State) : Nat := max s.nv.ageDth (min 6 (dthRaw s.nv.age))

/-- A site as a re-plan leaves it (R546, R547). -/
def plannedSite (s : State) (a : AgeSite) : AgeSite :=
  { a with word := setBit (setFld a.word 39 36 (plannedStep s)) 19 (bit a.word 19 || endOfLife s) }

def plannedNv (s : State) : Nv := { s.nv with ageDth := plannedStep s, age := s.nv.age.map (plannedSite s) }

theorem replan_eq (s : State) : replan s =
    if endOfLife s && !s.nv.age.toList.any fun a => bit a.word 19 then record { s with nv := plannedNv s } 0x9031 noUnit 0
    else { s with nv := plannedNv s } := rfl

theorem replan_nv (s : State) : (replan s).nv = plannedNv s := by
  rw [replan_eq]; split
  · exact record_nv ..
  · rfl

theorem replan_frame (s : State) : replan s = { s with nv := (replan s).nv, drv := (replan s).drv, io := (replan s).io, trc := (replan s).trc } := by
  rw [replan_eq]; split
  · rw [record_frame]
  · rfl

/-- The smallest margin of a day in which `n` was measured last. -/
def leastOf (day : Option Nat) (n : Nat) : Nat := match day with | some d => min d n | none => n

/-- The margin a measurement gives a site, and the day's smallest with it (R543, R545). -/
def marginTaken (s : State) (n taps : Nat) : State :=
  updSite s n fun a => { a with
    word := setFld a.word 47 40 (min taps 255)
    today := some (leastOf a.today (min taps 255)) }

/-- A site found with no tap left (R544). -/
def preErrorSeen (s : State) (n : Nat) : State :=
  let t := updSite s n fun a => { a with word := setBit a.word 18 true }
  if n ≤ 6 then preErrorSlow t else t

/-- The upper half of a site's word, which its record carries. -/
def siteUpper (s : State) (n : Nat) : W32 := BitVec.ofNat 32 ((s.nv.age.at n).word.toNat / 2 ^ 32)

theorem exec_canary_margin {n : Fin 10} {taps : Nat} (on : s.drv.st ≠ .off) (some : 0 < taps) :
    exec (.canaryMeasurement n taps) s = .next (marginTaken s n taps) :=
  (if_neg (by simpa using on)).trans (if_neg (by omega))

theorem exec_canary_preError {n : Fin 10} {taps : Nat} (on : s.drv.st ≠ .off) (none : taps = 0) :
    exec (.canaryMeasurement n taps) s = .next (record (preErrorSeen (marginTaken s n taps) n) 0x9030 n
      (siteUpper (preErrorSeen (marginTaken s n taps) n) n)) :=
  (if_neg (by simpa using on)).trans (if_pos (by omega))

theorem marginTaken_site (s : State) {n : Nat} (lt : n < 10) (taps : Nat) : (marginTaken s n taps).nv.age.at n =
    { (s.nv.age.at n) with
      word := setFld (s.nv.age.at n).word 47 40 (min taps 255)
      today := some (leastOf (s.nv.age.at n).today (min taps 255)) } :=
  Vector.at_upd_same _ _ lt

/-- A pre-error slows the clock for one of sites 0 to 6 while the budget lasts (R544). -/
theorem preErrorSeen_eq (s : State) (n : Nat) : preErrorSeen s n =
    { updSite s n fun a => { a with word := setBit a.word 18 true } with sup := (preErrorSeen s n).sup } := by
  unfold preErrorSeen preErrorSlow; dsimp only; split
  · split <;> rfl
  · rfl

theorem preErrorSeen_slows {n : Nat} (site : n ≤ 6) (full : s.sup.slow = 0) (budget : slowedUs s < 20) :
    (preErrorSeen s n).sup = { s.sup with slow := 1, slowAt := some s.clk.tb } := by
  have slows : ((updSite s n fun a => { a with word := setBit a.word 18 true }).sup.slow == 0 && decide (slowedUs s < 20)) = true := by
    simp [full, budget]
  unfold preErrorSeen; rw [if_pos site]
  exact (congrArg State.sup (if_pos slows) :)

theorem preErrorSeen_keeps {n : Nat} (h : 6 < n ∨ s.sup.slow ≠ 0 ∨ 20 ≤ slowedUs s) : (preErrorSeen s n).sup = s.sup := by
  unfold preErrorSeen; dsimp only; split
  next site =>
    have stays : ¬ (s.sup.slow == 0 && decide (slowedUs s < 20)) = true := by
      rcases h with other | slow | spent
      · omega
      · simp [slow]
      · simp [spent]
    exact (congrArg State.sup (if_neg stays) :)
  next => rfl

/-! The statement's clauses. -/

theorem exec_sensorWindow (on : s.drv.st ≠ .off) (n : Fin 32) (c : Nat) (v : Int) :
    exec (.sensorWindow n c v) s = .next (sensorWindow s n c v) := if_neg (by simpa using on)

theorem exec_throttleEvaluation (on : fromStandby.contains s.drv.st = true) : exec .throttleEvaluation s = .next (throttle s) :=
  if_neg (by simpa [fromStandbyOn] using on)

/-- Every site's margins outlast a re-plan, and its word takes the ageing step (R546). -/
theorem plannedNv_site (s : State) {n : Nat} (lt : n < 10) : (plannedNv s).age.at n = plannedSite s (s.nv.age.at n) :=
  Vector.at_map _ _ lt

theorem fld_plannedSite (s : State) (a : AgeSite) : fld (plannedSite s a).word 39 36 = plannedStep s % 16 :=
  (fld_setBit_out _ _ (by decide)).trans (fld_setFld_same _ _ (by decide))

end

/-- Settles O29: a window, an evaluation of the throttle, a measurement and a re-plan each write what the statement says of them, and change
nothing beside (the frames). That hours and a day's margins are kept whatever VFLASH is, is assumption log entry 45's choice. -/
theorem temperatureAndAgeingEventsTakeEffect : Obligations.TemperatureAndAgeingEventsTakeEffect := by
  unfold Obligations.TemperatureAndAgeingEventsTakeEffect
  refine ⟨fun s => ⟨fun n c v on => ?window, fun cold => ?release, fun on => ?evaluation, fun old tm _ => ?steps⟩,
    fun s => ⟨fun n taps on => ?measurement, fun on => ⟨?day, ?hours⟩, fun _ _ => endDay_hist, fun _ => endDay_of_none⟩⟩
  case window =>
    obtain ⟨_, rfl, reading, count, hot, same⟩ := sensorWindow_stores (s := s) n.isLt c v
    obtain ⟨b, broken, bad⟩ := sensorWindow_broken s n c v
    refine ⟨_, exec_sensorWindow on n c v, sensorWindow_thermalOnly .., reading, count, hot, same, fun windowBad => ?_, fun k _ other => ?_,
      fun was hot works idle => ?_⟩
    · rw [same] at windowBad
      rw [broken, bad windowBad, if_pos rfl]
      exact bit_setBit_same _ _ n.isLt
    · rw [broken]
      cases b
      · rfl
      · rw [if_pos rfl]; exact bit_setBit_ne _ _ other
    · rw [sensorWindow_asserts was hot works idle, lineAsserted_thm]
      exact ⟨bit_setBit_same _ _ (by decide), record_lastFault ..⟩
  case release =>
    refine if_pos (List.all_eq_true.2 fun r mem => decide_eq_true ?_)
    obtain ⟨n, lt, rfl⟩ := List.getElem_of_mem mem
    rw [Vector.length_toList] at lt
    have colder := cold n lt
    rwa [Vector.at_eq_getElem _ lt] at colder
  case evaluation =>
    obtain ⟨t, eq, facts⟩ := throttle_evaluates s
    exact ⟨t, eq ▸ exec_throttleEvaluation on, facts⟩
  case steps =>
    exact ⟨stepOf_le old tm, fun k pos le => stepOf_enters old pos le, fun k le pos => (stepOf_leaves pos le).2⟩
  case measurement =>
    have lt : n.val < 10 := n.isLt
    rcases Nat.eq_zero_or_pos taps with none | some
    · have site : (preErrorSeen (marginTaken s n taps) n).nv.age.at n =
          { (marginTaken s n taps).nv.age.at n with word := setBit ((marginTaken s n taps).nv.age.at n).word 18 true } := by
        rw [preErrorSeen_eq]; exact Vector.at_upd_same _ _ lt
      refine ⟨_, exec_canary_preError on none, ?_, ?_, ?_, ?_, ?_, fun h => by omega, fun _ => ⟨?_, record_lastFault .., ?_, ?_⟩⟩
      · rw [record_frame, preErrorSeen_eq]; rfl
      · rw [record_nv, preErrorSeen_eq]; rfl
      · rw [record_nv, site, marginTaken_site s lt]
        exact (fld_setBit_out _ _ (by decide)).trans ((fld_setFld_same _ _ (by decide)).trans (Nat.mod_eq_of_lt (by omega)))
      · rw [record_nv, site, marginTaken_site s lt]; rfl
      · intro k other
        rw [record_nv, preErrorSeen_eq]
        exact (Vector.at_upd_ne _ _ other).trans (Vector.at_upd_ne _ _ other)
      · rw [record_nv, site]
        exact bit_setBit_same _ _ (by decide)
      · intro first full budget
        rw [record_sup]
        exact preErrorSeen_slows (s := marginTaken s n taps) first full budget
      · intro h
        rw [record_sup]
        exact preErrorSeen_keeps (s := marginTaken s n taps) h
    · refine ⟨_, exec_canary_margin on some, rfl, rfl, ?_, ?_, ?_, fun _ => ⟨rfl, rfl, ?_⟩, fun h => by omega⟩
      · rw [marginTaken_site s lt]
        exact (fld_setFld_same _ _ (by decide)).trans (Nat.mod_eq_of_lt (by omega))
      · rw [marginTaken_site s lt]; rfl
      · intro k other
        exact Vector.at_upd_ne _ _ other
      · rw [marginTaken_site s lt]
        exact bit_setFld_out _ (by decide)
  case day =>
    refine ⟨_, if_pos (by simpa [fromStandbyOn] using on), (replan_frame _).trans rfl, ?_, ?_, ?_⟩
    · rw [replan_nv]; rfl
    · rw [replan_nv]; exact Nat.le_max_left ..
    · intro n lt
      rw [replan_nv, plannedNv_site _ lt]
      have site : (s.nv.age.map AgeSite.endDay).at n = (s.nv.age.at n).endDay := Vector.at_map _ _ lt
      refine ⟨(congrArg AgeSite.hist site :), (congrArg AgeSite.today site :).trans (endDay_today _), fld_plannedSite ..⟩
  case hours => exact if_pos (by simpa [fromStandbyOn] using on)

end Sys2Proof.Machine
end

section
/-! The rows of CFG_CAN (R558 to R567, R573 to R576), and what a write to a controller or to an object of it leaves. -/

namespace Sys2Proof.Machine

section
variable {s : State} {c o : Nat}

/-! One controller, and one object of it, written. -/

theorem updCan_at_same (f : Can → Can) (lt : c < 4) : (updCan s c f).can.at c = f (s.can.at c) := Vector.at_upd_same _ _ lt

theorem updCan_at_ne (f : Can → Can) {d : Nat} (h : d ≠ c) : (updCan s c f).can.at d = s.can.at d := Vector.at_upd_ne _ _ h

theorem updObj_at_ne (f : CanObj → CanObj) {d : Nat} (h : d ≠ c) : (updObj s c o f).can.at d = s.can.at d := Vector.at_upd_ne _ _ h

theorem updObj_at_same (f : CanObj → CanObj) (lt : c < 4) :
    (updObj s c o f).can.at c = { (s.can.at c) with objs := (s.can.at c).objs.upd o f } := updCan_at_same _ lt

theorem updObj_obj_same (f : CanObj → CanObj) (lt : c < 4) (within : o < 128) :
    ((updObj s c o f).can.at c).objs.at o = f ((s.can.at c).objs.at o) := by
  rw [updObj_at_same f lt]; exact Vector.at_upd_same _ _ within

/-- Another object is left, and of a controller that is none every object. -/
theorem updObj_obj_ne (f : CanObj → CanObj) {k : Nat} (h : k ≠ o) : ((updObj s c o f).can.at c).objs.at k = (s.can.at c).objs.at k := by
  rcases Nat.lt_or_ge c 4 with lt | none
  · rw [updObj_at_same f lt]; exact Vector.at_upd_ne _ _ h
  · rw [Vector.at_of_le _ none, Vector.at_of_le _ none]

/-! The records of MOBJ, one object after another (R567). -/

/-- Objects written from `o + k` on, one for each record. -/
def writeObjs (s : State) (c o k : Nat) (l : List (W64 × W64)) : State :=
  (l.zipIdx k).foldl (fun s q => updObj s c (o + q.2) fun x => x.write q.1) s

theorem writeObjs_cons (s : State) (c o k : Nat) (q : W64 × W64) (l : List (W64 × W64)) :
    writeObjs s c o k (q :: l) = writeObjs (updObj s c (o + k) fun x => x.write q) c o (k + 1) l := rfl

theorem writeObjs_frame (l : List (W64 × W64)) (k : Nat) (s : State) :
    writeObjs s c o k l = { s with can := (writeObjs s c o k l).can } := by
  induction l generalizing k s with
  | nil => rfl
  | cons q l ih => exact (ih (k + 1) _).trans rfl

theorem writeObjs_at_ne (l : List (W64 × W64)) (k : Nat) (s : State) {d : Nat} (h : d ≠ c) :
    (writeObjs s c o k l).can.at d = s.can.at d := by
  induction l generalizing k s with
  | nil => rfl
  | cons q l ih => rw [writeObjs_cons, ih, updObj_at_ne _ h]

theorem writeObjs_outside (l : List (W64 × W64)) (k : Nat) (s : State) {j : Nat} (h : j < o + k ∨ o + k + l.length ≤ j) :
    ((writeObjs s c o k l).can.at c).objs.at j = (s.can.at c).objs.at j := by
  induction l generalizing k s with
  | nil => rfl
  | cons q l ih =>
    rw [List.length_cons] at h
    rw [writeObjs_cons, ih _ _ (by omega), updObj_obj_ne _ (by omega)]

theorem writeObjs_inside (lt : c < 4) (l : List (W64 × W64)) (k : Nat) (s : State) (room : o + k + l.length ≤ 128) {i : Nat}
    (h : i < l.length) : ((writeObjs s c o k l).can.at c).objs.at (o + k + i) = ((s.can.at c).objs.at (o + k + i)).write l[i] := by
  induction l generalizing k s i with
  | nil => exact absurd h (Nat.not_lt_zero i)
  | cons q l ih =>
    rw [List.length_cons] at h room
    rw [writeObjs_cons]
    cases i with
    | zero => exact (writeObjs_outside _ _ _ (by omega)).trans (updObj_obj_same _ lt (by omega))
    | succ i =>
      have later : o + k + (i + 1) = o + (k + 1) + i := by omega
      rw [later, ih (k + 1) _ (by omega) (by omega), updObj_obj_ne _ (by omega)]; rfl

end

/-- Settles O35: each row by its one or two checks, and then the one controller or object that it writes. The order of the checks is the
model's (log entry 8). -/
theorem canConfigurationTakesEffect : Obligations.CanConfigurationTakesEffect := by
  intro r s h
  refine ⟨⟨_, jobEnd_of_guards h rfl, rfl, fun k other => updCan_at_ne _ other, fun lt => updCan_at_same _ lt⟩, ?mobj, ?txdata,
    ⟨_, jobEnd_of_guards h rfl, rfl, fun k other => updCan_at_ne _ other, fun lt => updCan_at_same _ lt⟩, ?statusClr⟩
  case mobj =>
    have length : (mobjRecs r (fieldAt r 11 1)).length = fieldAt r 11 1 := by rw [mobjRecs, List.length_map, List.length_range]
    refine ⟨_, jobEnd_of_guards h rfl, writeObjs_frame _ 0 s, fun k other => writeObjs_at_ne _ 0 s other, fun k out => ?_,
      fun lt room i inside => ?_⟩
    · refine writeObjs_outside _ 0 s ?_
      simp only [Bool.and_eq_false_iff, decide_eq_false_iff_not] at out
      omega
    · exact (writeObjs_inside lt _ 0 s (by omega) (by omega)).trans (by simp [mobjRecs])
  case txdata =>
    refine ⟨_, jobEnd_of_guard h rfl, rfl, fun k other => updObj_at_ne _ other, fun k other => updObj_obj_ne _ other, fun lt within =>
      ⟨fun begun => ?_, fun begun => ?_⟩⟩
    · exact (updObj_obj_same _ lt within).trans (if_pos begun)
    · exact (updObj_obj_same _ lt within).trans (if_neg (ne_true_of_eq_false begun))
  case statusClr =>
    refine ⟨_, jobEnd_of_guard h rfl, rfl, fun k other => updCan_at_ne _ other, fun lt => ?_⟩
    rw [updCan_at_same _ lt]
    refine ⟨rfl, rfl, rfl, fun k within => ?_⟩
    dsimp only; split
    · exact Vector.at_map _ _ within
    · rfl

end Sys2Proof.Machine
end

section
/-! Reception on CAN (R556, R563, R569, R570, R574): flags, counters and records of a controller, and the objects that store frames. -/

namespace Sys2Proof.Machine

section
variable {c o : Nat} {s t u : State}

/-! What a controller notes: flags, counters, its error state, and records. -/

/-- From `s` to `t` controller `c` has noted something: no flag has fallen, CAN_CTRL and the objects stand, and beside the controller only
the log and the trace have changed. -/
structure CanNoted (c : Nat) (s t : State) : Prop where
  frame : t = { s with can := t.can, io := t.io, trc := t.trc }
  others : OtherCans c s t
  ctrl : (t.can.at c).ctrl = (s.can.at c).ctrl
  objs : (t.can.at c).objs = (s.can.at c).objs
  flags : ∀ i, bit (s.can.at c).flags i = true → bit (t.can.at c).flags i = true

theorem CanNoted.refl (s : State) : CanNoted c s s := ⟨rfl, .refl s, rfl, rfl, fun _ => id⟩

theorem CanNoted.trans (h : CanNoted c s t) (k : CanNoted c t u) : CanNoted c s u :=
  ⟨Eq.trans k.frame (by rw [h.frame]), h.others.trans k.others, k.ctrl.trans h.ctrl, k.objs.trans h.objs, fun i set => k.flags i (h.flags i set)⟩

theorem CanNoted.ite {p : Prop} [Decidable p] (ht : CanNoted c s t) (hu : CanNoted c s u) : CanNoted c s (if p then t else u) := by
  split <;> assumption

theorem updCan_noted (s : State) {f : Can → Can} (ctrl : ∀ x, (f x).ctrl = x.ctrl) (objs : ∀ x, (f x).objs = x.objs)
    (flags : ∀ x i, bit x.flags i = true → bit (f x).flags i = true) : CanNoted c s (updCan s c f) := by
  rcases Nat.lt_or_ge c 4 with lt | none
  · refine ⟨rfl, updCan_otherCans s f, ?_, ?_, ?_⟩
    all_goals rw [updCan_at_same f lt]
    exacts [ctrl _, objs _, flags _]
  · have same : (updCan s c f).can.at c = s.can.at c := (Vector.at_of_le _ none).trans (Vector.at_of_le _ none).symm
    refine ⟨rfl, updCan_otherCans s f, ?_, ?_, ?_⟩
    all_goals rw [same]
    exact fun _ => id

theorem recCan_noted (s : State) {code : W16} (quiet : latchCodes.contains code = false) : CanNoted c s (recCan s c code) := by
  have can : (recCan s c code).can = s.can := record_can ..
  refine ⟨?_, ⟨fun k _ => by rw [can]⟩, by rw [can], by rw [can], fun i => by rw [can]; exact id⟩
  unfold recCan; rw [record_quiet _ _ _ quiet]

theorem canSet_noted (s : State) (i : Nat) : CanNoted c s (canSet s c i) :=
  updCan_noted s (fun _ => rfl) (fun _ => rfl) fun x j set => by
    dsimp only; rw [bit_setBit]; split
    · rfl
    · exact set

theorem canFlag_noted (s : State) (i : Nat) {code : W16} (quiet : latchCodes.contains code = false) : CanNoted c s (canFlag s c i code) :=
  .ite (.refl s) ((canSet_noted s i).trans (recCan_noted _ quiet))

theorem canSet_sets (s : State) {i : Nat} (lt : c < 4) (flag : i < 11) : bit ((canSet s c i).can.at c).flags i = true := by
  rw [canSet, updCan_at_same _ lt]; exact bit_setBit_same _ _ flag

theorem canFlag_sets (s : State) {i : Nat} {code : W16} (quiet : latchCodes.contains code = false) (lt : c < 4) (flag : i < 11) :
    bit ((canFlag s c i code).can.at c).flags i = true := by
  unfold canFlag; split
  next was => exact was
  next => exact (recCan_noted (canSet s c i) quiet).flags i (canSet_sets s lt flag)

theorem canErrState_noted (s : State) (c : Nat) : CanNoted c s (canErrState s c) := by
  have state (f : Can → Can) (ctrl : ∀ x, (f x).ctrl = x.ctrl) (objs : ∀ x, (f x).objs = x.objs) (flags : ∀ x, (f x).flags = x.flags) :
      CanNoted c s (updCan s c f) := updCan_noted s ctrl objs fun x i set => by rw [flags x]; exact set
  unfold canErrState; dsimp only
  refine .ite (.refl s) (.ite ?busOff (.ite (.ite (.refl s) ?passive) ?active))
  case busOff =>
    refine (CanNoted.trans ?_ (canSet_noted ..)).trans (recCan_noted _ (by decide))
    exact state _ (fun _ => rfl) (fun _ => rfl) fun _ => rfl
  case passive =>
    refine (CanNoted.trans ?_ (canSet_noted ..)).trans (recCan_noted _ (by decide))
    exact state _ (fun _ => rfl) (fun _ => rfl) fun _ => rfl
  case active => exact state _ (fun _ => rfl) (fun _ => rfl) fun _ => rfl

theorem canGood_noted_received (s : State) (c : Nat) : CanNoted c s (canGood s c false) ∨ CanNoted c (freeTaken s) (canGood s c false) := by
  unfold canGood; split
  · exact .inl (.refl s)
  · refine .inr (CanNoted.trans ?_ (canErrState_noted _ c))
    exact updCan_noted _ (fun _ => rfl) (fun _ => rfl) fun _ _ => id

/-- A frame received without error leaves CAN_CTRL (R573). -/
theorem canGood_received_ctrl (s : State) (c : Nat) : ((canGood s c false).can.at c).ctrl = (s.can.at c).ctrl :=
  (canGood_noted_received s c).elim CanNoted.ctrl CanNoted.ctrl

/-! One object changed. -/

/-- From `s` to `t` object `o` of controller `c` has changed and no other object of it, nor CAN_CTRL. -/
structure ObjOnly (c o : Nat) (s t : State) : Prop where
  ctrl : (t.can.at c).ctrl = (s.can.at c).ctrl
  objs : ∀ k, k ≠ o → (t.can.at c).objs.at k = (s.can.at c).objs.at k

theorem ObjOnly.trans (h : ObjOnly c o s t) (k : ObjOnly c o t u) : ObjOnly c o s u :=
  ⟨k.ctrl.trans h.ctrl, fun j other => (k.objs j other).trans (h.objs j other)⟩

theorem ObjOnly.ite {p : Prop} [Decidable p] (ht : ObjOnly c o s t) (hu : ObjOnly c o s u) : ObjOnly c o s (if p then t else u) := by
  split <;> assumption

theorem ObjOnly.refl (s : State) : ObjOnly c o s s := ⟨rfl, fun _ _ => rfl⟩

theorem CanNoted.objOnly (h : CanNoted c s t) : ObjOnly c o s t := ⟨h.ctrl, fun _ _ => by rw [h.objs]⟩

theorem updObj_objOnly (s : State) (f : CanObj → CanObj) : ObjOnly c o s (updObj s c o f) := by
  refine ⟨?_, fun k other => updObj_obj_ne f other⟩
  rcases Nat.lt_or_ge c 4 with lt | none
  · rw [updObj_at_same f lt]
  · rw [Vector.at_of_le _ none, Vector.at_of_le _ none]

theorem putMsg_objOnly (s : State) (k : Nat) (v : W18) : ObjOnly c o s (putMsg s k v) := ⟨rfl, fun _ _ => rfl⟩

theorem msgPath_objOnly (s : State) : ObjOnly c o s (msgPath s c o) := by
  unfold msgPath; dsimp only
  split
  · exact .refl s
  · refine .ite (.refl s) (.ite ((updObj_objOnly ..).trans (canSet_noted ..).objOnly) ?_)
    split
    · exact (updObj_objOnly s _).trans (putMsg_objOnly ..)
    · exact (updObj_objOnly ..).trans (canSet_noted ..).objOnly

theorem putFrame_objOnly (s : State) (f : CanFrame) (lost : Bool) : ObjOnly c o s (putFrame s c o f lost) :=
  ((updObj_objOnly ..).trans (.ite (canFlag_noted _ _ (by decide)).objOnly (.refl _))).trans (msgPath_objOnly _)

theorem storeFrame_objOnly (s : State) (f : CanFrame) : ObjOnly c o s (storeFrame s c o f) :=
  .ite (putFrame_objOnly ..) (.ite ((updObj_objOnly ..).trans (canFlag_noted _ _ (by decide)).objOnly) (updObj_objOnly ..))

theorem storeFrame_otherCans (s : State) (f : CanFrame) : OtherCans c s (storeFrame s c o f) :=
  .ite (putFrame_otherCans ..) (.ite ((updCan_otherCans ..).trans (canFlag_otherCans ..)) (updCan_otherCans ..))

/-! An object that has no message word (R569, R570). -/

/-- The object as a frame entered leaves it. -/
def CanObj.entered (x : CanObj) (f : CanFrame) (lost : Bool) : CanObj := { x with frame := some f, new := true, lost := x.lost || x.new || lost }

theorem msgPath_none (h : ((s.can.at c).objs.at o).wen = false) : msgPath s c o = s := by
  unfold msgPath; dsimp only; split
  · rfl
  · exact if_pos (by rw [h]; rfl)

/-- The state with a frame entered, and LOST noted where the last one was unread. -/
def frameEntered (s : State) (c o : Nat) (f : CanFrame) (lost : Bool) : State :=
  let t := updObj s c o fun x => x.entered f lost
  if ((s.can.at c).objs.at o).new then canFlag t c 5 0xB004 else t

theorem frameEntered_noted (s : State) (f : CanFrame) (lost : Bool) :
    CanNoted c (updObj s c o fun x => x.entered f lost) (frameEntered s c o f lost) := .ite (canFlag_noted _ _ (by decide)) (.refl _)

theorem frameEntered_obj (f : CanFrame) (lost : Bool) (lt : c < 4) (within : o < 128) :
    ((frameEntered s c o f lost).can.at c).objs.at o = ((s.can.at c).objs.at o).entered f lost := by
  rw [(frameEntered_noted s f lost).objs, updObj_obj_same _ lt within]

theorem putFrame_silent {f : CanFrame} {lost : Bool} (lt : c < 4) (within : o < 128) (h : ((s.can.at c).objs.at o).wen = false) :
    putFrame s c o f lost = frameEntered s c o f lost := by
  have path : putFrame s c o f lost = msgPath (frameEntered s c o f lost) c o := rfl
  rw [path, msgPath_none]
  rw [frameEntered_obj f lost lt within]; exact h

theorem storeFrame_unlocked (f : CanFrame) (h : ((s.can.at c).objs.at o).lock = none) : storeFrame s c o f = putFrame s c o f false := by
  unfold storeFrame; exact if_pos (by rw [h]; rfl)

/-- While the lock is held a frame goes to the hold slot (R569). -/
theorem storeFrame_locked (f : CanFrame) (lt : c < 4) (within : o < 128) (h : ((s.can.at c).objs.at o).lock ≠ none) :
    ((storeFrame s c o f).can.at c).objs.at o =
      { ((s.can.at c).objs.at o) with hold := some f, holdLost := ((s.can.at c).objs.at o).hold.isSome } := by
  have held : ((s.can.at c).objs.at o).lock.isNone = false := Bool.eq_false_iff.2 fun none => h (Option.isNone_iff_eq_none.1 none)
  unfold storeFrame; dsimp only
  rw [if_neg (by rw [held]; exact Bool.false_ne_true)]
  split
  · rw [(canFlag_noted _ 5 (by decide)).objs]; exact updObj_obj_same _ lt within
  · exact updObj_obj_same _ lt within

/-! A lock's end (R569). -/

/-- The object as its lock leaves it, before the hold slot moves in. -/
def CanObj.unlocked (x : CanObj) (clears : Bool) : CanObj :=
  { x with lock := none, new := x.new && !clears, lost := x.lost && !clears, hold := none, holdLost := false }

theorem unlock_empty {clears : Bool} (h : ((s.can.at c).objs.at o).hold = none) :
    unlock s c o clears = updObj s c o fun x => x.unlocked clears := by
  unfold unlock; dsimp only; rw [h]; rfl

theorem unlock_moves {clears : Bool} {f : CanFrame} (h : ((s.can.at c).objs.at o).hold = some f) : unlock s c o clears =
    putFrame (updObj s c o fun x => x.unlocked clears) c o f ((s.can.at c).objs.at o).holdLost := by
  unfold unlock; dsimp only; rw [h]; rfl

/-! The events. -/

theorem exec_canLockRelease {c : Fin 4} {o : Fin 128} {w : CanReader} (h : ((s.can.at c).objs.at o).lock = some w) :
    exec (.canLockRelease c o w) s = .next (unlock s c o (w == .icsis)) := if_pos h

theorem exec_canLockTimeout {c : Fin 4} {o : Fin 128} {w : CanReader} (h : ((s.can.at c).objs.at o).lock = some w) :
    exec (.canLockTimeout c o) s = .next (canSet (unlock s c o false) c 6) := if_pos (by rw [h]; rfl)

theorem exec_canMessageWordTimeout {c : Fin 4} {o : Fin 128} (en : (s.can.at c).en = true) (obj : ((s.can.at c).objs.at o).en = true)
    (rx : ((s.can.at c).objs.at o).tx = false) (wen : ((s.can.at c).objs.at o).wen = true) (tout : ((s.can.at c).objs.at o).tout ≠ 0)
    (runs : driving s.drv.st = true) : exec (.canMessageWordTimeout c o) s =
      .next (recCan (canSet (putMsg s ((s.can.at c).objs.at o).word 0) c 7) c 0xB006) := by
  refine if_pos ?_
  have runs : (s.drv.st == .armed || s.drv.st == .running) = true := runs
  simp [en, obj, rx, wen, tout, runs]

/-- A frame heard is received, after the counters (R573). -/
theorem exec_canFrameReceived {c : Fin 4} {f : CanFrame} (runs : canRuns s c = true) (hears : (s.can.at c).mode ≠ 3)
    (format : f.fdf = false ∨ (s.can.at c).fden = true) : exec (.canFrameReceived c f) s =
      .next (canReceive (canGood (updCan s c fun x => { x with integrating := false }) c false) c f) := by
  have fden : ((updCan s c fun x => { x with integrating := false }).can.at c).fden = (s.can.at c).fden := by
    rw [updCan_at_same _ c.isLt]; rfl
  refine (if_neg ?_).trans (if_neg ?_)
  · simp [runs, hears]
  · rw [fden]
    rcases format with classical | fd
    · simp [classical]
    · simp [fd]

theorem canReceive_none {f : CanFrame} (h : f.remote = true ∨ matchObj (s.can.at c) f = none) : canReceive s c f = s := by
  unfold canReceive
  rcases h with remote | none
  · exact if_pos remote
  · rw [none]; split <;> rfl

/-- The frame stored in the object it matches, and snooped (R563, R636). -/
theorem canReceive_stores {f : CanFrame} (data : f.remote = false) (found : matchObj (s.can.at c) f = some o)
    (plain : (s.can.at c).cmden = false) :
    canReceive s c f = snoop (storeFrame s c o f) (0x50 + c) [{ addr := o, seq := 0, data := canBytes f }] true := by
  have ctrl : ((snoop (storeFrame s c o f) (0x50 + c) [{ addr := o, seq := 0, data := canBytes f }] true).can.at c).cmden = false := by
    rw [snoop_frame]
    unfold Can.cmden at plain ⊢
    rw [(storeFrame_objOnly (o := o) s f).ctrl, plain]
  unfold canReceive
  rw [if_neg (by simp [data]), found]
  exact if_neg (by rw [ctrl]; exact Bool.false_ne_true)

end

/-- Settles O36: reception by the object it matches; what an object holds, by its lock; and the message word of a silent object. -/
theorem canReceptionTakesEffect : Obligations.CanReceptionTakesEffect := by
  intro c s
  refine ⟨fun f _ loop => ?loopback, fun f runs hears format => ⟨?none, ?stored⟩, fun o f within => ⟨?unlocked, ?locked, ?others, ?cans⟩,
    fun o => ⟨fun w lock hold => ⟨?released, ?timedOut⟩, ?moved, ?silent⟩⟩
  case loopback => exact if_pos (by simp [loop])
  case none => exact fun h => (exec_canFrameReceived runs hears format).trans (congrArg _ (canReceive_none h))
  case stored =>
    intro data o found plain
    refine (exec_canFrameReceived runs hears format).trans (congrArg _ (canReceive_stores data found ?_))
    unfold Can.cmden at plain ⊢
    rw [canGood_received_ctrl, updCan_at_same _ c.isLt, plain]
  case unlocked =>
    intro lock wen
    rw [storeFrame_unlocked f lock, putFrame_silent c.isLt within wen, frameEntered_obj f false c.isLt within, CanObj.entered,
      Bool.or_false]
  case locked => exact storeFrame_locked f c.isLt within
  case others => exact (storeFrame_objOnly s f).objs
  case cans => exact (storeFrame_otherCans s f).can
  case released =>
    refine ⟨_, exec_canLockRelease lock, ?_⟩
    rw [unlock_empty hold]
    refine ⟨rfl, (updObj_obj_same _ c.isLt o.isLt).trans ?_, fun k other => updObj_obj_ne _ other, fun d other => updObj_at_ne _ other⟩
    rw [CanObj.unlocked, ← hold]; rfl
  case timedOut =>
    refine ⟨_, exec_canLockTimeout lock, ?_⟩
    rw [unlock_empty hold]
    refine ⟨rfl, ?_, canSet_sets _ c.isLt (by decide)⟩
    rw [(canSet_noted _ 6).objs, updObj_obj_same _ c.isLt o.isLt, CanObj.unlocked, ← hold]
    simp
  case moved =>
    intro w f lock hold wen
    refine ⟨_, exec_canLockRelease lock, ?_⟩
    have stays : (((updObj s c o fun x => x.unlocked (w == .icsis)).can.at c).objs.at o).wen = false := by
      rw [updObj_obj_same _ c.isLt o.isLt]; exact wen
    rw [unlock_moves hold, putFrame_silent c.isLt o.isLt stays, frameEntered_obj _ _ c.isLt o.isLt, updObj_obj_same _ c.isLt o.isLt]
    exact ⟨(frameEntered_noted ..).frame.trans rfl, rfl, rfl, rfl, rfl⟩
  case silent =>
    intro en obj rx wen tout runs
    refine ⟨_, exec_canMessageWordTimeout en obj rx wen tout runs, ?_⟩
    have noted := (canSet_noted (c := c) (putMsg s ((s.can.at c).objs.at o).word 0) 7).trans (recCan_noted _ (code := 0xB006) (by decide))
    have dmd := (congrArg State.dmd noted.frame :)
    refine ⟨noted.frame.trans rfl, dmd.trans rfl, ?_, (recCan_noted _ (by decide)).flags 7 (canSet_sets _ c.isLt (by decide)),
      record_lastFault ..⟩
    rw [dmd]
    exact Vector.at_put_same _ _ (fld_lt _ 46 44)

end Sys2Proof.Machine
end

section
/-! Transmission on CAN, errors, and the completions that CAN carries (R556, R561, R564 to R566, R572 to R574). -/

namespace Sys2Proof.Machine

section
variable {c o : Nat} {s t : State}

/-! Counters and error states (R573). -/

theorem canGood_sent_noted (s : State) (c : Nat) : CanNoted c s (canGood s c true) := by
  unfold canGood; split
  · exact .refl s
  · refine CanNoted.trans ?_ (canErrState_noted _ c)
    exact updCan_noted _ (fun _ => rfl) (fun _ => rfl) fun _ _ => id

theorem canError_noted (s : State) (c : Nat) (e : CanErr) : CanNoted c s (canError s c e) := by
  refine .ite (.refl s) (CanNoted.trans ?_ (canErrState_noted _ c))
  cases e <;> exact updCan_noted _ (fun _ => rfl) (fun _ => rfl) fun _ _ => id

/-- In restricted operation the counters do not change (R561). -/
theorem canError_restricted {e : CanErr} (h : (s.can.at c).mode = 1) : canError s c e = s := if_pos h

theorem canError_transmit (h : (s.can.at c).mode ≠ 1) :
    canError s c .transmit = canErrState (updCan s c fun x => { x with tec := x.tec + 8 }) c := if_neg h

theorem recCan_at (s : State) (c d : Nat) (code : W16) : (recCan s c code).can.at d = s.can.at d := by rw [recCan, record_can]

/-- A bus-off that begins is recorded (R573). -/
theorem canErrState_busOff (lt : c < 4) (on : (s.can.at c).estate ≠ 2) (off : 256 ≤ (s.can.at c).tec) :
    ((canErrState s c).can.at c).estate = 2 ∧ (canErrState s c).io.lastFault = 0xB001 := by
  have state : canErrState s c =
      recCan (canSet (updCan s c fun x => { x with estate := 2, recovering := bit (s.can.at c).ctrl 27 }) c 1) c 0xB001 :=
    (if_neg on).trans (if_pos off)
  rw [state, recCan_at, canSet, updCan_at_same _ lt, updCan_at_same _ lt]
  exact ⟨rfl, record_lastFault ..⟩

/-- The error state that the counters give leaves them (R573). -/
theorem canErrState_tec (lt : c < 4) : ((canErrState s c).can.at c).tec = (s.can.at c).tec := by
  unfold canErrState; dsimp only
  split
  · rfl
  · split
    · rw [recCan_at, canSet, updCan_at_same _ lt, updCan_at_same _ lt]
    · split
      · split
        · rfl
        · rw [recCan_at, canSet, updCan_at_same _ lt, updCan_at_same _ lt]
      · rw [updCan_at_same _ lt]

/-- An error as it is detected (R573, R576). -/
theorem exec_canErrorDetected {c : Fin 4} (runs : canRuns s c = true) (e : CanErr) (b : Bool) :
    exec (.canErrorDetected c e b) s = .next (canError (if b then canSet s c 3 else s) c e) := if_neg (by simp [runs])

theorem bitFlagged_noted (s : State) (c : Nat) (b : Bool) : CanNoted c s (if b then canSet s c 3 else s) := .ite (canSet_noted ..) (.refl s)

/-- The flag of a bit error changes no counter. -/
theorem bitFlagged_counters (b : Bool) (lt : c < 4) : ((if b then canSet s c 3 else s).can.at c).tec = (s.can.at c).tec ∧
    ((if b then canSet s c 3 else s).can.at c).rec_ = (s.can.at c).rec_ ∧
    ((if b then canSet s c 3 else s).can.at c).estate = (s.can.at c).estate := by
  split
  · rw [canSet, updCan_at_same _ lt]; exact ⟨rfl, rfl, rfl⟩
  · exact ⟨rfl, rfl, rfl⟩

/-! What an attempt leaves (R561, R565, R574). -/

theorem consume_noted (s : State) (n k : Nat) : CanNoted c s (consume s n k) := ⟨rfl, ⟨fun _ _ => rfl⟩, rfl, rfl, fun _ => id⟩

theorem cmdtxEnd_noted (s : State) (c o : Nat) (sent : Bool) : CanNoted c s (cmdtxEnd s c o sent) := by
  have sending (v : Bool) : CanNoted c s (updCan s c fun x => { x with sending := v }) :=
    updCan_noted _ (fun _ => rfl) (fun _ => rfl) fun _ _ => id
  have retry (v : Bool) : CanNoted c s (updCan s c fun x => { x with retry := v }) :=
    updCan_noted _ (fun _ => rfl) (fun _ => rfl) fun _ _ => id
  unfold cmdtxEnd; dsimp only
  refine .ite (.refl s) (.ite ?_ (retry true))
  split
  · exact .ite ((sending false).trans (consume_noted ..)) (sending false)
  · exact sending false

/-- A failed attempt that is not the last counts (R565). -/
theorem failAttempt_again (free : (s.can.at c).mode ≠ 1) (left : ((s.can.at c).objs.at o).fails < ((s.can.at c).objs.at o).rlim) :
    failAttempt s c o = updObj s c o fun x => { x with fails := x.fails + 1, begun := true } :=
  if_neg (not_or.2 ⟨free, Nat.not_le.2 left⟩)

/-- The last failed attempt ends the request (R561, R565). -/
theorem failAttempt_last (h : (s.can.at c).mode = 1 ∨ ((s.can.at c).objs.at o).rlim ≤ ((s.can.at c).objs.at o).fails) : failAttempt s c o =
    cmdtxEnd (canFlag (updObj s c o fun x => { x.endSeries with failed := true }) c 4 0xB003) c o false :=
  if_pos h

/-- A failed attempt is one write to its object, and what is noted of it. -/
theorem failAttempt_noted (s : State) (c o : Nat) : ∃ f, CanNoted c (updObj s c o f) (failAttempt s c o) := by
  unfold failAttempt; dsimp only; split
  · exact ⟨_, (canFlag_noted _ 4 (by decide)).trans (cmdtxEnd_noted ..)⟩
  · exact ⟨_, .refl _⟩

theorem failAttempt_frame (s : State) (c o : Nat) :
    failAttempt s c o = { s with can := (failAttempt s c o).can, io := (failAttempt s c o).io, trc := (failAttempt s c o).trc } := by
  obtain ⟨f, noted⟩ := failAttempt_noted s c o
  exact noted.frame.trans rfl

theorem failAttempt_flags (o : Nat) (lt : c < 4) {i : Nat} (set : bit (s.can.at c).flags i = true) :
    bit ((failAttempt s c o).can.at c).flags i = true := by
  obtain ⟨f, noted⟩ := failAttempt_noted s c o
  exact noted.flags i (by rw [updObj_at_same f lt]; exact set)

/-! What else an attempt that is sent, and in internal loopback received, leaves (R560). -/

theorem feedRing_otherCans (s : State) (n : Nat) (entry : List Byte) : OtherCans c s (feedRing s n entry) := ⟨fun _ _ => rfl⟩

theorem canDescriptor_otherCans (s : State) (f : CanFrame) : OtherCans c s (canDescriptor s c f) := by
  have full : OtherCans c s (recCan (canSet s c 8) c 0xB005) := ((canSet_noted s 8).trans (recCan_noted _ (by decide))).others
  refine .ite (canSet_noted ..).others ?_
  split
  · exact .ite full (feedRing_otherCans ..)
  · exact full

theorem snoop_otherCans (s : State) (src : Nat) (items : List Item) (last : Bool) : OtherCans c s (snoop s src items last) :=
  ⟨fun k _ => by rw [snoop_frame]⟩

theorem canReceive_otherCans (s : State) (f : CanFrame) : OtherCans c s (canReceive s c f) := by
  refine .ite (.refl s) ?_
  split
  · exact .refl s
  · have stored (o : Nat) (items : List Item) : OtherCans c s (snoop (storeFrame s c o f) (0x50 + c) items true) :=
      (storeFrame_otherCans s f).trans (snoop_otherCans ..)
    exact .ite ((stored ..).trans (canDescriptor_otherCans ..)) (stored ..)

/-- The state an attempt that is sent leaves before the controller may hear its own frame. -/
def attemptSent (s : State) (c o : Nat) : State :=
  cmdtxEnd (canGood (updObj s c o fun x => { x.endSeries with failed := false }) c true) c o true

theorem attemptSent_noted (s : State) (c o : Nat) :
    CanNoted c (updObj s c o fun x => { x.endSeries with failed := false }) (attemptSent s c o) :=
  (canGood_sent_noted ..).trans (cmdtxEnd_noted ..)

theorem attemptSent_obj (lt : c < 4) (within : o < 128) :
    ((attemptSent s c o).can.at c).objs.at o = { ((s.can.at c).objs.at o).endSeries with failed := false } := by
  rw [(attemptSent_noted s c o).objs, updObj_obj_same _ lt within]

theorem loopBack_otherCans {v : State} (h : OtherCans c s t) : OtherCans c s (loopBack v c o t) :=
  .ite (h.trans (OtherCans.trans (t := freeTaken t) ⟨fun _ _ => rfl⟩ (canReceive_otherCans ..))) h

/-! The events. -/

/-- The state in which an attempt's end is taken: the controller has taken part in the bus. -/
def attending (s : State) (c : Nat) : State := updCan s c fun x => { x with integrating := false }

def attemptEnd (s : State) (c o : Nat) : TxEnd → State
  | .sent => loopBack s c o (attemptSent s c o)
  | .arbitrationLost => updObj s c o fun x => { x with begun := true }
  | .bitError => failAttempt (canSet s c 3) c o
  | .otherError => failAttempt s c o

theorem exec_canTxAttemptEnd {c : Fin 4} {o : Fin 128} (how : TxEnd) (runs : canRuns s c = true) (mode : (s.can.at c).mode ≠ 2)
    (offer : offered (s.can.at c) = some o.val) :
    exec (.canTxAttemptEnd c o how) s = .next (attemptEnd (attending s c) c o how) := by
  have taken : ¬ (!canRuns s c.val || (s.can.at c.val).mode == 2 || offered (s.can.at c.val) != some o.val) = true := by
    simp [runs, mode, offer]
  cases how <;> exact if_neg taken

theorem attending_at (lt : c < 4) : (attending s c).can.at c = { (s.can.at c) with integrating := false } := updCan_at_same _ lt

theorem exec_canPeriodRequest {c : Fin 4} {o : Fin 128} (en : (s.can.at c).en = true) (on : fromStandby.contains s.drv.st = true)
    (obj : ((s.can.at c).objs.at o).en = true) (tx : ((s.can.at c).objs.at o).tx = true) (period : ((s.can.at c).objs.at o).period ≠ 0) :
    exec (.canPeriodRequest c o) s =
      if ((s.can.at c).objs.at o).req then .next (updCan s c fun x => { x with txlate := satInc 7 x.txlate })
      else .next (updObj s c o fun x => { x with req := true }) := by
  have on : fromStandbyOn s.drv.st = true := on
  exact if_neg (by simp [en, on, obj, tx, period])

theorem exec_canBusoffRecovery {c : Fin 4} (en : (s.can.at c).en = true) (on : fromStandby.contains s.drv.st = true)
    (off : (s.can.at c).estate = 2) (recovering : (s.can.at c).recovering = true) :
    exec (.canBusoffRecovery c) s =
      .next (updCan s c fun x => { x with estate := 0, tec := 0, rec_ := 0, recovering := false }) := by
  have on : fromStandbyOn s.drv.st = true := on
  exact if_pos (by simp [en, on, off, recovering])

theorem exec_canCompletionSend {c : Fin 4} {n : Nat} (ring : canCplRing s = some n) (ready : cmdtxReady s c = true)
    (held : 0 < (s.io.q n).held) (idle : (s.can.at c).sending = false) :
    exec (.canCompletionSend c) s = .next (requestCpl s c n) := by
  show execCanCompletionSend c s = _
  unfold execCanCompletionSend; rw [ring]
  exact if_pos (by simp [ready, idle, held])

theorem exec_canCompletionRetry {c : Fin 4} {n : Nat} (ring : canCplRing s = some n) (ready : cmdtxReady s c = true)
    (held : 0 < (s.io.q n).held) (retry : (s.can.at c).retry = true) :
    exec (.canCompletionRetry c) s = .next (requestCpl s c n) := by
  show execCanCompletionRetry c s = _
  unfold execCanCompletionRetry; rw [ring]
  exact if_pos (by simp [ready, retry, held])

end

/-- Settles O37: an attempt by its end, an error by the counters, a request by its period, and a completion by CMDTX. The values of the error
counters are those of ISO 11898-1 as assumption log entry 18 presumes them, and so is that an attempt begins and ends within its row. -/
theorem canTransmissionTakesEffect : Obligations.CanTransmissionTakesEffect := by
  intro c s
  have lt := c.isLt
  refine ⟨fun o runs mode offer => ⟨?lost, ?sent, ?failed, ?bitError⟩,
    fun o en on obj tx period => ⟨fun idle => ?request, fun req => ?late⟩,
    fun runs => ⟨if_pos runs, fun e b => ?error⟩, exec_canBusoffRecovery, fun n ring ready held => ?completion⟩
  case lost => exact exec_canTxAttemptEnd .arbitrationLost runs mode offer
  case sent =>
    have others : OtherCans c.val s (loopBack (attending s c) c o (attemptSent (attending s c) c o)) :=
      loopBack_otherCans (((updCan_otherCans s _).trans (updCan_otherCans ..)).trans (attemptSent_noted ..).others)
    have kept : Kept true s (loopBack (attending s c) c o (attemptSent (attending s c) c o)) :=
      loopBack_kept (updCan_kept (.refl s)) (cmdtxEnd_kept (canGood_kept (updObj_kept (updCan_kept (.refl s)))))
    have obj : ((attemptSent (attending s c) c o).can.at c).objs.at o = { ((s.can.at c).objs.at o).endSeries with failed := false } := by
      rw [attemptSent_obj lt o.isLt, attending_at lt]
    have same : ((attending s c).can.at c).mode = (s.can.at c).mode := by rw [attending_at lt]; rfl
    refine ⟨_, exec_canTxAttemptEnd .sent runs mode offer, kept.st rfl, others.can, fun hears => ?_, fun loop => ⟨_, obj, ?_⟩⟩
    · rw [attemptEnd, loopBack, if_neg (by rw [same]; exact hears), obj]
    · rw [attemptEnd, loopBack, if_pos (by rw [same]; exact loop)]; rfl
  case failed =>
    have obj : ((attending s c).can.at c).objs.at o = (s.can.at c).objs.at o := by rw [attending_at lt]
    have same : ((attending s c).can.at c).mode = (s.can.at c).mode := by rw [attending_at lt]; rfl
    refine ⟨_, exec_canTxAttemptEnd .otherError runs mode offer, (failAttempt_frame ..).trans rfl, fun free left => ?_, fun last => ?_⟩
    · rw [attemptEnd, failAttempt_again (by rwa [same]) (by rwa [obj]), updObj_obj_same _ lt o.isLt, obj]
      exact ⟨rfl, rfl⟩
    · rw [attemptEnd, failAttempt_last (by rwa [same, obj])]
      have noted := cmdtxEnd_noted (canFlag (updObj (attending s c) c o fun x => { x.endSeries with failed := true }) c 4 0xB003) c o false
      refine ⟨?_, noted.flags 4 (canFlag_sets _ (by decide) lt (by decide))⟩
      rw [noted.objs, (canFlag_noted _ 4 (by decide)).objs, updObj_obj_same _ lt o.isLt, obj]
  case bitError =>
    exact ⟨_, exec_canTxAttemptEnd .bitError runs mode offer, failAttempt_flags _ lt (canSet_sets _ lt (by decide))⟩
  case request => exact (exec_canPeriodRequest en on obj tx period).trans (if_neg (by simp [idle]))
  case late => exact (exec_canPeriodRequest en on obj tx period).trans (if_pos req)
  case error =>
    have flagged := bitFlagged_noted s c b
    have noted := canError_noted (if b then canSet s c 3 else s) c e
    obtain ⟨tec, rec, estate⟩ := bitFlagged_counters (s := s) b lt
    have mode : ((if b then canSet s c 3 else s).can.at c).mode = (s.can.at c).mode := congrArg (fld · 30 29) flagged.ctrl
    have whole := flagged.trans noted
    refine ⟨_, exec_canErrorDetected runs e b, whole.frame, whole.others.can, whole.objs, fun bitErr => ?_, fun restricted => ?_,
      fun free transmit => ?_⟩
    · subst bitErr; exact noted.flags 3 (canSet_sets s lt (by decide))
    · rw [canError_restricted (by rwa [mode])]; exact ⟨tec, rec⟩
    · subst transmit
      have on : (s.can.at c).estate ≠ 2 := by
        simp only [canRuns, Bool.and_eq_true, bne_iff_ne] at runs
        exact runs.2
      rw [canError_transmit (by rwa [mode]), canErrState_tec lt, updCan_at_same _ lt, tec]
      refine ⟨rfl, fun off => canErrState_busOff lt ?_ ?_⟩
      · rw [updCan_at_same _ lt]; exact estate ▸ on
      · rw [updCan_at_same _ lt]; dsimp only; rw [tec]; exact off
  case completion =>
    have within : (s.can.at c).cmdtx < 128 := fld_lt _ 10 4
    refine ⟨requestCpl s c n, rfl, ?_, ?_, ?_, ?_, exec_canCompletionSend ring ready held, exec_canCompletionRetry ring ready held⟩
    · rw [requestCpl, updObj_at_same _ lt, updCan_at_same _ lt]
    · rw [requestCpl, updObj_at_same _ lt, updCan_at_same _ lt]
    · rw [requestCpl, updObj_obj_same _ lt within]
    · rw [requestCpl, updObj_obj_same _ lt within]

end Sys2Proof.Machine
end

section
/-! The rows of CFG_ADX (R591 to R593, R599, R602 to R606). -/

namespace Sys2Proof.Machine

section
variable {s : State}

/-! TIME_ADJ in its two forms (R605). -/

theorem exec_timeAdj_inc {r : Req} (h : r.len = 16) : exec (.cfgAdxTimeAdj r) s = .next (runJob 0x1031 r s
    (guardSt (opForm r 16 4 && zeroAt r 9 7 && zeroAt r 21 3 && decide (incMin ≤ fieldAt r 16 5) && decide (fieldAt r 16 5 ≤ incMax)) stRange
      (guardSt (tmode s.adx.tcfg == 2) stBusy
        (ok { s with clk := { s.clk with incNext := some (BitVec.ofNat 40 (fieldAt r 16 5)) } })))) := if_pos h

theorem exec_timeAdj_offset {r : Req} (h : r.len ≠ 16) : exec (.cfgAdxTimeAdj r) s = .next (runJob 0x1031 r s
    (guardSt (opForm r 8 4 && zeroAt r 9 3 && offsetOk s (BitVec.ofNat 32 (fieldAt r 12 4)).toInt) stRange
      (guardSt (tmode s.adx.tcfg == 2) stBusy
        (ok { s with clk := { s.clk with offset := some (BitVec.ofNat 32 (fieldAt r 12 4)).toInt } })))) := if_neg h

/-! STATUS_CLR by what it names (R605, R606). -/

theorem adxClear_frame (s : State) (k m : Nat) : adxClear s k m = { s with adx := (adxClear s k m).adx } := by
  unfold adxClear; split
  · rfl
  · split <;> rfl

theorem adxClear_block {k : Nat} (m : Nat) (h : k = 0) :
    (adxClear s k m).adx = { s.adx with stat := s.adx.stat &&& ~~~(BitVec.ofNat 4 (m % 8)) } := congrArg State.adx (if_pos h)

theorem adxClear_time {k : Nat} (m : Nat) (h : k = 3) :
    (adxClear s k m).adx = { s.adx with stepped := s.adx.stepped && !m.testBit 27, syncLoss := s.adx.syncLoss && !m.testBit 26 } :=
  congrArg State.adx ((if_neg (by omega)).trans (if_neg (by omega)))

/-- A port's counters are cleared together with their flags (R606). -/
def AdxPort.clear (m : Nat) (x : AdxPort) : AdxPort :=
  { x with flags := w1c x.flags (BitVec.ofNat 4 m), drop := if m.testBit 1 then 0 else x.drop, missAt := if m.testBit 2 then [] else x.missAt }

theorem adxClear_port {k : Nat} (m : Nat) (h : k = 1 ∨ k = 2) : (adxClear s k m).adx.ports = s.adx.ports.upd (k - 1) (.clear m) :=
  congrArg (State.adx · |>.ports) ((if_neg (by omega)).trans (if_pos (by omega)))

end

/-- Settles O38: each row by its one or two checks, and then what it writes. The order of the checks is the model's (log entry 8), that EPOCH is
taken as RWA is its choice (log entry 9), and that CTRL is saved where it is applied in STANDBY, that TIM_INC waits for the next tick and that
TIME_SET acts at once it has deduced (log entry 48). -/
theorem networkConfigurationTakesEffect : Obligations.NetworkConfigurationTakesEffect := by
  intro r s h
  refine ⟨jobEnd_of_guards h rfl, ⟨_, jobEnd_of_guard h rfl, rfl, fun lt => Vector.at_put_same _ _ lt,
      fun j other => Vector.at_put_ne _ _ other⟩,
    jobEnd_of_guards h rfl, jobEnd_of_guards h rfl, fun long => jobEnd_of_guards h (exec_timeAdj_inc long), fun short => ?offset,
    ⟨_, jobEnd_of_guard h rfl, adxClear_frame .., adxClear_block _, fun port => ?port, adxClear_time _⟩⟩
  case offset =>
    have applied := jobEnd_of_guards h (exec_timeAdj_offset short)
    rw [offsetOk, ← Bool.and_assoc] at applied
    exact applied
  case port =>
    have lt : fieldAt r 9 1 - 1 < 2 := by omega
    rw [adxClear_port _ port, Vector.at_upd_same _ _ lt, Vector.at_upd_ne _ _ (by omega)]
    exact ⟨rfl, rfl, rfl⟩

end Sys2Proof.Machine
end

section
/-! Adexia's frames and ports (R579 to R582, R588 to R590, R597, R598, R606). -/

namespace Sys2Proof.Machine

section
variable {s : State} {p : Fin 2} {f : EthFrame}

/-! A port written. -/

theorem updPort_at_same (g : AdxPort → AdxPort) {k : Nat} (lt : k < 2) : (updPort s k g).adx.ports.at k = g (s.adx.ports.at k) :=
  Vector.at_upd_same _ _ lt

theorem updPort_at_ne (g : AdxPort → AdxPort) {j k : Nat} (h : j ≠ k) : (updPort s k g).adx.ports.at j = s.adx.ports.at j :=
  Vector.at_upd_ne _ _ h

theorem otherPort_ne (p : Fin 2) : 1 - p.val ≠ p.val := by omega

/-! Which frames are taken (R579, R581, R585, R597). -/

theorem exec_frame_discarded (h : portLive s p = false ∨ f.fcsOk = false) : exec (.adexiaFrameReceived p f) s = .next s :=
  if_pos (by rcases h with dead | bad <;> simp [*])

/-- What a frame of another node does, by its EtherType. -/
def frameHeard (s : State) (p : Nat) (f : EthFrame) : Host.Outcome State Fault Refusal :=
  if f.etype.toNat = adxType (adxCtl s) then
    if !(f.dstMac == nodeMac (adxCtl s) (nodeId s) || f.dstMac == allMac (adxCtl s)) then .next s
    else if !headerOk f.body then .next (countBad s p)
    else .next (adexiaArrives s p f)
  else if f.etype = 0x88F7 then
    .next (if f.dstMac == nodeMac (adxCtl s) (nodeId s) || f.dstMac.getLsbD 40 then ptpArrives s p f.body else s)
  else if f.etype = 0x88FB then
    match f.rct with
    | some r => .next (discardDup s p f.srcMac (r.seq % 65536)).2
    | none => .next (updPort s p fun x => { x with accepted := x.accepted + 1 })
  else .next (countBad s p)

theorem exec_frameHeard (live : portLive s p = true) (fcs : f.fcsOk = true) (src : f.srcMac ≠ nodeMac (adxCtl s) (nodeId s)) :
    exec (.adexiaFrameReceived p f) s = frameHeard s p f := by
  show execAdexiaFrameReceived p f s = _
  unfold execAdexiaFrameReceived
  rw [if_neg (by simp [live, fcs])]
  dsimp only
  rw [if_neg (show ¬(f.srcMac == nodeMac (adxCtl s) (nodeId s)) = true by simpa using src)]
  rfl

theorem frameHeard_notMine (own : f.etype.toNat = adxType (adxCtl s))
    (dst : ¬(f.dstMac = nodeMac (adxCtl s) (nodeId s) ∨ f.dstMac = allMac (adxCtl s))) : frameHeard s p f = .next s :=
  (if_pos own).trans (if_pos (by simpa using dst))

theorem frameHeard_mine (own : f.etype.toNat = adxType (adxCtl s))
    (dst : f.dstMac = nodeMac (adxCtl s) (nodeId s) ∨ f.dstMac = allMac (adxCtl s)) : frameHeard s p f =
      if !headerOk f.body then .next (countBad s p) else .next (adexiaArrives s p f) := by
  have mine : (f.dstMac == nodeMac (adxCtl s) (nodeId s) || f.dstMac == allMac (adxCtl s)) = true := by simpa using dst
  exact (if_pos own).trans (if_neg (by rw [mine]; decide))

theorem frameHeard_ptp (other : f.etype.toNat ≠ adxType (adxCtl s)) (ptp : f.etype = 0x88F7)
    (dst : f.dstMac = nodeMac (adxCtl s) (nodeId s) ∨ f.dstMac.getLsbD 40 = true) :
    frameHeard s p f = .next (ptpArrives s p f.body) :=
  ((if_neg other).trans (if_pos ptp)).trans (congrArg _ (if_pos (by simpa using dst)))

theorem frameHeard_unknown (other : f.etype.toNat ≠ adxType (adxCtl s)) (ptp : f.etype ≠ 0x88F7) (prp : f.etype ≠ 0x88FB) :
    frameHeard s p f = .next (countBad s p) :=
  ((if_neg other).trans (if_neg ptp)).trans (if_neg prp)

/-! A PTP frame (R597, R598). -/

theorem ptpArrives_frame (s : State) (p : Nat) (b : List Byte) :
    ptpArrives s p b = { s with adx := (ptpArrives s p b).adx, free := (ptpArrives s p b).free } := by
  unfold ptpArrives; dsimp only; split <;> rfl

theorem ptpArrives_accepted (b : List Byte) : ((ptpArrives s p b).adx.ports.at p).accepted = (s.adx.ports.at p).accepted + 1 := by
  unfold ptpArrives; dsimp only; split
  · rw [updPort_at_same _ p.isLt]; dsimp only; rw [freeTaken_adx, updPort_at_same _ p.isLt]
  · rw [updPort_at_same _ p.isLt]

theorem ptpArrives_stamp {b : List Byte} (event : byteAt b 0 % 16 < 4) :
    ((ptpArrives s p b).adx.ports.at p).rxStamp = some (pinNs s - (rxlat s p : Int)) := by
  unfold ptpArrives; dsimp only
  rw [if_pos (show ptpEvent b = true from decide_eq_true event), updPort_at_same _ p.isLt]

/-- A timestamp at the pins is off by at most 4 ns (R598). -/
theorem pinNs_near (s : State) : |pinNs s - localNs s| ≤ 4 := by
  unfold pinNs; rw [abs_le]; omega

/-! Duplicate discard (R582). -/

section
variable {mac : BitVec 48} {q : Nat} {e : NodeEnt} (found : (s.adx.table.find? fun e => e.mac == mac) = some e)
include found

theorem discardDup_accept (judged : e.judge q s.clk.tb = .accept) : (discardDup s p mac q).1 = true ∧
    ((discardDup s p mac q).2.adx.ports.at p).accepted = (s.adx.ports.at p).accepted + 1 := by
  unfold discardDup; simp only [found, judged]
  rw [updPort_at_same _ p.isLt]
  exact ⟨trivial, rfl⟩

theorem discardDup_duplicate (judged : e.judge q s.clk.tb = .duplicate) : (discardDup s p mac q).1 = false ∧
    ((discardDup s p mac q).2.adx.ports.at p).dup = (s.adx.ports.at p).dup + 1 := by
  unfold discardDup; simp only [found, judged]
  rw [updPort_at_ne _ (otherPort_ne p).symm, updPort_at_same _ p.isLt]
  exact ⟨trivial, rfl⟩

theorem discardDup_outOfWindow (judged : e.judge q s.clk.tb = .outOfWindow) : (discardDup s p mac q).1 = false ∧
    ((discardDup s p mac q).2.adx.ports.at p).oow = (s.adx.ports.at p).oow + 1 := by
  unfold discardDup; simp only [found, judged]
  rw [updPort_at_same _ p.isLt]
  exact ⟨trivial, rfl⟩

end

/-! Links (R579, R606). -/

/-- The link of an enabled port as it goes down, with its flag and record. -/
def linkLost (s : State) (p : Nat) : State :=
  recPort (updPort (updPort s p fun x => { x with link := false }) p fun x => { x with flags := setBit x.flags 0 true }) p 0xA001

theorem linkLost_adx (s : State) (p : Nat) : (linkLost s p).adx =
    (updPort (updPort s p fun x => { x with link := false }) p fun x => { x with flags := setBit x.flags 0 true }).adx := record_adx ..

theorem linkLost_at_same : (linkLost s p).adx.ports.at p =
    { s.adx.ports.at p with link := false, flags := setBit (s.adx.ports.at p).flags 0 true } := by
  rw [linkLost_adx, updPort_at_same _ p.isLt, updPort_at_same _ p.isLt]

theorem linkLost_at_other : (linkLost s p).adx.ports.at (1 - p) = s.adx.ports.at (1 - p) := by
  rw [linkLost_adx, updPort_at_ne _ (otherPort_ne p), updPort_at_ne _ (otherPort_ne p)]

theorem exec_linkUp : exec (.portLinkChange p true) s = .next (updPort s p fun x => { x with link := true }) := by
  show execPortLinkChange p true s = _
  unfold execPortLinkChange
  exact if_pos (by simp)

theorem exec_linkDown (up : (s.adx.ports.at p).link = true) (runs : adxRuns s = true) (enabled : adxPort (adxCtl s) p = true) :
    exec (.portLinkChange p false) s =
      .next (if ((linkLost s p).adx.ports.at (1 - p)).link then linkLost s p else recAdx (linkLost s p) noUnit 0xA002) :=
  if_neg (by simp [up, runs, enabled])

/-- A record of Adexia's changes the log and the trace alone. -/
theorem recAdx_frame (s : State) (unit : Nat) {code : W16} (quiet : latchCodes.contains code = false) :
    recAdx s unit code = { s with io := (recAdx s unit code).io, trc := (recAdx s unit code).trc } := by
  unfold recAdx; rw [record_quiet _ _ _ quiet]

theorem recPort_frame (s : State) (p : Nat) {code : W16} (quiet : latchCodes.contains code = false) :
    recPort s p code = { s with io := (recPort s p code).io, trc := (recPort s p code).trc } := by
  unfold recPort; rw [record_quiet _ _ _ quiet]

theorem linkLost_frame (s : State) (p : Nat) :
    linkLost s p = { s with adx := (linkLost s p).adx, io := (linkLost s p).io, trc := (linkLost s p).trc } := by
  unfold linkLost; rw [recPort_frame _ _ (by decide)]; rfl

/-! A duplicate that is missing (R582). -/

/-- A duplicate missed on port `p`, of the frame that the other port took. -/
def duplicateMissed (s : State) (p : Nat) (rest : List (BitVec 48 × Nat × Nat)) : State :=
  let u := updPort s (1 - p) fun x => { x with awaited := rest }
  updPort u p fun x => { x with
    missAt := (s.clk.tb :: x.missAt.filter fun u => decide (s.clk.tb < u + 4000000000)).take 256
    flags := if 15 ≤ (u.adx.ports.at p).misses s.clk.tb then setBit x.flags 2 true else x.flags }

theorem exec_missing_none (h : (s.adx.ports.at (1 - p)).awaited = []) : exec (.missingDuplicateTimeout p) s = .next s := by
  show execMissingDuplicateTimeout p s = _
  unfold execMissingDuplicateTimeout; dsimp only; rw [h]; rfl

theorem exec_missing_early {l : List (BitVec 48 × Nat × Nat)} {w : BitVec 48 × Nat × Nat}
    (h : (s.adx.ports.at (1 - p)).awaited = l ++ [w]) (early : s.clk.tb < w.2.2 + ms400) : exec (.missingDuplicateTimeout p) s = .next s := by
  have oldest : (s.adx.ports.at (1 - p)).awaited.reverse = w :: l.reverse := by rw [h, List.reverse_append]; rfl
  show execMissingDuplicateTimeout p s = _
  unfold execMissingDuplicateTimeout; dsimp only; rw [oldest]
  exact if_pos early

theorem exec_missing {l : List (BitVec 48 × Nat × Nat)} {w : BitVec 48 × Nat × Nat}
    (h : (s.adx.ports.at (1 - p)).awaited = l ++ [w]) (due : w.2.2 + ms400 ≤ s.clk.tb) : ∃ t, exec (.missingDuplicateTimeout p) s = .next t ∧
      (t = recPort (duplicateMissed s p l) p 0xA003 ∨ t = duplicateMissed s p l) := by
  have oldest : (s.adx.ports.at (1 - p)).awaited.reverse = w :: l.reverse := by rw [h, List.reverse_append]; rfl
  refine ⟨_, ?_, ite_eq_or_eq (((updPort s (1 - p) fun x => { x with awaited := l }).adx.ports.at p).misses s.clk.tb = 15) _ _⟩
  show execMissingDuplicateTimeout p s = _
  unfold execMissingDuplicateTimeout; dsimp only; rw [oldest]
  dsimp only
  rw [if_neg (Nat.not_lt.2 due), List.reverse_reverse]
  rfl

theorem duplicateMissed_awaited (rest : List (BitVec 48 × Nat × Nat)) : ((duplicateMissed s p rest).adx.ports.at (1 - p)).awaited = rest := by
  have lt : 1 - p.val < 2 := by omega
  unfold duplicateMissed; dsimp only
  rw [updPort_at_ne _ (otherPort_ne p), updPort_at_same _ lt]

theorem duplicateMissed_missAt (rest : List (BitVec 48 × Nat × Nat)) :
    ((duplicateMissed s p rest).adx.ports.at p).missAt.head? = some s.clk.tb := by
  unfold duplicateMissed; dsimp only
  rw [updPort_at_same _ p.isLt]; rfl

theorem duplicateMissed_flag (rest : List (BitVec 48 × Nat × Nat)) (many : 14 < (s.adx.ports.at p).misses s.clk.tb) :
    bit ((duplicateMissed s p rest).adx.ports.at p).flags 2 = true := by
  unfold duplicateMissed; dsimp only
  rw [updPort_at_same _ p.isLt]; dsimp only
  rw [updPort_at_ne _ (otherPort_ne p).symm, if_pos (show 15 ≤ _ from many)]
  exact bit_setBit_same _ _ (by decide)

/-! What is sent (R580, R590). -/

/-- The frame of up to 16 completion entries, the oldest first (R590). -/
def completionBody (s : State) (n : Nat) : List Byte :=
  adxBody s 4 (adxCmdsrc (adxCtl s)) ((List.range (min 16 (s.io.q n).held)).flatMap fun i =>
    memRead s.io.qsram (slotAddr n (((s.io.q n).hostPtr + i) % (s.io.q n).n)) 64)

theorem exec_cplFrameSend {n : Nat} (ring : adxCplRing s = some n) (runs : adxRuns s = true) (en : adxCmden (adxCtl s) = true)
    (held : 0 < (s.io.q n).held) (live : portLive s 0 = true ∨ portLive s 1 = true) : exec .cplFrameSend s = .next (consume
      (sendFrames s [(4, nodeMac (adxCtl s) (adxCmdsrc (adxCtl s)), completionBody s n)]) n (min 16 (s.io.q n).held)) := by
  have some : (min 16 (s.io.q n).held == 0) = false := by rw [beq_eq_false_iff_ne]; omega
  have up : (portLive s 0 || portLive s 1) = true := by simpa using live
  show execCplFrameSend s = _
  unfold execCplFrameSend; rw [ring]
  exact if_neg (by simp [runs, en, some, up])

theorem exec_adexiaMsgTimeout {k : Fin 8} (full : adxFull s = true) (en : mwEn (s.adx.mw.at k) = true) (tout : mwTout (s.adx.mw.at k) ≠ 0)
    (runs : driving s.drv.st = true) : exec (.adexiaMsgTimeout k) s =
      .next (recAdx (adxSet (putMsg s (mwWord (s.adx.mw.at k)) 0) 1) k 0xA006) := by
  have runs : (s.drv.st == .armed || s.drv.st == .running) = true := runs
  exact if_pos (by simp [full, en, tout, runs])

end

/-- Settles O39: a frame by the checks in their order, a source's frame by the judgement of its number, and each port event by what it
writes. That a supervision frame is counted as sent without its octets is assumption log entry 19's; which frames are counted, the window of
sequence numbers and when 0xA001, 0xA002 and 0xA003 are written are entry 48's; and the sign of RXLAT in a stamp is entry 71's. -/
theorem networkFramesTakeEffect : Obligations.NetworkFramesTakeEffect := by
  intro p s
  refine ⟨fun f => exec_frame_discarded, fun f live fcs src => ?_, fun mac q e found =>
    ⟨discardDup_accept found, discardDup_duplicate found, discardDup_outOfWindow found⟩, exec_linkUp, fun up runs enabled => ?down,
    exec_missing_none, fun l w => exec_missing_early, fun l w waits due => ?missing, fun k full en tout runs => ?silent,
    fun n ring runs en held live => ?completions, fun full => ⟨_, _, if_pos full, rfl, rfl, rfl, rfl⟩⟩
  · rw [exec_frameHeard live fcs src]
    refine ⟨fun own dst => frameHeard_notMine own dst, fun own dst bad => ?bad, fun own dst good => ?good, fun other ptp dst => ?ptp,
      fun other ptp prp => frameHeard_unknown other ptp prp⟩
    case bad => rw [frameHeard_mine own dst, bad]; rfl
    case good => rw [frameHeard_mine own dst, good]; rfl
    case ptp =>
      refine ⟨_, frameHeard_ptp other ptp dst, ptpArrives_frame .., ptpArrives_accepted _, fun event => ⟨_, ptpArrives_stamp event, ?_⟩⟩
      rw [sub_add_cancel]; exact pinNs_near s
  case down =>
    refine ⟨_, exec_linkDown up runs enabled, ?_⟩
    rw [linkLost_at_other]
    split
    · refine ⟨linkLost_frame .., ?_, ?_, linkLost_at_other, record_lastFault ..⟩
      all_goals rw [linkLost_at_same]
      exact bit_setBit_same _ _ (by decide)
    · have adx : (recAdx (linkLost s p) noUnit 0xA002).adx = (linkLost s p).adx := record_adx ..
      refine ⟨?_, ?_, ?_, by rw [adx, linkLost_at_other], record_lastFault ..⟩
      · rw [recAdx_frame _ _ (by decide), linkLost_frame]
      · rw [adx, linkLost_at_same]
      · rw [adx, linkLost_at_same]; exact bit_setBit_same _ _ (by decide)
  case missing =>
    obtain ⟨t, taken, recorded | quiet⟩ := exec_missing waits due
    · have adx : t.adx = (duplicateMissed s p l).adx := recorded ▸ record_adx ..
      refine ⟨t, taken, ?_, ?_, ?_, ?_⟩
      · rw [recorded, recPort_frame _ _ (by decide)]; rfl
      all_goals rw [adx]
      exacts [duplicateMissed_awaited l, duplicateMissed_missAt l, duplicateMissed_flag l]
    · subst quiet
      exact ⟨_, taken, rfl, duplicateMissed_awaited l, duplicateMissed_missAt l, duplicateMissed_flag l⟩
  case silent =>
    have frame := recAdx_frame (adxSet (putMsg s (mwWord (s.adx.mw.at k)) 0) 1) k (code := 0xA006) (by decide)
    have dmd := (congrArg State.dmd frame :)
    have adx := (congrArg State.adx frame :)
    refine ⟨_, exec_adexiaMsgTimeout full en tout runs, frame.trans ?_, ?_, ?_, record_lastFault ..⟩
    · rw [adx, dmd]; rfl
    · rw [dmd]; exact Vector.at_put_same _ _ (fld_lt _ 17 15)
    · rw [adx]; exact bit_setBit_same _ _ (by decide)
  case completions =>
    exact ⟨_, _, exec_cplFrameSend ring runs en held live, rfl, rfl, rfl, rfl, rfl, rfl⟩

end Sys2Proof.Machine
end

section
/-! Time synchronisation (R592, R593, R597 to R600). -/

namespace Sys2Proof.Machine

section
variable {s : State} {p : Fin 2}

/-- From `s` to `t` the synchronisation has changed Adexia, what the local clock is about to apply, the log and the trace. -/
def timeOnly (s t : State) : Prop :=
  t = { s with adx := t.adx, clk := { s.clk with offset := t.clk.offset, incNext := t.clk.incNext }, io := t.io, trc := t.trc }

theorem timeOnly.trans {t u : State} (h : timeOnly s t) (k : timeOnly t u) : timeOnly s u := Eq.trans k (by rw [h])

/-! The grandmaster's identity, the servo, and SYNC (R599, R600). -/

theorem recTim_frame (s : State) {code : W16} (quiet : latchCodes.contains code = false) :
    recTim s code = { s with io := (recTim s code).io, trc := (recTim s code).trc } := by
  unfold recTim; rw [record_quiet _ _ _ quiet]

theorem setGm_frame (s : State) (gm : W64) :
    setGm s gm = { s with adx := { s.adx with gmId := gm }, io := (setGm s gm).io, trc := (setGm s gm).trc } := by
  unfold setGm; dsimp only; split
  · rw [recTim_frame _ (by decide)]; rfl
  · rfl

/-- The servo writes the offset and whether it has stepped the clock (R599). -/
theorem servo_frame (s : State) (m : Int) : servo s m = { s with
    clk := { s.clk with offset := (servo s m).clk.offset }, adx := { s.adx with stepped := (servo s m).adx.stepped }
    io := (servo s m).io, trc := (servo s m).trc } := by
  unfold servo; dsimp only; split
  · rfl
  · split
    · rfl
    · rw [recTim_frame _ (by decide)]; rfl

theorem servo_timeOnly (s : State) (m : Int) : timeOnly s (servo s m) := by unfold timeOnly; rw [servo_frame]

theorem servo_small {m : Int} (h : |m| ≤ 1000) : (servo s m).clk.offset = some (-m) := by
  unfold servo; dsimp only; rw [if_pos h]

theorem servo_driving {m : Int} (h : 1000 < |m|) (runs : driving s.drv.st = true) :
    (servo s m).clk.offset = some (if 0 < m then -1000 else 1000) := by
  have runs : (s.drv.st == .armed || s.drv.st == .running) = true := runs
  unfold servo; dsimp only; rw [if_neg (not_le.2 h), if_pos runs]

theorem servo_steps {m : Int} (h : 1000 < |m|) (still : driving s.drv.st = false) :
    (servo s m).clk.offset = some (-m) ∧ (servo s m).adx.stepped = true := by
  have still : (s.drv.st == .armed || s.drv.st == .running) = false := still
  unfold servo; dsimp only; rw [if_neg (not_le.2 h), if_neg (ne_true_of_eq_false still), recTim_frame _ (by decide)]
  exact ⟨rfl, rfl⟩

/-- SYNC lost, with the flag and the record where it was set (R600). -/
theorem loseSync_frame (s : State) : loseSync s = { s with
    adx := { s.adx with sync := false, syncLoss := (loseSync s).adx.syncLoss, good := 0 }, io := (loseSync s).io, trc := (loseSync s).trc } := by
  unfold loseSync; split
  next => rw [recTim_frame _ (by decide)]; rfl
  next was => rw [← Bool.eq_false_iff.2 was]; rfl

theorem loseSync_records (was : s.adx.sync = true) : (loseSync s).adx.syncLoss = true ∧ (loseSync s).io.lastFault = 0xA010 := by
  unfold loseSync; rw [if_pos was]
  refine ⟨?_, record_lastFault ..⟩
  rw [recTim_frame _ (by decide)]; rfl

theorem judgeSync_frame (s : State) (m : Int) : judgeSync s m = { s with
    adx := { s.adx with sync := (judgeSync s m).adx.sync, syncLoss := (judgeSync s m).adx.syncLoss, good := (judgeSync s m).adx.good }
    io := (judgeSync s m).io, trc := (judgeSync s m).trc } := by
  unfold judgeSync; dsimp only; split
  · rw [loseSync_frame]
  · rfl

theorem judgeSync_timeOnly (s : State) (m : Int) : timeOnly s (judgeSync s m) := by unfold timeOnly; rw [judgeSync_frame]

theorem judgeSync_lost {m : Int} (h : (16 * ofslim s.adx.tcfg : Nat) < |m|) : judgeSync s m = loseSync s := if_pos h

theorem judgeSync_within {m : Int} (h : |m| ≤ (4 * ofslim s.adx.tcfg : Nat)) : judgeSync s m = updAdx s fun a => { a with
    good := satInc 8 s.adx.good, sync := a.sync || satInc 8 s.adx.good == 8 } := by
  unfold judgeSync; dsimp only
  rw [if_neg (by push_cast at h ⊢; omega), if_pos h]

/-- The state in which the servo acts: the slave port, the offset measured, the grandmaster and TIM_INC (R592, R599). -/
def measured (s : State) (p : Nat) (m : Int) (inc : BitVec 40) (gm : W64) : State :=
  let t := setGm (updAdx s fun a => { a with sport := p, ofs := m, gm := false }) gm
  { t with clk := { t.clk with incNext := some (incClamp inc) } }

theorem measured_eq (s : State) (p : Nat) (m : Int) (inc : BitVec 40) (gm : W64) : measured s p m inc gm = { s with
    adx := { s.adx with sport := p, ofs := m, gm := false, gmId := gm }, clk := { s.clk with incNext := some (incClamp inc) }
    io := (measured s p m inc gm).io, trc := (measured s p m inc gm).trc } := by
  unfold measured; dsimp only; rw [setGm_frame]; rfl

theorem measured_timeOnly (s : State) (p : Nat) (m : Int) (inc : BitVec 40) (gm : W64) : timeOnly s (measured s p m inc gm) := by
  unfold timeOnly; rw [measured_eq]

theorem exec_ptpSyncMeasurement (full : adxFull s = true) (live : portLive s p = true) (follows : tmode s.adx.tcfg = 0)
    (slave : s.adx.sport = 3 ∨ s.adx.sport = p.val) (m : Int) (inc : BitVec 40) (gm : W64) :
    exec (.ptpSyncMeasurement p m inc gm) s = .next (judgeSync (servo (measured s p m inc gm) m) m) := by
  refine if_neg ?_
  rcases slave with none | this
  · simp [full, live, follows, none]
  · simp [full, live, follows, this]

theorem exec_syncTimeout (full : adxFull s = true) (follows : tmode s.adx.tcfg = 0) (slave : s.adx.sport ≠ 3) (other : Bool) :
    exec (.syncTimeout other) s =
      if other then .next (recTim (updAdx s fun a => { a with sport := 1 - a.sport }) 0xA012) else .next (loseSync s) :=
  if_neg (by simp [full, follows, slave])

/-! The periodic messages (R597 to R599). -/

/-- The event message of an interval sent, with its stamp (R598). -/
def intervalSent (s : State) (p : Nat) : State :=
  updAdx (freeTaken s) fun a => { a with sent := [{
    ports := [p], cls := 0, dst := if bit s.adx.tcfg 61 then 0x011B19000000 else 0x0180C200000E, body := [], seq := none
    stamp := some (pinNs s + (txlat s p : Int)) }] }

/-- Past the event message an interval changes the grandmaster alone (R599). -/
theorem exec_ptpSyncInterval (full : adxFull s = true) (live : portLive s p = true) : ∃ t, exec (.ptpSyncInterval p) s = .next t ∧
    t.adx.sent = (intervalSent s p).adx.sent ∧ t.adx.seq = s.adx.seq ∧
    (tmode s.adx.tcfg ≠ 1 ∨ 255 ≤ prio1 s.adx.tcfg → t.adx.gm = false ∧ t.free = s.free + 1) := by
  have runs : ¬(!adxFull s || !portLive s p.val) = true := by simp [full, live]
  by_cases master : tmode s.adx.tcfg = 1 ∧ prio1 s.adx.tcfg < 255
  · have out {q : Prop} : tmode s.adx.tcfg ≠ 1 ∨ 255 ≤ prio1 s.adx.tcfg → q := by omega
    by_cases chosen : (freeVal (intervalSent s p) % 2 == 1 && !(intervalSent s p).adx.gm) = true
    · refine ⟨_, (if_neg runs).trans ((if_pos master).trans (if_pos chosen)), ?_, ?_, out⟩
      all_goals rw [setGm_frame]; rfl
    · exact ⟨_, (if_neg runs).trans ((if_pos master).trans (if_neg chosen)), rfl, rfl, out⟩
  · exact ⟨_, (if_neg runs).trans (if_neg master), rfl, rfl, fun _ => ⟨rfl, rfl⟩⟩

theorem exec_oneShotOffsetApply (pending : s.clk.offset.isSome = true ∨ s.clk.incNext.isSome = true) :
    exec .oneShotOffsetApply s = .next (tick s) := if_pos (by simpa using pending)

end

/-- Settles O40: a measurement by the servo and the judgement of SYNC, each by the limits of R599 and R600, and the other events by what they
write. That an egress stamp is the instant at the pins plus TXLAT is deduced in assumption log entry 71, and that a pending TIM_INC and
offset act at the next tick in entry 48. -/
theorem timeSynchronisationTakesEffect : Obligations.TimeSynchronisationTakesEffect := by
  intro p s
  refine ⟨fun m inc gm full live follows slave => ?measurement, fun full follows slave => ⟨?taken, ?timedOut⟩, fun full live => ?interval,
    fun pending => ⟨_, exec_oneShotOffsetApply pending, rfl, rfl, rfl, rfl⟩⟩
  case measurement =>
    have uFrame := measured_eq s p m inc gm
    have vFrame := servo_frame (measured s p m inc gm) m
    have tFrame := judgeSync_frame (servo (measured s p m inc gm) m) m
    have whole := ((measured_timeOnly s p m inc gm).trans (servo_timeOnly _ m)).trans (judgeSync_timeOnly _ m)
    refine ⟨_, exec_ptpSyncMeasurement full live follows slave m inc gm, ?_⟩
    generalize measured s p m inc gm = u at uFrame vFrame tFrame whole ⊢
    have uAdx := (congrArg State.adx uFrame :)
    have uClk := (congrArg State.clk uFrame :)
    have uDrv := (congrArg State.drv uFrame :)
    have vAdx := (congrArg State.adx vFrame :)
    have vClk := (congrArg State.clk vFrame :)
    have tAdx := (congrArg State.adx tFrame :)
    have tClk := (congrArg State.clk tFrame :)
    have limit : ofslim (servo u m).adx.tcfg = ofslim s.adx.tcfg := by rw [vAdx, uAdx]
    have good : (servo u m).adx.good = s.adx.good := by rw [vAdx, uAdx]
    have sync : (servo u m).adx.sync = s.adx.sync := by rw [vAdx, uAdx]
    refine ⟨whole, ?sport, ?ofs, ?notMaster, ?gmId, ?timInc, fun small => ?small, fun large runs => ?driving, fun large still => ?steps,
      fun lost => ?lost, fun within => ?within⟩
    case sport => rw [tAdx, vAdx, uAdx]
    case ofs => rw [tAdx, vAdx, uAdx]
    case notMaster => rw [tAdx, vAdx, uAdx]
    case gmId => rw [tAdx, vAdx, uAdx]
    case timInc => rw [tClk, vClk, uClk]; rfl
    case small => rw [tClk]; exact servo_small small
    case driving => rw [tClk]; exact servo_driving large (by rwa [uDrv])
    case steps =>
      obtain ⟨offset, stepped⟩ := servo_steps (s := u) large (by rwa [uDrv])
      rw [tClk, tAdx]; exact ⟨offset, stepped⟩
    case lost =>
      rw [judgeSync_lost (by rwa [limit]), loseSync_frame]; exact ⟨rfl, rfl⟩
    case within =>
      rw [judgeSync_within (by rwa [limit]), good]
      refine ⟨rfl, ?_⟩
      show ((servo u m).adx.sync || satInc 8 s.adx.good == 8) = true ↔ _
      rw [sync, Bool.or_eq_true, beq_iff_eq]
  case taken =>
    refine ⟨_, exec_syncTimeout full follows slave true, ?_, record_lastFault ..⟩
    rw [recTim_frame _ (by decide)]; rfl
  case timedOut =>
    refine ⟨_, exec_syncTimeout full follows slave false, ?_, ?_, loseSync_records⟩
    all_goals rw [loseSync_frame]
  case interval =>
    obtain ⟨t, exec, sent, seq, gm⟩ := exec_ptpSyncInterval full live
    refine ⟨t, _, exec, sent, rfl, rfl, seq, ⟨_, rfl, ?_⟩, gm⟩
    rw [add_sub_cancel_right]; exact pinNs_near s

end Sys2Proof.Machine
end
